-- ==== Sys2Proof/Word.lean ====
section
/-! DEFINITION. The word types of the block and the plainest arithmetic on them: register words, samples,
field positions of a register, and sparse tables with one canonical form. -/

namespace Sys2Proof

/-- A register word (R30, R32). -/
abbrev Word := BitVec 32

/-- A byte of the pattern store (R158). -/
abbrev Byte := BitVec 8

/-- The position of a field in a page: byte offset of its register, lowest bit and width in bits. A field of more
than one word (a 64-bit value of R36) has `lo + n > 32`. -/
structure Fld where
  off : Nat
  lo  : Nat
  n   : Nat
  deriving DecidableEq, Repr

/-- A sparse table: pairs of a key and a value. The canonical form (`Tab.wf`) has rising keys and holds no value
that an unlisted key reads as, so equal tables are equal data. -/
abbrev Tab (α : Type) := List (Nat × α)

/-- The value a key reads as: its entry, or the default of that key. -/
def Tab.get {α : Type} (dflt : Nat → α) : Tab α → Nat → α
  | [], k => dflt k
  | (a, v) :: t, k => if a = k then v else Tab.get dflt t k

/-- The table without the entry of a key. -/
def Tab.erase {α : Type} : Tab α → Nat → Tab α
  | [], _ => []
  | (a, v) :: t, k => if a = k then Tab.erase t k else (a, v) :: Tab.erase t k

/-- The table with a value listed at its place. -/
def Tab.insert {α : Type} : Tab α → Nat → α → Tab α
  | [], k, v => [(k, v)]
  | (a, w) :: t, k, v =>
    if a < k then (a, w) :: Tab.insert t k v
    else if a = k then (k, v) :: t
    else (k, v) :: (a, w) :: t

/-- The table after a write of a value to a key. Writing what the key reads as without an entry removes the entry. -/
def Tab.set {α : Type} [DecidableEq α] (dflt : Nat → α) (t : Tab α) (k : Nat) (v : α) : Tab α :=
  if v = dflt k then Tab.erase t k else Tab.insert t k v

/-- The table without the entries whose key is in `[lo, hi)`. -/
def Tab.dropRange {α : Type} (t : Tab α) (lo hi : Nat) : Tab α :=
  t.filter (fun e => !(decide (lo ≤ e.1) && decide (e.1 < hi)))

/-- The keys rise strictly. -/
def Tab.sorted {α : Type} : Tab α → Bool
  | [] => true
  | [_] => true
  | (a, _) :: (b, w) :: t => decide (a < b) && Tab.sorted ((b, w) :: t)

/-- The canonical form: keys rise and no entry equals the default of its key. -/
def Tab.wf {α : Type} [DecidableEq α] (dflt : Nat → α) (t : Tab α) : Bool :=
  Tab.sorted t && t.all (fun e => decide (e.2 ≠ dflt e.1))

end Sys2Proof
end

