-- ==== Sys2Proof/Syntax.lean ====
section
/-! DEFINITION. The commands of the block: one constructor for each row of the command table, with the row's operands.
Numbers of channels, contexts, clusters and other units are bounded; data are bit vectors. -/

namespace Sys2Proof

/-- The two ports that reach the registers (R39): PCI Express and the management serial port. -/
inductive HPort where
  | pcie | msp
  deriving DecidableEq, Repr

/-- What software does to MSI-X (R42): the enable bit, the function mask, the mask of one vector. -/
inductive MsixOp where
  | enable (on : Bool)
  | function (masked : Bool)
  | vector (v : Fin 256) (masked : Bool)
  deriving DecidableEq, Repr

/-- What a request of the host is (R27, R29, R32): a BAR0 access of 32 or 64 bits with every byte enabled, one with byte enables that are not all set, one longer
than two double words, an access of BAR4 (the address is its offset there), of the configuration header (its offset), or of the first word of a
capability (its identifier; an extended one with 0x1000 added). -/
inductive Tlp where
  | bar0 (wide : Bool) | enables (wide : Bool) | long (dws : Fin 1025) | bar4 (wide : Bool) | cfg | cap
  deriving DecidableEq, Repr

/-- What a calibration slice found (R365 to R375): the temperature of the run, channels skipped and the cause of the last
skip, VREFX present, VREFI minus VREFX in ppm, VREFI outside its window, and the table bytes it delivers, by region offset. -/
structure CalOut where
  temp    : BitVec 16
  skip    : Word
  cause   : BitVec 4
  vrefx   : Bool
  dev     : BitVec 16
  refBad  : Bool
  entries : List (Fin 0x18000 × Byte)
  deriving DecidableEq, Repr

/-- What a self-test part produced (R440, R445): output words in step order, failing rows and failing spare rows of its
element, and the fault bits raised in its pages. -/
structure BstOut where
  words  : List Word
  rows   : List (BitVec 16)
  spares : List (BitVec 5)
  det    : Word
  deriving DecidableEq, Repr

/-- What the ECC of the pattern store finds in a read (R160): nothing, a corrected error, or an uncorrectable one at an offset of the read. -/
inductive Ecc where
  | clean | corrected | lost (off : Fin 4096)
  deriving DecidableEq, Repr

/-- The extent of a BAR2 read, 0 to 4,096 bytes as PCI Express allows, and what the ECC finds in it (R158, R160). -/
structure B2Read where
  len : Fin 4097
  ecc : Ecc := .clean
  deriving DecidableEq, Repr

/-- What the ECC finds in the line fetches of the raster engine (R160, R329): nothing, a corrected error, or one that cannot be corrected in the word that
holds byte `o` of a plane's line. -/
inductive LineEcc where
  | clean
  | corrected
  | lost (layer : Fin 2) (plane : Fin 3) (o : BitVec 15)
  deriving DecidableEq, Repr

/-- The commands. -/
inductive Instr where
  /-- REGISTER_WRITE (R8). -/
  | registerWrite (p : HPort) (a : BitVec 24) (wide : Tlp) (v : BitVec 64)
  /-- LOW_WORD_READ (R36). -/
  | lowWordRead (p : HPort) (a : BitVec 24)
  /-- PG_SNAP (R38). -/
  | pgSnap (p : HPort) (a : BitVec 24) (v : Word)
  /-- PG_IRQ_SET (R31). -/
  | pgIrqSet (p : HPort) (a : BitVec 24) (v : Word)
  /-- PG_IRQ_EN_WRITE (R42). -/
  | pgIrqEnWrite (p : HPort) (a : BitVec 24) (v : Word)
  /-- MSIX_UNMASK (R42). -/
  | msixUnmask (o : MsixOp)
  /-- SOFT_RESET (R497). -/
  | softReset (p : HPort) (a : BitVec 24)
  /-- SOFT_RESET_DONE (R497). -/
  | softResetDone (a : BitVec 24)
  /-- GATE_REQUEST (R390). -/
  | gateRequest (p : HPort) (a : BitVec 24)
  /-- GATE_RETRY (R390). -/
  | gateRetry (a : BitVec 24) (idle : Bool)
  /-- GATE_RELEASE (R390). -/
  | gateRelease (p : HPort) (a : BitVec 24)
  /-- TXN_BEGIN (R47). -/
  | txnBegin (p : HPort) (s : Fin 8) (v : Word)
  /-- TXN_CAPTURE_WRITE (R43). -/
  | txnCaptureWrite (p : HPort) (v : Word)
  /-- TXN_STAGE_WRITE (R43). -/
  | txnStageWrite (a : BitVec 24) (wide : Bool) (v : BitVec 64)
  /-- TXN_COMMIT (R499). -/
  | txnCommit (p : HPort) (s : Fin 8) (v : Word)
  /-- TXN_ROLLBACK (R47). -/
  | txnRollback (p : HPort) (s : Fin 8)
  /-- TXN_PREPARE_DONE (R47). -/
  | txnPrepareDone (s : Fin 8)
  /-- TXN_LATE_APPLY (R50). -/
  | txnLateApply (s : Fin 8)
  /-- CTX_LOAD (R100). -/
  | ctxLoad (p : HPort) (c : Fin 1024)
  /-- CTX_ARM (R102). -/
  | ctxArm (p : HPort) (c : Fin 1024)
  /-- CTX_START (R104). -/
  | ctxStart (p : HPort) (c : Fin 1024)
  /-- CTX_STOP (R122). -/
  | ctxStop (p : HPort) (c : Fin 1024)
  /-- CTX_REDIRECT (R122). -/
  | ctxRedirect (p : HPort) (c : Fin 1024) (v : Word)
  /-- CTX_CLEAR_GO (R104). -/
  | ctxClearGo (p : HPort) (c : Fin 1024)
  /-- CTX_CLEAR_UNLOAD (R104). -/
  | ctxClearUnload (p : HPort) (c : Fin 1024)
  /-- VECTOR_EMIT (R78). -/
  | vectorEmit (c : Fin 1024) (smp : List (BitVec 2))
  /-- DECISION_LATCH (R138). -/
  | decisionLatch (c : Fin 1024)
  /-- GRANULE_BOUNDARY (R18). -/
  | granuleBoundary (c : Fin 1024)
  /-- NOP (R110). -/
  | nop (n : Fin 32)
  /-- BLOCK (R110). -/
  | block (n : Fin 32)
  /-- RPT (R110). -/
  | rpt (n : Fin 32)
  /-- LOOP (R113). -/
  | loop (n : Fin 32)
  /-- ENDL (R110). -/
  | endl (n : Fin 32)
  /-- CALL (R110). -/
  | call (n : Fin 32)
  /-- RET (R110). -/
  | ret (n : Fin 32)
  /-- JMP (R110). -/
  | jmp (n : Fin 32)
  /-- JMPC (R115). -/
  | jmpc (n : Fin 32)
  /-- MLOOP (R116). -/
  | mloop (n : Fin 32)
  /-- ENDM (R116). -/
  | endm (n : Fin 32)
  /-- WSEL (R107). -/
  | wsel (n : Fin 32)
  /-- LDSTB (R117). -/
  | ldstb (n : Fin 32)
  /-- CALGAP (R118). -/
  | calgap (n : Fin 32)
  /-- ACQ_OPEN (R282). -/
  | acqOpen (n : Fin 32)
  /-- ACQ_CLOSE (R282). -/
  | acqClose (n : Fin 32)
  /-- ACQ_RESET (R282). -/
  | acqReset (n : Fin 32)
  /-- ACQ_EMIT (R282). -/
  | acqEmit (n : Fin 32)
  /-- CLRF (R115). -/
  | clrf (n : Fin 32)
  /-- HOSTRD (R110). -/
  | hostrd (n : Fin 32)
  /-- SYSTIME (R110). -/
  | systime (n : Fin 32)
  /-- END (R120). -/
  | endOp (n : Fin 32)
  /-- BAD_OP (R110). -/
  | badOp (n : Fin 32)
  /-- DRV_L (R82). -/
  | drvL (g : Fin 1024)
  /-- DRV_H (R82). -/
  | drvH (g : Fin 1024)
  /-- DRV_T (R82). -/
  | drvT (g : Fin 1024)
  /-- DRV_Z (R82). -/
  | drvZ (g : Fin 1024)
  /-- CMP_L (R82). -/
  | cmpL (g : Fin 1024) (x : BitVec 2)
  /-- CMP_H (R82). -/
  | cmpH (g : Fin 1024) (x : BitVec 2)
  /-- CMP_M (R82). -/
  | cmpM (g : Fin 1024) (x : BitVec 2)
  /-- CMP_X (R82). -/
  | cmpX (g : Fin 1024) (x : BitVec 2)
  /-- WIN_L (R84). -/
  | winL (g : Fin 1024)
  /-- WIN_H (R84). -/
  | winH (g : Fin 1024)
  /-- WIN_END (R82). -/
  | winEnd (g : Fin 1024)
  /-- MARK (R82). -/
  | markAct (g : Fin 1024) (t : BitVec 64)
  /-- BAD_ACT (R82). -/
  | badAct (g : Fin 1024)
  /-- LOAD (R134). -/
  | rtLoad (n : Fin 32)
  /-- ARM (R146). -/
  | rtArm (n : Fin 32)
  /-- START (R134). -/
  | rtStart (n : Fin 32)
  /-- DECIDE (R139). -/
  | rtDecide (n : Fin 32)
  /-- REDIRECT (R140). -/
  | rtRedirect (n : Fin 32)
  /-- STOP (R140). -/
  | rtStop (n : Fin 32)
  /-- CLEAR (R134). -/
  | rtClear (n : Fin 32)
  /-- REACT (R147). -/
  | rtReact (n : Fin 32)
  /-- CAL_APPLY (R378). -/
  | rtCalApply (n : Fin 32)
  /-- PMC_SAMPLE (R461). -/
  | pmcSample (n : Fin 32)
  /-- TAIL_OVF (R143). -/
  | tailOvf (n : Fin 32)
  /-- MICRO_NOP (R131). -/
  | uNop (n : Fin 32) (w : BitVec 15)
  /-- LDI (R131). -/
  | uLdi (n : Fin 32) (w : BitVec 15)
  /-- LUI (R131). -/
  | uLui (n : Fin 32) (w : BitVec 15)
  /-- MOV (R131). -/
  | uMov (n : Fin 32) (w : BitVec 15)
  /-- ADD (R131). -/
  | uAdd (n : Fin 32) (w : BitVec 15)
  /-- SUB (R131). -/
  | uSub (n : Fin 32) (w : BitVec 15)
  /-- ADDI (R131). -/
  | uAddi (n : Fin 32) (w : BitVec 15)
  /-- AND (R131). -/
  | uAnd (n : Fin 32) (w : BitVec 15)
  /-- OR (R131). -/
  | uOr (n : Fin 32) (w : BitVec 15)
  /-- XOR (R131). -/
  | uXor (n : Fin 32) (w : BitVec 15)
  /-- SHF (R131). -/
  | uShf (n : Fin 32) (w : BitVec 15)
  /-- CMP (R131). -/
  | uCmp (n : Fin 32) (w : BitVec 15)
  /-- SKIP (R132). -/
  | uSkip (n : Fin 32) (w : BitVec 15)
  /-- MICRO_JMP (R131). -/
  | uJmp (n : Fin 32) (w : BitVec 15)
  /-- CALLU (R131). -/
  | uCallu (n : Fin 32) (w : BitVec 15)
  /-- RETU (R131). -/
  | uRetu (n : Fin 32) (w : BitVec 15)
  /-- DISP (R131). -/
  | uDisp (n : Fin 32) (w : BitVec 15)
  /-- RDIMG (R129). -/
  | uRdimg (n : Fin 32) (w : BitVec 15)
  /-- FLD (R131). -/
  | uFld (n : Fin 32) (w : BitVec 15)
  /-- RDCS (R131). -/
  | uRdcs (n : Fin 32) (w : BitVec 15)
  /-- WRCS (R131). -/
  | uWrcs (n : Fin 32) (w : BitVec 15)
  /-- FRM_PUSH_LOOP (R132). -/
  | uFrmPushLoop (n : Fin 32) (w : BitVec 15)
  /-- FRM_PUSH_MATCH (R132). -/
  | uFrmPushMatch (n : Fin 32) (w : BitVec 15)
  /-- FRM_PUSH_RETURN (R132). -/
  | uFrmPushReturn (n : Fin 32) (w : BitVec 15)
  /-- FRM_POP (R132). -/
  | uFrmPop (n : Fin 32) (w : BitVec 15)
  /-- FRM_TOP_OP (R132). -/
  | uFrmTopOp (n : Fin 32) (w : BitVec 15)
  /-- FRM_TOP_COUNT (R132). -/
  | uFrmTopCount (n : Fin 32) (w : BitVec 15)
  /-- FRM_TOP_KIND (R132). -/
  | uFrmTopKind (n : Fin 32) (w : BitVec 15)
  /-- FRM_SET_COUNT (R132). -/
  | uFrmSetCount (n : Fin 32) (w : BitVec 15)
  /-- HREAD (R131). -/
  | uHread (n : Fin 32) (w : BitVec 15)
  /-- DSET (R132). -/
  | uDset (n : Fin 32) (w : BitVec 15)
  /-- DACT_ACQ (R132). -/
  | uDactAcq (n : Fin 32) (w : BitVec 15)
  /-- DACT_LDSTB (R132). -/
  | uDactLdstb (n : Fin 32) (w : BitVec 15)
  /-- DACT_MARK (R132). -/
  | uDactMark (n : Fin 32) (w : BitVec 15)
  /-- DACT_SYSTIME (R132). -/
  | uDactSystime (n : Fin 32) (w : BitVec 15)
  /-- DACT_MATCH (R132). -/
  | uDactMatch (n : Fin 32) (w : BitVec 15)
  /-- DLEAF (R137). -/
  | uDleaf (n : Fin 32) (w : BitVec 15)
  /-- RDREG (R131). -/
  | uRdreg (n : Fin 32) (w : BitVec 15)
  /-- WRREG (R131). -/
  | uWrreg (n : Fin 32) (w : BitVec 15)
  /-- COMMIT_STAGE (R142). -/
  | uCommitStage (n : Fin 32) (w : BitVec 15)
  /-- COMMIT_FINAL (R142). -/
  | uCommitFinal (n : Fin 32) (w : BitVec 15)
  /-- EXIT (R143). -/
  | uExit (n : Fin 32) (w : BitVec 15)
  /-- HALT (R131). -/
  | uHalt (n : Fin 32) (w : BitVec 15)
  /-- FLT (R131). -/
  | uFlt (n : Fin 32) (w : BitVec 15)
  /-- PATCH_LOCK_REQ (R150). -/
  | patchLockReq (p : HPort) (n : Fin 32)
  /-- PATCH_LOCK_GRANT (R150). -/
  | patchLockGrant (n : Fin 32)
  /-- PATCH_LOCK_RELEASE (R150). -/
  | patchLockRelease (p : HPort) (n : Fin 32)
  /-- UCS_BCAST_WRITE (R156). -/
  | ucsBcastWrite (p : HPort) (a : BitVec 17) (v : Word)
  /-- BAR2_READ (R158). -/
  | bar2Read (a : BitVec 36) (len : B2Read)
  /-- BAR2_WRITE (R158). -/
  | bar2Write (a : BitVec 36) (bs : List Byte)
  /-- PATTERN_STORE_READY (R161). -/
  | patternStoreReady
  /-- FILL_REQUEST (R165). -/
  | fillRequest (c : Fin 1024)
  /-- FILL_COMPLETE (R167). `err`: 0 none, 1 a corrected error, 2 one that the retry met again (R160), 3 a record whose cache lines hold an uncorrectable error (R164). -/
  | fillComplete (c : Fin 1024) (err : Fin 4)
  /-- PAT_QUOTA_WRITE (R166). -/
  | patQuotaWrite (p : HPort) (c : Fin 1024) (v : Word)
  /-- STREAM_ENABLE (R173). -/
  | streamEnable (p : HPort) (q : Fin 16) (v : Word)
  /-- STREAM_DISABLE (R177). -/
  | streamDisable (p : HPort) (q : Fin 16) (v : Word)
  /-- STREAM_PROD_WRITE (R176). -/
  | streamProdWrite (p : HPort) (q : Fin 16) (v : Word)
  /-- GEYSER (R176). -/
  | geyser (q : Fin 16) (desc : BitVec 128) (bs : List Byte) (err : Bool)
  /-- GEYSER_DONE (R176). -/
  | geyserDone (q : Fin 16)
  /-- STREAM_RESUME (R174). -/
  | streamResume (q : Fin 16) (bs : List Byte)
  /-- HBM_FAIL (R178). -/
  | hbmFail (b : Bool)
  /-- LOAD_STROBE (R187). -/
  | loadStrobe (n : Fin 32) (src : Fin 5) (c : Option (Fin 1024))
  /-- WFG_STB_FIRE (R188). -/
  | wfgStbFire (p : HPort) (n : Fin 32)
  /-- HELD_STROBE_RELEASE (R189). -/
  | heldStrobeRelease (n : Fin 32)
  /-- TRIG_IN_EDGE (R187). -/
  | trigInEdge (i : Fin 2)
  /-- LEVEL_SLEW_STEP (R60). -/
  | levelSlewStep (g : Fin 1024)
  /-- SPAN_SWITCH (R61). -/
  | spanSwitch (g : Fin 1024)
  /-- SPAN_DONE (R61). -/
  | spanDone (g : Fin 1024)
  /-- CHANNEL_ENABLE (R89). -/
  | channelEnable (p : HPort) (g : Fin 1024)
  /-- ENABLE_SETTLED (R89). -/
  | enableSettled (g : Fin 1024)
  /-- CHANNEL_DISABLE (R90). -/
  | channelDisable (p : HPort) (g : Fin 1024)
  /-- PARK_COMPLETE (R90). -/
  | parkComplete (g : Fin 1024)
  /-- COMPARATOR_SETTLED (R70). -/
  | comparatorSettled (g : Fin 1024)
  /-- PIN_COMPARATOR_EDGE (R75). -/
  | pinComparatorEdge (g : Fin 1024) (high : Bool) (v : Int) (tick : BitVec 54) (raw : Fin 512)
  /-- BLANK_WINDOW (R73). -/
  | blankWindow (r : Fin 8) (b : Fin 4) (start : Bool)
  /-- CLAMP_CONDUCTION (R65). -/
  | clampConduction (g : Fin 1024) (v : Int)
  /-- PIN_FAULT_DETECT (R66). -/
  | pinFaultDetect (g : Fin 1024) (b : Fin 3)
  /-- PMU_SWITCH_STEP (R195). -/
  | pmuSwitchStep (g : Fin 1024) (track : BitVec 20)
  /-- PMU_SLEW_STEP (R191). -/
  | pmuSlewStep (g : Fin 1024)
  /-- PMU_SEQ_END (R198). -/
  | pmuSeqEnd (g : Fin 1024)
  /-- PMU_ADC_GO (R208). -/
  | pmuAdcGo (p : HPort) (g : Fin 1024)
  /-- PMU_CONVERSION (R206). -/
  | pmuConversion (g : Fin 1024) (x : BitVec 24) (overlap : Bool)
  /-- PMU_SINE_UPDATE (R211). -/
  | pmuSineUpdate (g : Fin 1024)
  /-- PMU_FAULT_DETECT (R215). -/
  | pmuFaultDetect (g : Fin 1024) (sw : Bool)
  /-- DPS_SLEW_STEP (R225). -/
  | dpsSlewStep (k : Fin 64)
  /-- RAMP_DONE (R226). -/
  | rampDone (k : Fin 64)
  /-- DPS_DISCHARGE_DONE (R226). -/
  | dpsDischargeDone (k : Fin 64)
  /-- ILIM_TRIP (R222). -/
  | ilimTrip (k : Fin 64) (ph : Fin 3)
  /-- OV (R223). -/
  | dpsOv (k : Fin 64)
  /-- UV (R223). -/
  | dpsUv (k : Fin 64) (below : Bool)
  /-- SENSE_OPEN (R219). -/
  | senseOpen (k : Fin 64)
  /-- STAGE_FAIL (R223). -/
  | stageFail (k : Fin 64)
  /-- DPS_MEAS_GO (R224). -/
  | dpsMeasGo (p : HPort) (k : Fin 64)
  /-- DPS_CONVERSION (R224). -/
  | dpsConversion (k : Fin 64) (v i : BitVec 24) (overlap : Bool)
  /-- DPS_GANG_WRITE (R229). -/
  | dpsGangWrite (p : HPort) (k : Fin 64) (v : Word)
  /-- DPS_DISABLE (R231). -/
  | dpsDisable (p : HPort) (k : Fin 64)
  /-- TDC_GO (R240). -/
  | tdcGo (p : HPort) (g : Fin 1024)
  /-- TDC_TIMEOUT (R241). -/
  | tdcTimeout (g : Fin 1024)
  /-- TDC_RESULT (R243). -/
  | tdcResult (g : Fin 1024)
  /-- TDC_POP (R254). -/
  | tdcPop (p : HPort) (g : Fin 1024)
  /-- TDC_TOKEN (R245). -/
  | tdcToken (g : Fin 1024)
  /-- TDC_DRAIN (R246). -/
  | tdcDrain (n : Fin 32)
  /-- TDC_CD_SLICE (R249). -/
  | tdcCdSlice (n : Fin 32) (hits : List (Fin 32768 × BitVec 20))
  /-- CD_DONE (R250). -/
  | cdDone (n : Fin 32) (khz : BitVec 20)
  /-- WFG_START (R263). -/
  | wfgStart (p : HPort) (n : Fin 32) (x : Fin 4)
  /-- WFG_STOP (R263). -/
  | wfgStop (p : HPort) (n : Fin 32) (x : Fin 4)
  /-- WFG_JUMP (R263). -/
  | wfgJump (p : HPort) (n : Fin 32) (x : Fin 4) (t : BitVec 4)
  /-- WFG_LATCH (R260). -/
  | wfgLatch (n : Fin 32) (x : Fin 4)
  /-- WFG_BOUNDARY (R261). -/
  | wfgBoundary (n : Fin 32) (x : Fin 4)
  /-- AC_OVL (R274). -/
  | acOvl (n : Fin 32) (x : Fin 4)
  /-- ACQ_INPUT (R277). -/
  | acqInput (c : Fin 1024)
  /-- CAPTURE_TOKEN (R300). -/
  | captureToken (c : Fin 1024) (s : Fin 8)
  /-- SLOT_END_CLOSE (R284). -/
  | slotEndClose (c : Fin 1024)
  /-- RING_WRITE (R312). -/
  | ringWrite (n : Fin 32)
  /-- COAL_TIMER (R313). -/
  | coalTimer (k : Fin 64)
  /-- RES_RING_CONS_WRITE (R311). -/
  | resRingConsWrite (p : HPort) (k : Fin 64) (v : Word)
  /-- RING_ENABLE (R311). -/
  | ringEnable (p : HPort) (k : Fin 64) (v : Word)
  /-- MAILBOX_PUSH (R314). -/
  | mailboxPush (n : Fin 32)
  /-- RES_MB_POP (R314). -/
  | resMbPop (p : HPort) (b : Fin 8) (wide : Bool)
  /-- RES_MB_PEEK (R315). -/
  | resMbPeek (p : HPort) (b : Fin 8) (wide : Bool)
  /-- RES_MB_CFG_WRITE (R310). -/
  | resMbCfgWrite (p : HPort) (b : Fin 8) (v : Word)
  /-- RES_ROUTE_WRITE (R310). -/
  | resRouteWrite (p : HPort) (j : Fin 256) (v : Word)
  /-- RAS_ENABLE (R322). -/
  | rasEnable (p : HPort) (v : Word)
  /-- RAS_DISABLE (R336). -/
  | rasDisable (p : HPort) (v : Word)
  /-- RAS_MODE_APPLY (R326). -/
  | rasModeApply (p : HPort)
  /-- RAS_PLL_LOCK (R326). -/
  | rasPllLock
  /-- RAS_FLIP (R330). -/
  | rasFlip (p : HPort) (v : Word)
  /-- FRAME_START (R335). -/
  | frameStart
  /-- FRAME_END (R334). -/
  | frameEnd
  /-- RAS_LINE_FETCH (R329). -/
  | rasLineFetch (lo hi : BitVec 14) (ecc : LineEcc)
  /-- RAS_FRAME_POP (R333). -/
  | rasFramePop (p : HPort) (wide : Bool)
  /-- RAS_REL_POP (R333). -/
  | rasRelPop (p : HPort) (wide : Bool)
  /-- MSL_ENABLE (R339). -/
  | mslEnable (p : HPort) (v : Word)
  /-- AUTO_ROOT_TIMEOUT (R339). -/
  | autoRootTimeout
  /-- PORT_SIGNAL (R344). -/
  | portSignal (q : Fin 4)
  /-- TRAIN_TIMEOUT (R344). -/
  | trainTimeout (q : Fin 4)
  /-- TRAIN (R340). -/
  | train (q : Fin 4) (w : BitVec 128)
  /-- IDLE (R342). -/
  | idle (q : Fin 4) (w : BitVec 128)
  /-- ACK (R343). -/
  | ack (q : Fin 4) (w : BitVec 128)
  /-- NAK (R346). -/
  | nak (q : Fin 4) (w : BitVec 128)
  /-- DELAY_REQ (R349). -/
  | delayReq (q : Fin 4) (w : BitVec 128) (turn : BitVec 32)
  /-- DELAY_RSP (R349). -/
  | delayRsp (q : Fin 4) (w : BitVec 128)
  /-- TICK (R354). -/
  | tick (q : Fin 4) (w : BitVec 128)
  /-- TRIG (R356). -/
  | trig (q : Fin 4) (w : BitVec 128)
  /-- TOUCHDOWN (R358). -/
  | touchdown (q : Fin 4) (w : BitVec 128)
  /-- BAR_ARRIVE (R359). -/
  | barArrive (q : Fin 4) (w : BitVec 128)
  /-- BAR_RELEASE (R359). -/
  | barRelease (q : Fin 4) (w : BitVec 128)
  /-- ENUM_SIZE (R341). -/
  | enumSize (q : Fin 4) (w : BitVec 128)
  /-- ENUM_ASSIGN (R341). -/
  | enumAssign (q : Fin 4) (w : BitVec 128)
  /-- ENUMERATION (R341). -/
  | enumeration
  /-- SYNC_LOSS (R345). -/
  | syncLoss (q : Fin 4) (w : BitVec 128)
  /-- RETRAIN_DONE (R346). -/
  | retrainDone (q : Fin 4) (moved : Bool)
  /-- UNFENCE (R344). -/
  | unfence (p : HPort) (q : Fin 4)
  /-- PORT_RETRAIN (R363). -/
  | portRetrain (p : HPort) (q : Fin 4)
  /-- CAL_PERIOD (R349). -/
  | calPeriod
  /-- DELAY_CAL_DONE (R350). -/
  | delayCalDone (ppb : BitVec 32)
  /-- TIME_SLEW (R350). -/
  | timeSlew
  /-- PORT_DOWN (R351). -/
  | portDown (q : Fin 4)
  /-- INDEX_ASSERT (R353). -/
  | indexAssert
  /-- INDEX_RELEASE (R372). -/
  | indexRelease
  /-- MSL_TICK_REQ (R353). -/
  | mslTickReq (p : HPort)
  /-- SYSTICK_EFFECT (R21). -/
  | systickEffect
  /-- MSL_TRIG_RAISE (R356). -/
  | mslTrigRaise (p : HPort) (v : Word)
  /-- MSL_TRIG_EFFECT (R357). -/
  | mslTrigEffect (t : Fin 16)
  /-- MSL_TD_REQ (R358). -/
  | mslTdReq (p : HPort)
  /-- MSL_BAR_ARRIVE (R359). -/
  | mslBarArrive (p : HPort) (v : Word)
  /-- BARRIER_RELEASE_EFFECT (R359). -/
  | barrierReleaseEffect (b : Fin 8)
  /-- TRIG_OUT_PULSE_END (R360). -/
  | trigOutPulseEnd (i : Fin 2)
  /-- CAL_GAP_OPEN (R372). -/
  | calGapOpen (p : HPort)
  /-- CAL_GAP_CLOSE (R372). -/
  | calGapClose (p : HPort)
  /-- CAL_CL_REQ (R371). -/
  | calClReq (p : HPort) (n : Fin 32) (v : Word)
  /-- CAL_AGE_EXPIRY (R371). -/
  | calAgeExpiry (n : Fin 32) (x : Fin 8) (age : Word)
  /-- CAL_SLICE_START (R374). -/
  | calSliceStart
  /-- CAL_SLICE_END (R375). -/
  | calSliceEnd (n : Fin 32) (o : CalOut)
  /-- CAL_APERTURE_WRITE (R381). -/
  | calApertureWrite (p : HPort) (a : BitVec 24) (wide : Bool) (v : BitVec 64)
  /-- CLK_VP_PERIOD_WRITE (R387). -/
  | clkVpPeriodWrite (p : HPort) (r : Fin 8) (v : Word)
  /-- VCLK_LOCK (R386). -/
  | vclkLock (r : Fin 8)
  /-- MUX_SELECT (R388). -/
  | muxSelect (p : HPort) (x : Fin 4) (sel : BitVec 4)
  /-- MUX_SWITCH (R388). -/
  | muxSwitch (x : Fin 4)
  /-- MUX_RESET (R389). -/
  | muxReset (p : HPort) (x : Fin 4) (on : Bool)
  /-- MUX_FORCE (R389). -/
  | muxForce (p : HPort) (x : Fin 4) (sel : BitVec 4)
  /-- SW_STUCK (R399). -/
  | swStuck (x : Fin 4)
  /-- REF_LOSS (R395). -/
  | refLoss
  /-- REF_RETURN (R397). -/
  | refReturn
  /-- BKOSC_FAIL (R393). -/
  | bkoscFail
  /-- AON_FAIL (R393). -/
  | aonFail
  /-- PLL_UNLOCK (R393). -/
  | pllUnlock (i : Fin 7)
  /-- VCLK_UNLOCK (R393). -/
  | vclkUnlock (r : Fin 8)
  /-- BKOSC_QUAL_CHECK (R394). -/
  | bkoscQualCheck (cnt : BitVec 16)
  /-- REF_OK (R394). -/
  | refOk
  /-- MTB_LOCK (R394). -/
  | mtbLock
  /-- CLOCK_NORMAL (R394). -/
  | clockNormal
  /-- IDLE_ENTRY (R402). -/
  | idleEntry (n : Fin 32)
  /-- IDLE_DWELL (R402). -/
  | idleDwell (n : Fin 32)
  /-- RETENTION_SAVE_DONE (R402). -/
  | retentionSaveDone (n : Fin 32)
  /-- PWR_CL_WAKE (R403). -/
  | pwrClWake (p : HPort) (n : Fin 32)
  /-- WAKE_N (R403). -/
  | wakeN
  /-- WAKE_ADMIT (R404). -/
  | wakeAdmit
  /-- WAKE_COMPLETE (R406). -/
  | wakeComplete (n : Fin 32)
  /-- PWR_CL_TOL_WRITE (R401). -/
  | pwrClTolWrite (p : HPort) (n : Fin 32) (v : Word)
  /-- PWR_HIB (R409). -/
  | pwrHib (p : HPort) (v : BitVec 8)
  /-- HBM_SELF_REFRESH (R408). -/
  | hbmSelfRefresh
  /-- D3HOT (R28). -/
  | d3hot (on : Bool)
  /-- DVFS_TARGET_WRITE (R410). -/
  | dvfsTargetWrite (p : HPort) (v : BitVec 3)
  /-- DVFS_STEP (R411). -/
  | dvfsStep (mv : BitVec 10)
  /-- DVFS_DONE (R411). -/
  | dvfsDone
  /-- AVS_TRIM (R410). -/
  | avsTrim (low : Bool)
  /-- AVS_FRAME (R412). -/
  | avsFrame (cause : Fin 5) (frame : BitVec 24) (mv : BitVec 10)
  /-- AVS_RETRY (R412). -/
  | avsRetry
  /-- THERMAL_READING (R413). -/
  | thermalReading (t : Fin 48) (cnt : BitVec 24) (c : BitVec 16) (broken : Bool)
  /-- THERMAL_RELEASE (R416). -/
  | thermalRelease (z : Fin 36)
  /-- THM_MAX_WRITE (R418). -/
  | thmMaxWrite (p : HPort) (t : Fin 48) (v : Word)
  /-- SHADOW_END (R432). -/
  | shadowEnd (k : Fin 33)
  /-- FLT_SAFE_REL (R427). -/
  | fltSafeRel (p : HPort) (v : Word)
  /-- FAULT_INJECT (R435). -/
  | faultInject (p : HPort) (v : Word)
  /-- BST_REQ (R442). -/
  | bstReq (p : HPort) (v : BitVec 8)
  /-- BIST_SLICE_START (R442). -/
  | bistSliceStart (n : Fin 32)
  /-- BIST_SLICE_END (R444). -/
  | bistSliceEnd (n : Fin 32) (o : BstOut)
  /-- BIST_SLICE_TIMEOUT (R441). -/
  | bistSliceTimeout (n : Fin 32) (o : BstOut)
  /-- BST_FUSE_CTRL (R447). -/
  | bstFuseCtrl (p : HPort) (v : Word)
  /-- FUSE_DONE (R447). -/
  | fuseDone (bad : List (Fin 64))
  /-- MSP_NOP (R452); `ovr`: the selection has edges beyond the 32nd (R451). -/
  | mspNop (cmd : Word) (ovr : Bool)
  /-- MSP_READ (R452): `sel` tells of edges beyond the 32nd, in the selection of the command word and in those that follow it. -/
  | mspRead (cmd : Word) (sel : Bool × List Bool)
  /-- MSP_WRITE (R452): the data words that follow, each with the same mark as the command word's `ovr`. -/
  | mspWrite (cmd : Word) (ws : List (Word × Bool)) (ovr : Bool)
  /-- MSP_WAKE (R456). -/
  | mspWake (cmd : Word) (ovr : Bool)
  /-- MSP_SHORT_WORD (R451). -/
  | mspShortWord
  /-- MSP_FRAME_TIMEOUT (R453). -/
  | mspFrameTimeout
  /-- MSP_CFG_WRITE (R458). -/
  | mspCfgWrite (p : HPort) (v : Word)
  /-- MSP_MASTER_GO (R457). -/
  | mspMasterGo (p : HPort) (v : Word)
  /-- MSP_MASTER_DONE (R457). -/
  | mspMasterDone (rx : Word)
  /-- PMC_DUMP (R462). -/
  | pmcDump
  /-- PMC_SMP_CLR (R466). -/
  | pmcSmpClr (p : HPort) (n : Fin 32)
  /-- PMC_DUMP_CONS_WRITE (R463). -/
  | pmcDumpConsWrite (p : HPort) (v : Word)
  /-- POR_N (R469). -/
  | porN
  /-- POR_N_RELEASE (R394). -/
  | porNRelease
  /-- SUPPLY (R468). -/
  | supply
  /-- PERST (R498). -/
  | perst
  /-- GLB_RST_CTRL (R469). -/
  | glbRstCtrl (p : HPort) (v : Word)
  /-- FLR (R28). -/
  | flr
  /-- GLB_CL_RST (R471). -/
  | glbClRst (p : HPort) (v : Word)
  /-- CLUSTER_RESET_DONE (R471). -/
  | clusterResetDone (n : Fin 32)
  /-- LINK_UP (R472). -/
  | linkUp (speed width : BitVec 4)
  /-- CHAL_REQ (R477). -/
  | lcsChalReq (p : HPort)
  /-- CHECK (R477). -/
  | lcsCheck (p : HPort)
  /-- LCS_EXIT (R477). -/
  | lcsExit (p : HPort)
  /-- ADVANCE (R476). -/
  | advance (p : HPort) (t : BitVec 4)
  /-- ADVANCE_DONE (R476). -/
  | advanceDone
  /-- IDCODE (R478). -/
  | idcode
  /-- BYPASS (R478). -/
  | bypass (tdi : List Bool)
  /-- SAMPLE_PRELOAD (R478). -/
  | samplePreload (scan : List Bool)
  /-- EXTEST (R478). -/
  | extest
  /-- LCS_ACCESS (R478). -/
  | lcsAccess (wr : Bool) (off : BitVec 12) (v : Word)
  /-- Z64_LO_WRITE (R481). -/
  | z64LoWrite (p : HPort) (off : BitVec 16) (v : Word)
  /-- Z64_HI_WRITE (R481). -/
  | z64HiWrite (p : HPort) (off : BitVec 16) (v : Word)
  /-- Z64_LO_READ (R481). -/
  | z64LoRead (p : HPort) (off : BitVec 16)
  /-- Z64_HI_READ (R481). -/
  | z64HiRead (p : HPort) (off : BitVec 16)
  /-- Z64_TIME_WRITE (R484). -/
  | z64TimeWrite (p : HPort) (off : BitVec 16) (v : Word)
  /-- Z64_STROBE (R480). -/
  | z64Strobe (p : HPort) (v : Word)
  /-- Z64_PERIOD (R484). -/
  | z64Period (p : HPort) (v : Word)
  /-- Z64_START (R480). -/
  | z64Start (p : HPort) (v : Word)
  /-- Z64_CTRL_WRITE (R480). -/
  | z64CtrlWrite (p : HPort) (ch : Fin 16) (v : Word)
  /-- VAON_LOSS (R431). -/
  | vaonLoss
  /-- SUPPLY_RETURN (R468). -/
  | supplyReturn
  /-- PERST_N_RELEASE (R472). -/
  | perstNRelease
  /-- WARM_RESET_DONE (R469). -/
  | warmResetDone
  /-- PCIE_LINK_DOWN (R319). -/
  | pcieLinkDown
  /-- PMU_CLAMP_ACT (R185). -/
  | pmuClampAct (g : Fin 1024) (high : Bool)
  /-- CS_CONFLICT (R458). -/
  | csConflict
  /-- REGISTER_READ (R33). -/
  | registerRead (p : HPort) (a : BitVec 24) (wide : Tlp)
  deriving DecidableEq, Repr

end Sys2Proof
end

