-- ==== Sys2Proof/Config.lean ====
section
/-! DEFINITION. What the spec leaves to an implementation, and the free values: constants without a body, so that no
proof can use a value of them (notes/assumptions/2.md). -/

namespace Sys2Proof

/-- The free values, one for each index; `Dev.takeFree` reads the next one. -/
opaque Config.free : Nat → Nat

/-- The local sine of the PMU at an amplitude and accumulator (R211: table and interpolation within 2 codes). -/
opaque Config.sine : Nat → Nat → Int

/-- The rounding of AMP × sine (R268), for an amplitude and a 48-bit phase, where the table's own precision decides it: used within `waveBound` only. -/
opaque Config.wave : Nat → Nat → Int

/-- The dither LFSR of R269: its next state. -/
opaque Config.lfsrNext : Nat → Nat

/-- The triangular dither of R269 that an LFSR state gives, before it is limited to ±1 DAC LSB. -/
opaque Config.dither : Nat → Int

/-- The least delay from the effect of a start to the vector-clock edge that is S(0), in fine units, for a vector period (R22 and R104 leave it to the
device): one for every context of that period, so that contexts started on one tick run in step. -/
opaque Config.startDelay : Nat → Nat

/-- What a result of a run holds where the spec states nothing, by site slot, program time or vector, and place. It depends on nothing else, so that
runs of one premise agree (R24). -/
opaque Config.runFree : Nat → Nat → Nat → Nat

/-- A rounding that the spec does not state, by place and operand. -/
opaque Config.round : Nat → Int → Nat

/-- The expected signature of a self-test part (R440: the ROM of the stepping). -/
opaque Config.bstSig : Nat → Nat → Nat

/-- The expected step count of a self-test part (R440). -/
opaque Config.bstSteps : Nat → Nat → Nat

/-- The device's own HMAC-SHA-256 under its key (R477), of a nonce and a Device Serial Number. -/
opaque Config.mac : Nat → Nat → Nat

/-- The nominal extra comparator delay of a mode of R70 other than FAST, in fine units (R367). -/
opaque Config.modeDelay : Nat → Nat

/-- The design-nominal timing bytes of a calibration region (R380), by region offset. -/
opaque Config.nominal : Nat → Nat

/-- What layer 1 composes to with an ALPHA above 256 (R328 gives 0 to 256), from the alpha and the two values. -/
opaque Config.alphaOver : Nat → Nat → Nat → Nat

/-- Words of the configuration space whose content R27 leaves to the PCI Express specification, by offset; a capability's first word at 0x10000 plus
its identifier. -/
opaque Config.cfgWord : Nat → Nat

/-- Words of BAR4 outside the MSI-X table and the pending-bit array (R29), by offset. -/
opaque Config.bar4Rest : Nat → Nat

/-- Whether a fault of a source forces the clock gate of its page (R392 leaves the assignment to 18_faults.md, which makes none). -/
opaque Config.forcesGate : Nat → Bool

/-- The direction of a drive edge from Z or between equal levels (R80 states rise and fall for levels that differ), by pin and edge. -/
opaque Config.edgeDir : Nat → Nat → Bool

/-- PG_ID.REVISION of a block TYPE in a stepping above 0 (R496 gives only its order). -/
opaque Config.revision : Nat → Nat → Nat

/-- Whether a fault detector whose end no command reports still finds its condition (R429), by source, system time and index of the free values. -/
opaque Config.detecting : Nat → Nat → Nat → Bool

/-- The last 8 bytes of a cluster's 64 in a dump slot (R463 gives them no field), by dump and cluster. -/
opaque Config.dumpRest : Nat → Nat → Nat

/-- UCS_ROM_ID.VERSION of a stepping (R155). -/
opaque Config.romVersion : Nat → Nat

end Sys2Proof
end

