-- ==== Sys2Proof/Machine/Fields.lean ====
section
/-! DEFINITION. The fields of the register tables of spec/, one constant per field: the byte offset of its register in
its page (of element 0, for an array), its lowest bit and its width. Named REGISTER_FIELD as the tables name them. -/

namespace Sys2Proof

-- HDR
def Fld.PG_ID_TYPE : Fld := ⟨0, 24, 8⟩
def Fld.PG_ID_INSTANCE : Fld := ⟨0, 16, 8⟩
def Fld.PG_ID_REVISION : Fld := ⟨0, 0, 16⟩
def Fld.PG_CTRL_GATE_REQ : Fld := ⟨8, 2, 1⟩
def Fld.PG_CTRL_SRST : Fld := ⟨8, 1, 1⟩
def Fld.PG_CTRL_EN : Fld := ⟨8, 0, 1⟩
def Fld.PG_STAT_STATE : Fld := ⟨0xc, 8, 4⟩
def Fld.PG_STAT_GATE_DEFER : Fld := ⟨0xc, 4, 1⟩
def Fld.PG_STAT_GATED : Fld := ⟨0xc, 3, 1⟩
def Fld.PG_STAT_SELFTEST : Fld := ⟨0xc, 2, 1⟩
def Fld.PG_STAT_BUSY : Fld := ⟨0xc, 1, 1⟩
def Fld.PG_ERR_ADDR_VALID : Fld := ⟨0x28, 31, 1⟩
def Fld.PG_ERR_ADDR_CAUSE : Fld := ⟨0x28, 24, 4⟩
def Fld.PG_ERR_ADDR_OFFSET : Fld := ⟨0x28, 0, 12⟩
def Fld.PG_TXN_SLOTS : Fld := ⟨0x2c, 0, 8⟩
def Fld.PG_CAP_CAP : Fld := ⟨4, 0, 32⟩
def Fld.PG_IRQ_STAT_BITS : Fld := ⟨0x10, 0, 32⟩
def Fld.PG_IRQ_EN_BITS : Fld := ⟨0x14, 0, 32⟩
def Fld.PG_IRQ_SET_BITS : Fld := ⟨0x18, 0, 32⟩
def Fld.PG_FLT_STAT_BITS : Fld := ⟨0x1c, 0, 32⟩
def Fld.PG_SNAP_ANY : Fld := ⟨0x20, 0, 32⟩
def Fld.PG_SNAP_HI_HI : Fld := ⟨0x24, 0, 32⟩

-- GLB
def Fld.GLB_PART_CLUSTERS : Fld := ⟨0x40, 16, 8⟩
def Fld.GLB_PART_RANGES : Fld := ⟨0x40, 8, 8⟩
def Fld.GLB_PART_CODE : Fld := ⟨0x40, 4, 4⟩
def Fld.GLB_PART_STEPPING : Fld := ⟨0x40, 0, 4⟩
def Fld.GLB_CL_PRESENT_PRESENT : Fld := ⟨0x44, 0, 32⟩
def Fld.GLB_RST_CTRL_KEY : Fld := ⟨0x48, 8, 8⟩
def Fld.GLB_RST_CTRL_WARM : Fld := ⟨0x48, 0, 1⟩
def Fld.GLB_RST_CAUSE_SAFE_WAIT_EXIT : Fld := ⟨0x4c, 6, 1⟩
def Fld.GLB_RST_CAUSE_HIB_EXIT : Fld := ⟨0x4c, 5, 1⟩
def Fld.GLB_RST_CAUSE_FLR : Fld := ⟨0x4c, 4, 1⟩
def Fld.GLB_RST_CAUSE_SW_WARM : Fld := ⟨0x4c, 3, 1⟩
def Fld.GLB_RST_CAUSE_PERST : Fld := ⟨0x4c, 2, 1⟩
def Fld.GLB_RST_CAUSE_SUPPLY : Fld := ⟨0x4c, 1, 1⟩
def Fld.GLB_RST_CAUSE_POR : Fld := ⟨0x4c, 0, 1⟩
def Fld.GLB_CL_RST_CLUSTER : Fld := ⟨0x50, 0, 32⟩
def Fld.GLB_CL_RST_BUSY_CLUSTER : Fld := ⟨0x54, 0, 32⟩
def Fld.GLB_CL_RST_REF_CLUSTER : Fld := ⟨0x58, 0, 32⟩

-- HIF
def Fld.HIF_LINK_SPEED : Fld := ⟨0x40, 8, 4⟩
def Fld.HIF_LINK_WIDTH : Fld := ⟨0x40, 4, 4⟩
def Fld.HIF_LINK_UP : Fld := ⟨0x40, 0, 1⟩
def Fld.HIF_ERR_RD_CNT_COUNT : Fld := ⟨0x44, 0, 32⟩
def Fld.HIF_ERR_WR_CNT_COUNT : Fld := ⟨0x48, 0, 32⟩
def Fld.HIF_ERR_FIRST_VALID : Fld := ⟨0x4c, 31, 1⟩
def Fld.HIF_ERR_FIRST_WRITE : Fld := ⟨0x4c, 30, 1⟩
def Fld.HIF_ERR_FIRST_CAUSE : Fld := ⟨0x4c, 24, 4⟩
def Fld.HIF_ERR_FIRST_ADDR : Fld := ⟨0x4c, 0, 24⟩

-- TXN
def Fld.TXN_CAPTURE_EN : Fld := ⟨0x40, 4, 1⟩
def Fld.TXN_CAPTURE_SLOT : Fld := ⟨0x40, 0, 3⟩
def Fld.TXN_BEGIN_TAG : Fld := ⟨0x100, 0, 16⟩
def Fld.TXN_COMMIT_POINT : Fld := ⟨0x104, 28, 4⟩
def Fld.TXN_COMMIT_TARGET : Fld := ⟨0x104, 0, 10⟩
def Fld.TXN_ROLLBACK_GO : Fld := ⟨0x108, 0, 1⟩
def Fld.TXN_STAT_STATE : Fld := ⟨0x10c, 28, 4⟩
def Fld.TXN_STAT_FAIL : Fld := ⟨0x10c, 24, 4⟩
def Fld.TXN_STAT_LATE : Fld := ⟨0x10c, 23, 1⟩
def Fld.TXN_STAT_CONFLICTED : Fld := ⟨0x10c, 22, 1⟩
def Fld.TXN_STAT_IGNORED : Fld := ⟨0x10c, 21, 1⟩
def Fld.TXN_STAT_COUNT : Fld := ⟨0x10c, 0, 13⟩
def Fld.TXN_TAG_TAG : Fld := ⟨0x110, 0, 16⟩
def Fld.TXN_PEEK_ADDR_ADDR : Fld := ⟨0x114, 2, 22⟩
def Fld.TXN_PEEK_DATA_DATA : Fld := ⟨0x118, 0, 32⟩
def Fld.TXN_PEEK_STAT_HIT : Fld := ⟨0x11c, 0, 1⟩
def Fld.TXN_LATE_TICKS_TICKS : Fld := ⟨0x120, 0, 32⟩
def Fld.TXN_APPLY_TIME_TIME : Fld := ⟨0x128, 0, 64⟩

-- CLK
def Fld.CLK_STAT_MTB_LOCK : Fld := ⟨0x40, 11, 1⟩
def Fld.CLK_STAT_REF_OK : Fld := ⟨0x40, 10, 1⟩
def Fld.CLK_STAT_BKOSC_FAIL : Fld := ⟨0x40, 9, 1⟩
def Fld.CLK_STAT_BKOSC_QUAL : Fld := ⟨0x40, 8, 1⟩
def Fld.CLK_PLL_LOCK_VCLK : Fld := ⟨0x44, 8, 8⟩
def Fld.CLK_PLL_LOCK_PLL : Fld := ⟨0x44, 0, 7⟩
def Fld.CLK_UNLOCK_MAP_PLL : Fld := ⟨0x48, 0, 16⟩
def Fld.CLK_BKOSC_CNT_COUNT : Fld := ⟨0x4c, 0, 16⟩
def Fld.CLK_REF_LOSS_CNT_COUNT : Fld := ⟨0x50, 0, 32⟩
def Fld.CLK_GATE_DEFER_CNT_COUNT : Fld := ⟨0x54, 0, 32⟩
def Fld.CLK_REF_RETURN_AON_CYC : Fld := ⟨0x58, 0, 17⟩
def Fld.CLK_VP_PERIOD_PERIOD : Fld := ⟨0x80, 0, 20⟩
def Fld.CLK_VP_STAT_LOCKED : Fld := ⟨0x84, 31, 1⟩
def Fld.CLK_VP_STAT_OFF : Fld := ⟨0x84, 30, 1⟩
def Fld.CLK_VP_STAT_PERIOD_NOW : Fld := ⟨0x84, 0, 20⟩
def Fld.CLK_MUX_CTRL_FORCE : Fld := ⟨0x100, 31, 1⟩
def Fld.CLK_MUX_CTRL_RST : Fld := ⟨0x100, 16, 1⟩
def Fld.CLK_MUX_CTRL_SEL : Fld := ⟨0x100, 0, 4⟩
def Fld.CLK_SW_STAT_STATE : Fld := ⟨0x104, 30, 2⟩
def Fld.CLK_SW_STAT_FORCE_REFUSED : Fld := ⟨0x104, 29, 1⟩
def Fld.CLK_SW_STAT_REQ : Fld := ⟨0x104, 4, 4⟩
def Fld.CLK_SW_STAT_CUR : Fld := ⟨0x104, 0, 4⟩
def Fld.CLK_SW_WAIT_AON_CYC : Fld := ⟨0x108, 0, 32⟩

-- PWR
def Fld.PWR_STAT_HIB_REFUSED : Fld := ⟨0x40, 31, 1⟩
def Fld.PWR_STAT_HIB_WAKE : Fld := ⟨0x40, 30, 1⟩
def Fld.PWR_STAT_INPROG : Fld := ⟨0x40, 8, 6⟩
def Fld.PWR_STAT_QUEUED : Fld := ⟨0x40, 0, 6⟩
def Fld.WAKE_SLEW_BUDGET_PIN : Fld := ⟨0x44, 16, 16⟩
def Fld.WAKE_SLEW_BUDGET_CORE : Fld := ⟨0x44, 0, 16⟩
def Fld.WAKE_MAX_CONCURRENT_COUNT : Fld := ⟨0x48, 0, 6⟩
def Fld.PWR_STEP_NAP_PIN : Fld := ⟨0x4c, 16, 16⟩
def Fld.PWR_STEP_NAP_CORE : Fld := ⟨0x4c, 0, 16⟩
def Fld.PWR_STEP_DORM_PIN : Fld := ⟨0x50, 16, 16⟩
def Fld.PWR_STEP_DORM_CORE : Fld := ⟨0x50, 0, 16⟩
def Fld.PWR_IDLE_DWELL_US : Fld := ⟨0x54, 0, 16⟩
def Fld.PWR_LAT_MISS_VALID : Fld := ⟨0x58, 31, 1⟩
def Fld.PWR_LAT_MISS_CLUSTER : Fld := ⟨0x58, 24, 5⟩
def Fld.PWR_LAT_MISS_NS : Fld := ⟨0x58, 0, 24⟩
def Fld.PWR_DVFS_CTRL_TARGET : Fld := ⟨0x5c, 0, 3⟩
def Fld.PWR_DVFS_STAT_BUSY : Fld := ⟨0x60, 31, 1⟩
def Fld.PWR_DVFS_STAT_CEIL : Fld := ⟨0x60, 24, 4⟩
def Fld.PWR_DVFS_STAT_NOW : Fld := ⟨0x60, 16, 3⟩
def Fld.PWR_DVFS_STAT_VCORE_MV : Fld := ⟨0x60, 0, 10⟩
def Fld.PWR_AVS_STAT_VALID : Fld := ⟨0x64, 31, 1⟩
def Fld.PWR_AVS_STAT_CAUSE : Fld := ⟨0x64, 24, 4⟩
def Fld.PWR_AVS_STAT_FRAME : Fld := ⟨0x64, 0, 24⟩
def Fld.PWR_AVS_ERR_CNT_COUNT : Fld := ⟨0x68, 0, 32⟩
def Fld.PWR_HIB_CONFIRM : Fld := ⟨0x6c, 8, 8⟩
def Fld.PWR_WAKEN_CNT_COUNT : Fld := ⟨0x70, 0, 32⟩
def Fld.PWR_CL_TOL_NS : Fld := ⟨0x100, 0, 32⟩
def Fld.PWR_CL_CFG_FORCE_RUN : Fld := ⟨0x104, 8, 1⟩
def Fld.PWR_CL_CFG_PRIO : Fld := ⟨0x104, 4, 2⟩
def Fld.PWR_CL_CFG_WAKEN_EN : Fld := ⟨0x104, 1, 1⟩
def Fld.PWR_CL_CFG_TD_WAKE : Fld := ⟨0x104, 0, 1⟩
def Fld.PWR_CL_STAT_STATE : Fld := ⟨0x108, 28, 4⟩
def Fld.PWR_CL_STAT_TARGET : Fld := ⟨0x108, 24, 4⟩
def Fld.PWR_CL_STAT_WAKING : Fld := ⟨0x108, 20, 1⟩
def Fld.PWR_CL_STAT_QUEUED : Fld := ⟨0x108, 19, 1⟩
def Fld.PWR_CL_STAT_BLOCK : Fld := ⟨0x108, 0, 7⟩
def Fld.PWR_CL_WAKE_GO : Fld := ⟨0x10c, 0, 1⟩
def Fld.PWR_CL_MISS_CNT_COUNT : Fld := ⟨0x300, 0, 32⟩

-- THM
def Fld.THM_STAT_COMP_FROZEN : Fld := ⟨0x40, 8, 1⟩
def Fld.THM_STAT_ZONES_WARN : Fld := ⟨0x40, 0, 5⟩
def Fld.THM_WARN_CENTI_C : Fld := ⟨0x44, 0, 16⟩
def Fld.THM_CRIT_CENTI_C : Fld := ⟨0x48, 0, 16⟩
def Fld.THM_HYST_CENTI_C : Fld := ⟨0x4c, 0, 16⟩
def Fld.THM_BROKEN_MAP_SENSOR : Fld := ⟨0x50, 0, 48⟩
def Fld.THM_WARN_MAP_SENSOR : Fld := ⟨0x58, 0, 48⟩
def Fld.THM_CRIT_MAP_SENSOR : Fld := ⟨0x60, 0, 48⟩
def Fld.THM_IGNORE_SENSOR : Fld := ⟨0x68, 0, 48⟩
def Fld.THM_WARN_SEC_SECONDS : Fld := ⟨0x70, 0, 32⟩
def Fld.THM_TEMP_BROKEN : Fld := ⟨0x100, 16, 1⟩
def Fld.THM_TEMP_CENTI_C : Fld := ⟨0x100, 0, 16⟩
def Fld.THM_MAX_CENTI_C : Fld := ⟨0x200, 0, 16⟩
def Fld.THM_COUNT_COUNT : Fld := ⟨0x300, 0, 24⟩

-- FLT
def Fld.FLT_FIRST_VALID : Fld := ⟨0x40, 31, 1⟩
def Fld.FLT_FIRST_ACTIVE : Fld := ⟨0x40, 30, 1⟩
def Fld.FLT_FIRST_INJ : Fld := ⟨0x40, 29, 1⟩
def Fld.FLT_FIRST_BKOSC_NOT_READY : Fld := ⟨0x40, 28, 1⟩
def Fld.FLT_FIRST_CLASS : Fld := ⟨0x40, 26, 2⟩
def Fld.FLT_FIRST_SOURCE : Fld := ⟨0x40, 0, 24⟩
def Fld.FLT_FIRST_AON_AON_CYC : Fld := ⟨0x44, 0, 32⟩
def Fld.FLT_FIRST_TIME_TIME : Fld := ⟨0x48, 0, 64⟩
def Fld.FLT_OVF_SET : Fld := ⟨0x50, 31, 1⟩
def Fld.FLT_OVF_COUNT : Fld := ⟨0x50, 0, 16⟩
def Fld.FLT_CONSEQ_SET : Fld := ⟨0x54, 31, 1⟩
def Fld.FLT_CONSEQ_COUNT : Fld := ⟨0x54, 0, 16⟩
def Fld.FLT_CONSEQ_SRC_CLASS : Fld := ⟨0x58, 26, 2⟩
def Fld.FLT_CONSEQ_SRC_SOURCE : Fld := ⟨0x58, 0, 24⟩
def Fld.FLT_PREV_FIRST_WORD : Fld := ⟨0x5c, 0, 32⟩
def Fld.FLT_SHADOW_US : Fld := ⟨0x60, 0, 16⟩
def Fld.FLT_SHADOW_MAP_CLUSTER : Fld := ⟨0x64, 0, 32⟩
def Fld.FLT_STAT_INJ_REFUSED : Fld := ⟨0x68, 2, 1⟩
def Fld.FLT_STAT_REL_REFUSED : Fld := ⟨0x68, 1, 1⟩
def Fld.FLT_STAT_DEV_SHADOW : Fld := ⟨0x68, 0, 1⟩
def Fld.FLT_PIN_CFG_EN : Fld := ⟨0x6c, 0, 4⟩
def Fld.FLT_SAFE_MAP_CLUSTER : Fld := ⟨0x70, 0, 32⟩
def Fld.FLT_SAFE_REL_CLUSTER : Fld := ⟨0x74, 0, 32⟩
def Fld.FLT_GLB_MAP_TYPE : Fld := ⟨0x78, 0, 16⟩
def Fld.FLT_CL_MAP_CLUSTER : Fld := ⟨0x7c, 0, 32⟩
def Fld.FLT_INJ_SEL_ALL : Fld := ⟨0x80, 24, 1⟩
def Fld.FLT_INJ_SEL_SOURCE : Fld := ⟨0x80, 0, 24⟩
def Fld.FLT_INJ_CTRL_KEY : Fld := ⟨0x84, 8, 8⟩
def Fld.FLT_INJ_CTRL_CONT : Fld := ⟨0x84, 1, 1⟩
def Fld.FLT_INJ_CTRL_ARM : Fld := ⟨0x84, 0, 1⟩
def Fld.FLT_CLASS_CLASS : Fld := ⟨0x400, 0, 64⟩

-- BST
def Fld.BST_CFG_MAX_PAR : Fld := ⟨0x40, 8, 5⟩
def Fld.BST_CFG_REPAIR_EN : Fld := ⟨0x40, 0, 1⟩
def Fld.BST_REQ_TEST : Fld := ⟨0x44, 0, 8⟩
def Fld.BST_REQ_CL_CLUSTER : Fld := ⟨0x48, 0, 32⟩
def Fld.BST_STAT_REFUSED : Fld := ⟨0x4c, 28, 4⟩
def Fld.BST_STAT_TEST : Fld := ⟨0x4c, 20, 8⟩
def Fld.BST_STAT_RUNNING : Fld := ⟨0x4c, 0, 6⟩
def Fld.BST_FUSE_CTRL_KEY : Fld := ⟨0x50, 8, 8⟩
def Fld.BST_FUSE_CTRL_GO : Fld := ⟨0x50, 0, 1⟩
def Fld.BST_REP_SEL_SPARE : Fld := ⟨0x54, 10, 5⟩
def Fld.BST_REP_SEL_ELEM : Fld := ⟨0x54, 8, 2⟩
def Fld.BST_REP_SEL_CLUSTER : Fld := ⟨0x54, 0, 5⟩
def Fld.BST_REP_DATA_USED : Fld := ⟨0x58, 31, 1⟩
def Fld.BST_REP_DATA_FUSED : Fld := ⟨0x58, 30, 1⟩
def Fld.BST_REP_DATA_BAD : Fld := ⟨0x58, 29, 1⟩
def Fld.BST_REP_DATA_ROW : Fld := ⟨0x58, 0, 16⟩
def Fld.BST_CL_RES_RESULT : Fld := ⟨0x100, 30, 2⟩
def Fld.BST_CL_RES_CAUSE : Fld := ⟨0x100, 24, 4⟩
def Fld.BST_CL_RES_TEST : Fld := ⟨0x100, 16, 8⟩
def Fld.BST_CL_RES_PART : Fld := ⟨0x100, 8, 2⟩
def Fld.BST_CL_RES_REPAIRS : Fld := ⟨0x100, 0, 6⟩
def Fld.BST_CL_SIG_SIG : Fld := ⟨0x104, 0, 32⟩
def Fld.BST_CL_STEPS_COUNT : Fld := ⟨0x108, 0, 32⟩
def Fld.BST_CL_EXP_SIG_SIG : Fld := ⟨0x10c, 0, 32⟩
def Fld.BST_CL_EXP_STEPS_COUNT : Fld := ⟨0x110, 0, 32⟩
def Fld.BST_CL_DET_BITS : Fld := ⟨0x114, 0, 32⟩

-- CALG
def Fld.CAL_CFG_MAX_PAR : Fld := ⟨0x40, 16, 5⟩
def Fld.CAL_CFG_REF_SEL : Fld := ⟨0x40, 8, 1⟩
def Fld.CAL_CFG_TIP_OPEN : Fld := ⟨0x40, 1, 1⟩
def Fld.CAL_CFG_INDEX_AUTO : Fld := ⟨0x40, 0, 1⟩
def Fld.CAL_GAP_OPEN : Fld := ⟨0x44, 0, 1⟩
def Fld.CAL_DT_THRESH_CENTI_C : Fld := ⟨0x48, 0, 16⟩
def Fld.CAL_MAX_AGE_SECONDS : Fld := ⟨0x4c, 0, 32⟩
def Fld.CAL_VREFX_UV : Fld := ⟨0x50, 0, 24⟩
def Fld.CAL_REF_STAT_PRESENT : Fld := ⟨0x54, 31, 1⟩
def Fld.CAL_REF_STAT_MISMATCH : Fld := ⟨0x54, 30, 1⟩
def Fld.CAL_REF_STAT_DEV : Fld := ⟨0x54, 0, 16⟩
def Fld.CAL_DUE_MAP_CLUSTER : Fld := ⟨0x58, 0, 32⟩
def Fld.CAL_RUN_MAP_CLUSTER : Fld := ⟨0x5c, 0, 32⟩
def Fld.CAL_SLICE_CNT_COUNT : Fld := ⟨0x60, 0, 32⟩
def Fld.CAL_ABANDON_CNT_COUNT : Fld := ⟨0x64, 0, 32⟩

-- MSL
def Fld.MSL_CTRL_EN : Fld := ⟨0x40, 31, 1⟩
def Fld.MSL_CTRL_ROLE : Fld := ⟨0x40, 0, 2⟩
def Fld.MSL_STAT_ID_VALID : Fld := ⟨0x44, 31, 1⟩
def Fld.MSL_STAT_IS_ROOT : Fld := ⟨0x44, 30, 1⟩
def Fld.MSL_STAT_ENUM_FAIL : Fld := ⟨0x44, 29, 1⟩
def Fld.MSL_STAT_DEPTH : Fld := ⟨0x44, 20, 4⟩
def Fld.MSL_STAT_ID : Fld := ⟨0x44, 0, 14⟩
def Fld.MSL_SUBTREE_DEVICES : Fld := ⟨0x48, 0, 15⟩
def Fld.MSL_TIME_TIME : Fld := ⟨0x50, 0, 64⟩
def Fld.MSL_TICK_LEAD_TICKS : Fld := ⟨0x58, 0, 20⟩
def Fld.MSL_TRIG_LEAD_TICKS : Fld := ⟨0x5c, 0, 20⟩
def Fld.MSL_TICK_REQ_GO : Fld := ⟨0x60, 0, 1⟩
def Fld.MSL_INDEX_CFG_POL : Fld := ⟨0x64, 8, 1⟩
def Fld.MSL_INDEX_CFG_TICK : Fld := ⟨0x64, 1, 1⟩
def Fld.MSL_INDEX_CFG_TD : Fld := ⟨0x64, 0, 1⟩
def Fld.MSL_TD_REQ_GO : Fld := ⟨0x68, 0, 1⟩
def Fld.MSL_LAST_TICK_TIME : Fld := ⟨0x70, 0, 64⟩
def Fld.MSL_TICK_NUM_NUM : Fld := ⟨0x78, 0, 32⟩
def Fld.MSL_EVT_ROOT_UPLINK : Fld := ⟨0x7c, 3, 1⟩
def Fld.MSL_EVT_STEPPED : Fld := ⟨0x7c, 2, 1⟩
def Fld.MSL_EVT_TICK_GAP : Fld := ⟨0x7c, 1, 1⟩
def Fld.MSL_EVT_TICK_REQ_REFUSED : Fld := ⟨0x7c, 0, 1⟩
def Fld.MSL_TICK_LATE_CNT_COUNT : Fld := ⟨0x80, 0, 32⟩
def Fld.MSL_TRIG_LATE_CNT_COUNT : Fld := ⟨0x84, 0, 32⟩
def Fld.MSL_ALIGN_ERR_ERR : Fld := ⟨0x88, 0, 32⟩
def Fld.MSL_FREQ_OFS_PPB : Fld := ⟨0x8c, 0, 32⟩
def Fld.MSL_CAL_PERIOD_US : Fld := ⟨0x90, 0, 16⟩
def Fld.MSL_TRIG_RAISE_TRIG : Fld := ⟨0xa0, 0, 16⟩
def Fld.MSL_TIN_CFG_EN1 : Fld := ⟨0xa4, 12, 1⟩
def Fld.MSL_TIN_CFG_NUM1 : Fld := ⟨0xa4, 8, 4⟩
def Fld.MSL_TIN_CFG_EN0 : Fld := ⟨0xa4, 4, 1⟩
def Fld.MSL_TIN_CFG_NUM0 : Fld := ⟨0xa4, 0, 4⟩
def Fld.MSL_TOUT_CFG0_WIDTH : Fld := ⟨0xa8, 24, 8⟩
def Fld.MSL_TOUT_CFG0_SRC : Fld := ⟨0xa8, 8, 3⟩
def Fld.MSL_TOUT_CFG0_NUM : Fld := ⟨0xa8, 4, 4⟩
def Fld.MSL_TOUT_CFG0_LEVEL : Fld := ⟨0xa8, 0, 1⟩
def Fld.MSL_TOUT_CFG1_WIDTH : Fld := ⟨0xac, 24, 8⟩
def Fld.MSL_TOUT_CFG1_SRC : Fld := ⟨0xac, 8, 3⟩
def Fld.MSL_TOUT_CFG1_NUM : Fld := ⟨0xac, 4, 4⟩
def Fld.MSL_TOUT_CFG1_LEVEL : Fld := ⟨0xac, 0, 1⟩
def Fld.MSL_RANGE_TRIG_TRIG : Fld := ⟨0xb0, 0, 32⟩
def Fld.MSL_TRIG_SEEN_TRIG : Fld := ⟨0xb4, 0, 16⟩
def Fld.MSL_BAR_CFG_TICK : Fld := ⟨0xc0, 8, 8⟩
def Fld.MSL_BAR_CFG_EN : Fld := ⟨0xc0, 0, 8⟩
def Fld.MSL_BAR_ARRIVE_BAR : Fld := ⟨0xc4, 0, 8⟩
def Fld.MSL_BAR_STAT_PARTIAL : Fld := ⟨0xc8, 8, 8⟩
def Fld.MSL_BAR_STAT_WAITING : Fld := ⟨0xc8, 0, 8⟩
def Fld.MSL_PORT_CTRL_EN : Fld := ⟨0x100, 31, 1⟩
def Fld.MSL_PORT_CTRL_UNFENCE : Fld := ⟨0x100, 1, 1⟩
def Fld.MSL_PORT_CTRL_RETRAIN : Fld := ⟨0x100, 0, 1⟩
def Fld.MSL_PORT_STAT_STATE : Fld := ⟨0x104, 28, 4⟩
def Fld.MSL_PORT_STAT_CONSEC : Fld := ⟨0x104, 16, 5⟩
def Fld.MSL_PORT_DELAY_D : Fld := ⟨0x108, 0, 32⟩
def Fld.MSL_PORT_ASYM_ASYM : Fld := ⟨0x10c, 0, 16⟩
def Fld.MSL_PORT_VIOL_CNT_COUNT : Fld := ⟨0x110, 0, 32⟩
def Fld.MSL_PORT_RETRAIN_CNT_COUNT : Fld := ⟨0x114, 0, 32⟩
def Fld.MSL_PORT_VIOL_FIRST_VALID : Fld := ⟨0x118, 31, 1⟩
def Fld.MSL_PORT_VIOL_FIRST_CAUSE : Fld := ⟨0x118, 24, 4⟩
def Fld.MSL_PORT_VIOL_MSG_BITS : Fld := ⟨0x11c, 0, 32⟩
def Fld.MSL_PORT_SUBTREE_DEVICES : Fld := ⟨0x130, 0, 15⟩
def Fld.MSL_CTX_TRIG_C0 : Fld := ⟨0x800, 0, 4⟩
def Fld.MSL_CTX_TRIG_C1 : Fld := ⟨0x800, 4, 4⟩
def Fld.MSL_CTX_TRIG_C2 : Fld := ⟨0x800, 8, 4⟩
def Fld.MSL_CTX_TRIG_C3 : Fld := ⟨0x800, 12, 4⟩
def Fld.MSL_CTX_TRIG_C4 : Fld := ⟨0x800, 16, 4⟩
def Fld.MSL_CTX_TRIG_C5 : Fld := ⟨0x800, 20, 4⟩
def Fld.MSL_CTX_TRIG_C6 : Fld := ⟨0x800, 24, 4⟩
def Fld.MSL_CTX_TRIG_C7 : Fld := ⟨0x800, 28, 4⟩

-- PATG
def Fld.PAT_STORE_READY : Fld := ⟨0x40, 31, 1⟩
def Fld.PAT_STORE_STACKS : Fld := ⟨0x40, 16, 2⟩
def Fld.PAT_STORE_SIZE : Fld := ⟨0x40, 0, 10⟩
def Fld.PAT_ECC_CE_CNT_COUNT : Fld := ⟨0x44, 0, 32⟩
def Fld.PAT_ECC_UE_CNT_COUNT : Fld := ⟨0x48, 0, 32⟩
def Fld.PAT_B2_ERR_VALID : Fld := ⟨0x4c, 31, 1⟩
def Fld.PAT_B2_ERR_WRITE : Fld := ⟨0x4c, 30, 1⟩
def Fld.PAT_B2_ERR_ADDR : Fld := ⟨0x4c, 0, 30⟩
def Fld.PAT_ECC_UE_ADDR_ADDR : Fld := ⟨0x50, 0, 36⟩
def Fld.PAT_RD_BYTES_BYTES : Fld := ⟨0x58, 0, 64⟩
def Fld.PAT_WR_BYTES_BYTES : Fld := ⟨0x60, 0, 64⟩
def Fld.PAT_STR_CTRL_EN : Fld := ⟨0x100, 31, 1⟩
def Fld.PAT_STR_CTRL_CTX : Fld := ⟨0x100, 0, 10⟩
def Fld.PAT_STR_STAT_STATE : Fld := ⟨0x104, 28, 4⟩
def Fld.PAT_STR_STAT_ERR : Fld := ⟨0x104, 24, 4⟩
def Fld.PAT_STR_STAT_TAG : Fld := ⟨0x104, 0, 16⟩
def Fld.PAT_STR_RING_BASE_BASE : Fld := ⟨0x108, 4, 60⟩
def Fld.PAT_STR_RING_SIZE_LOG2 : Fld := ⟨0x110, 0, 5⟩
def Fld.PAT_STR_PROD_PROD : Fld := ⟨0x114, 0, 32⟩
def Fld.PAT_STR_CONS_CONS : Fld := ⟨0x118, 0, 32⟩
def Fld.PAT_STR_SLOTS_N : Fld := ⟨0x11c, 0, 24⟩
def Fld.PAT_STR_GLO_GLO : Fld := ⟨0x120, 0, 40⟩
def Fld.PAT_STR_PRODUCED_P : Fld := ⟨0x128, 0, 64⟩
def Fld.PAT_STR_FETCHED_F : Fld := ⟨0x130, 0, 64⟩
def Fld.PAT_STR_STARTED_K : Fld := ⟨0x138, 0, 64⟩

-- RES
def Fld.RES_WB_BASE_BASE : Fld := ⟨0x40, 2, 62⟩
def Fld.RES_WB_CTRL_EN : Fld := ⟨0x48, 0, 1⟩
def Fld.RES_COAL_TIME_US : Fld := ⟨0x4c, 0, 16⟩
def Fld.RES_BP_CFG_LOW : Fld := ⟨0x50, 16, 16⟩
def Fld.RES_BP_CFG_HIGH : Fld := ⟨0x50, 0, 16⟩
def Fld.RES_DISCARD_CNT_COUNT : Fld := ⟨0x54, 0, 32⟩
def Fld.RES_BP_HOLD_CNT_COUNT : Fld := ⟨0x58, 0, 32⟩
def Fld.RES_BUF_MAX_RECORDS : Fld := ⟨0x5c, 0, 14⟩
def Fld.RES_REC_CNT_COUNT : Fld := ⟨0x60, 0, 64⟩
def Fld.RES_RING_IRQ0_RING : Fld := ⟨0x68, 0, 32⟩
def Fld.RES_RING_IRQ1_RING : Fld := ⟨0x6c, 0, 32⟩
def Fld.RES_CL_ANNOT_EN0 : Fld := ⟨0xc0, 7, 1⟩
def Fld.RES_CL_ANNOT_EN1 : Fld := ⟨0xc0, 15, 1⟩
def Fld.RES_CL_ANNOT_EN2 : Fld := ⟨0xc0, 23, 1⟩
def Fld.RES_CL_ANNOT_EN3 : Fld := ⟨0xc0, 31, 1⟩
def Fld.RES_CL_ANNOT_RING0 : Fld := ⟨0xc0, 0, 6⟩
def Fld.RES_CL_ANNOT_RING1 : Fld := ⟨0xc0, 8, 6⟩
def Fld.RES_CL_ANNOT_RING2 : Fld := ⟨0xc0, 16, 6⟩
def Fld.RES_CL_ANNOT_RING3 : Fld := ⟨0xc0, 24, 6⟩
def Fld.RES_RING_BASE_BASE : Fld := ⟨0x100, 5, 59⟩
def Fld.RES_RING_CFG_COAL : Fld := ⟨0x108, 24, 8⟩
def Fld.RES_RING_CFG_IRQ_EN : Fld := ⟨0x108, 12, 1⟩
def Fld.RES_RING_CFG_LANE : Fld := ⟨0x108, 9, 1⟩
def Fld.RES_RING_CFG_EN : Fld := ⟨0x108, 8, 1⟩
def Fld.RES_RING_CFG_LOG2 : Fld := ⟨0x108, 0, 5⟩
def Fld.RES_RING_CONS_CONS : Fld := ⟨0x10c, 0, 32⟩
def Fld.RES_RING_PROD_PROD : Fld := ⟨0x110, 0, 32⟩
def Fld.RES_RING_STAT_FULL : Fld := ⟨0x114, 1, 1⟩
def Fld.RES_RING_STAT_BAD_CONS : Fld := ⟨0x114, 0, 1⟩
def Fld.RES_RING_CNT_COUNT : Fld := ⟨0x118, 0, 32⟩
def Fld.RES_MB_CFG_EN : Fld := ⟨0x900, 31, 1⟩
def Fld.RES_MB_CFG_IRQ_EN : Fld := ⟨0x900, 30, 1⟩
def Fld.RES_MB_CFG_CTX : Fld := ⟨0x900, 0, 10⟩
def Fld.RES_MB_STAT_LEVEL : Fld := ⟨0x904, 16, 7⟩
def Fld.RES_MB_POP_VALID : Fld := ⟨0x90c, 31, 1⟩
def Fld.RES_MB_POP_LEVEL : Fld := ⟨0x90c, 16, 7⟩
def Fld.RES_MB_POP_SEQ : Fld := ⟨0x908, 0, 32⟩
def Fld.RES_MB_POPPED_COUNT : Fld := ⟨0x918, 0, 32⟩
def Fld.RES_MB_REC_DATA : Fld := ⟨0x920, 0, 32⟩
def Fld.RES_MB_HEAD_DATA : Fld := ⟨0x940, 0, 32⟩
def Fld.RES_ROUTE_EN0 : Fld := ⟨0xc00, 7, 1⟩
def Fld.RES_ROUTE_EN1 : Fld := ⟨0xc00, 15, 1⟩
def Fld.RES_ROUTE_EN2 : Fld := ⟨0xc00, 23, 1⟩
def Fld.RES_ROUTE_EN3 : Fld := ⟨0xc00, 31, 1⟩
def Fld.RES_ROUTE_RING0 : Fld := ⟨0xc00, 0, 6⟩
def Fld.RES_ROUTE_RING1 : Fld := ⟨0xc00, 8, 6⟩
def Fld.RES_ROUTE_RING2 : Fld := ⟨0xc00, 16, 6⟩
def Fld.RES_ROUTE_RING3 : Fld := ⟨0xc00, 24, 6⟩

-- RAS
def Fld.RAS_CTRL_EN : Fld := ⟨0x40, 31, 1⟩
def Fld.RAS_CTRL_GROUP : Fld := ⟨0x40, 0, 2⟩
def Fld.RAS_STAT_CAUSE : Fld := ⟨0x44, 0, 4⟩
def Fld.RAS_FRAME_CNT_COUNT : Fld := ⟨0x48, 0, 32⟩
def Fld.RAS_LOST_CNT_COUNT : Fld := ⟨0x4c, 0, 32⟩
def Fld.RAS_FLIP_TIME_TIME : Fld := ⟨0x50, 0, 64⟩
def Fld.RAS_MODE_APPLY_GO : Fld := ⟨0x58, 0, 1⟩
def Fld.RAS_FLIP_LAYERS : Fld := ⟨0x5c, 0, 2⟩
def Fld.RAS_FRAME_POP_VALID : Fld := ⟨0x64, 31, 1⟩
def Fld.RAS_FRAME_POP_FLAGS : Fld := ⟨0x64, 27, 4⟩
def Fld.RAS_FRAME_POP_MISMATCH : Fld := ⟨0x64, 0, 16⟩
def Fld.RAS_FRAME_POP_FRAME : Fld := ⟨0x60, 0, 32⟩
def Fld.RAS_REL_POP_VALID : Fld := ⟨0x6c, 31, 1⟩
def Fld.RAS_REL_POP_SKIPPED : Fld := ⟨0x6c, 30, 1⟩
def Fld.RAS_REL_POP_LAYER : Fld := ⟨0x6c, 29, 1⟩
def Fld.RAS_REL_POP_TAG : Fld := ⟨0x6c, 0, 16⟩
def Fld.RAS_REL_POP_FRAME : Fld := ⟨0x68, 0, 32⟩
def Fld.RAS_T_CLK_SRC : Fld := ⟨0x80, 31, 1⟩
def Fld.RAS_T_CLK_MUL : Fld := ⟨0x80, 16, 10⟩
def Fld.RAS_T_CLK_DIV : Fld := ⟨0x80, 0, 10⟩
def Fld.RAS_T_FMT_PPC : Fld := ⟨0x84, 8, 2⟩
def Fld.RAS_T_FMT_DEPTH : Fld := ⟨0x84, 4, 2⟩
def Fld.RAS_T_FMT_OUT : Fld := ⟨0x84, 0, 2⟩
def Fld.RAS_T_HACT_TOTAL : Fld := ⟨0x88, 16, 14⟩
def Fld.RAS_T_HACT_ACTIVE : Fld := ⟨0x88, 0, 14⟩
def Fld.RAS_T_VACT_TOTAL : Fld := ⟨0x90, 16, 14⟩
def Fld.RAS_T_VACT_ACTIVE : Fld := ⟨0x90, 0, 14⟩
def Fld.RAS_T_HSYNC_WIDTH : Fld := ⟨0x8c, 16, 14⟩
def Fld.RAS_T_HSYNC_START : Fld := ⟨0x8c, 0, 14⟩
def Fld.RAS_T_VSYNC_WIDTH : Fld := ⟨0x94, 16, 14⟩
def Fld.RAS_T_VSYNC_START : Fld := ⟨0x94, 0, 14⟩
def Fld.RAS_BG0_CB : Fld := ⟨0x98, 16, 16⟩
def Fld.RAS_BG0_Y : Fld := ⟨0x98, 0, 16⟩
def Fld.RAS_BG1_CR : Fld := ⟨0x9c, 0, 16⟩
def Fld.RAS_LANE_WS : Fld := ⟨0x800, 16, 4⟩
def Fld.RAS_LANE_PIX : Fld := ⟨0x800, 12, 3⟩
def Fld.RAS_LANE_BIT : Fld := ⟨0x800, 8, 4⟩
def Fld.RAS_LANE_COMP : Fld := ⟨0x800, 4, 2⟩
def Fld.RAS_LANE_ROLE : Fld := ⟨0x800, 0, 3⟩
def Fld.RAS_L_CFG_EN : Fld := ⟨0x100, 31, 1⟩
def Fld.RAS_L_CFG_FMT : Fld := ⟨0x100, 8, 3⟩
def Fld.RAS_L_CFG_DEPTH : Fld := ⟨0x100, 4, 2⟩
def Fld.RAS_L_POS_Y0 : Fld := ⟨0x104, 16, 14⟩
def Fld.RAS_L_POS_X0 : Fld := ⟨0x104, 0, 14⟩
def Fld.RAS_L_SIZE_H : Fld := ⟨0x108, 16, 14⟩
def Fld.RAS_L_SIZE_W : Fld := ⟨0x108, 0, 14⟩
def Fld.RAS_L_MISC_TAG : Fld := ⟨0x10c, 16, 16⟩
def Fld.RAS_L_MISC_ALPHA : Fld := ⟨0x10c, 0, 9⟩
def Fld.RAS_L_BASE_ADDR : Fld := ⟨0x110, 6, 30⟩
def Fld.RAS_L_STRIDE_CSTRIDE : Fld := ⟨0x128, 16, 16⟩
def Fld.RAS_L_STRIDE_YSTRIDE : Fld := ⟨0x128, 0, 16⟩
def Fld.RAS_L_FRONT_PENDING : Fld := ⟨0x140, 16, 1⟩
def Fld.RAS_L_FRONT_TAG : Fld := ⟨0x140, 0, 16⟩
def Fld.RAS_R_POS_EN : Fld := ⟨0x200, 31, 1⟩
def Fld.RAS_R_POS_Y0 : Fld := ⟨0x200, 16, 14⟩
def Fld.RAS_R_POS_X0 : Fld := ⟨0x200, 0, 14⟩
def Fld.RAS_R_SIZE_H : Fld := ⟨0x204, 16, 14⟩
def Fld.RAS_R_SIZE_W : Fld := ⟨0x204, 0, 14⟩
def Fld.RAS_R_EXP_CRC : Fld := ⟨0x208, 0, 32⟩
def Fld.RAS_R_CRC_CRC : Fld := ⟨0x20c, 0, 32⟩
def Fld.RAS_A_T_CLK_SRC : Fld := ⟨0xc0, 31, 1⟩
def Fld.RAS_A_T_CLK_MUL : Fld := ⟨0xc0, 16, 10⟩
def Fld.RAS_A_T_CLK_DIV : Fld := ⟨0xc0, 0, 10⟩
def Fld.RAS_A_T_FMT_PPC : Fld := ⟨0xc4, 8, 2⟩
def Fld.RAS_A_T_FMT_DEPTH : Fld := ⟨0xc4, 4, 2⟩
def Fld.RAS_A_T_FMT_OUT : Fld := ⟨0xc4, 0, 2⟩
def Fld.RAS_A_T_HACT_TOTAL : Fld := ⟨0xc8, 16, 14⟩
def Fld.RAS_A_T_HACT_ACTIVE : Fld := ⟨0xc8, 0, 14⟩
def Fld.RAS_A_T_VACT_TOTAL : Fld := ⟨0xd0, 16, 14⟩
def Fld.RAS_A_T_VACT_ACTIVE : Fld := ⟨0xd0, 0, 14⟩
def Fld.RAS_A_T_HSYNC_WIDTH : Fld := ⟨0xcc, 16, 14⟩
def Fld.RAS_A_T_HSYNC_START : Fld := ⟨0xcc, 0, 14⟩
def Fld.RAS_A_T_VSYNC_WIDTH : Fld := ⟨0xd4, 16, 14⟩
def Fld.RAS_A_T_VSYNC_START : Fld := ⟨0xd4, 0, 14⟩
def Fld.RAS_A_BG0_CB : Fld := ⟨0xd8, 16, 16⟩
def Fld.RAS_A_BG0_Y : Fld := ⟨0xd8, 0, 16⟩
def Fld.RAS_A_BG1_CR : Fld := ⟨0xdc, 0, 16⟩

-- MSP
def Fld.MSP_CFG_MASTER : Fld := ⟨0x40, 31, 1⟩
def Fld.MSP_CFG_TIMEOUT : Fld := ⟨0x40, 16, 8⟩
def Fld.MSP_CFG_MODE : Fld := ⟨0x40, 8, 2⟩
def Fld.MSP_CFG_DIV : Fld := ⟨0x40, 0, 8⟩
def Fld.MSP_STAT_M_ABORT : Fld := ⟨0x44, 2, 1⟩
def Fld.MSP_STAT_GO_REFUSED : Fld := ⟨0x44, 1, 1⟩
def Fld.MSP_FRAME_ERR_COUNT : Fld := ⟨0x48, 0, 32⟩
def Fld.MSP_VIOL_CNT_COUNT : Fld := ⟨0x4c, 0, 32⟩
def Fld.MSP_VIOL_FIRST_VALID : Fld := ⟨0x50, 31, 1⟩
def Fld.MSP_VIOL_FIRST_CAUSE : Fld := ⟨0x50, 24, 4⟩
def Fld.MSP_VIOL_CMD_WORD : Fld := ⟨0x54, 0, 32⟩
def Fld.MSP_ACC_ERR_CNT_COUNT : Fld := ⟨0x58, 0, 32⟩
def Fld.MSP_FRAME_CNT_COUNT : Fld := ⟨0x5c, 0, 32⟩
def Fld.MSP_M_CTRL_GO : Fld := ⟨0x60, 31, 1⟩
def Fld.MSP_M_CTRL_BUSY : Fld := ⟨0x60, 30, 1⟩
def Fld.MSP_M_CTRL_BITS : Fld := ⟨0x60, 16, 6⟩
def Fld.MSP_M_CTRL_HOLD : Fld := ⟨0x60, 12, 1⟩
def Fld.MSP_M_CTRL_CS : Fld := ⟨0x60, 8, 2⟩
def Fld.MSP_M_TX_DATA : Fld := ⟨0x64, 0, 32⟩
def Fld.MSP_M_RX_DATA : Fld := ⟨0x68, 0, 32⟩

-- LCS
def Fld.LCS_STATE_BASE : Fld := ⟨0x40, 4, 4⟩
def Fld.LCS_STATE_STATE : Fld := ⟨0x40, 0, 4⟩
def Fld.LCS_CTRL_KEY : Fld := ⟨0x44, 24, 8⟩
def Fld.LCS_CTRL_TARGET : Fld := ⟨0x44, 8, 4⟩
def Fld.LCS_CTRL_CMD : Fld := ⟨0x44, 0, 4⟩
def Fld.LCS_STAT_CHAL_VALID : Fld := ⟨0x48, 31, 1⟩
def Fld.LCS_STAT_LOCKOUT : Fld := ⟨0x48, 30, 1⟩
def Fld.LCS_STAT_BUSY : Fld := ⟨0x48, 29, 1⟩
def Fld.LCS_STAT_LAST : Fld := ⟨0x48, 24, 4⟩
def Fld.LCS_STAT_FAILS : Fld := ⟨0x48, 0, 8⟩
def Fld.LCS_CHAL_NONCE : Fld := ⟨0x60, 0, 32⟩
def Fld.LCS_RESP_MAC : Fld := ⟨0x80, 0, 32⟩
def Fld.LCS_UNLOCK_CNT_COUNT : Fld := ⟨0xa0, 0, 32⟩

-- PMCG
def Fld.PMC_DUMP_CTRL_EN : Fld := ⟨0x40, 31, 1⟩
def Fld.PMC_DUMP_CTRL_K : Fld := ⟨0x40, 16, 5⟩
def Fld.PMC_DUMP_CTRL_LOG2 : Fld := ⟨0x40, 0, 4⟩
def Fld.PMC_DUMP_BASE_BASE : Fld := ⟨0x48, 12, 52⟩
def Fld.PMC_DUMP_WB_ADDR : Fld := ⟨0x50, 2, 62⟩
def Fld.PMC_DUMP_PROD_PROD : Fld := ⟨0x58, 0, 32⟩
def Fld.PMC_DUMP_CONS_CONS : Fld := ⟨0x5c, 0, 32⟩
def Fld.PMC_DUMP_SKIP_COUNT : Fld := ⟨0x60, 0, 32⟩

-- DPS
def Fld.DPS_CTRL_SENSE : Fld := ⟨0x40, 8, 1⟩
def Fld.DPS_CTRL_IRANGE : Fld := ⟨0x40, 4, 2⟩
def Fld.DPS_CTRL_OUT : Fld := ⟨0x40, 0, 1⟩
def Fld.DPS_FORCE_CODE : Fld := ⟨0x44, 0, 20⟩
def Fld.DPS_ILIM_CODE : Fld := ⟨0x48, 0, 20⟩
def Fld.DPS_SLEW_STEP_STEP : Fld := ⟨0x4c, 0, 20⟩
def Fld.DPS_SLEW_RATE_PERIOD : Fld := ⟨0x50, 0, 16⟩
def Fld.DPS_FORCE_NOW_CODE : Fld := ⟨0x54, 0, 20⟩
def Fld.DPS_STAT_ORPHAN : Fld := ⟨0x58, 6, 1⟩
def Fld.DPS_STAT_GANG_REJ : Fld := ⟨0x58, 5, 1⟩
def Fld.DPS_STAT_TRIPPED : Fld := ⟨0x58, 4, 1⟩
def Fld.DPS_STAT_UV : Fld := ⟨0x58, 3, 1⟩
def Fld.DPS_STAT_LIMITING : Fld := ⟨0x58, 2, 1⟩
def Fld.DPS_STAT_LOCAL : Fld := ⟨0x58, 1, 1⟩
def Fld.DPS_STAT_CODE_SAT : Fld := ⟨0x58, 0, 1⟩
def Fld.DPS_CFG_GUARD_EN : Fld := ⟨0x5c, 17, 1⟩
def Fld.DPS_CFG_OWN_EN : Fld := ⟨0x5c, 16, 1⟩
def Fld.DPS_CFG_OWNER : Fld := ⟨0x5c, 0, 10⟩
def Fld.DPS_GANG_EN : Fld := ⟨0x60, 8, 1⟩
def Fld.DPS_GANG_LEADER : Fld := ⟨0x60, 0, 3⟩
def Fld.DPS_UV_CODE : Fld := ⟨0x64, 0, 20⟩
def Fld.DPS_OV_CODE : Fld := ⟨0x68, 0, 20⟩
def Fld.DPS_TRIP_TIME : Fld := ⟨0x6c, 0, 16⟩
def Fld.DPS_MEAS_CFG_NAP_RUN : Fld := ⟨0x70, 11, 1⟩
def Fld.DPS_MEAS_CFG_AVG : Fld := ⟨0x70, 4, 3⟩
def Fld.DPS_MEAS_CFG_MODE : Fld := ⟨0x70, 0, 2⟩
def Fld.DPS_MEAS_PERIOD_PERIOD : Fld := ⟨0x74, 0, 20⟩
def Fld.DPS_MEAS_DELAY_DELAY : Fld := ⟨0x78, 0, 32⟩
def Fld.DPS_MEAS_COUNT_COUNT : Fld := ⟨0x7c, 0, 16⟩
def Fld.DPS_MEAS_GO_GO : Fld := ⟨0x80, 0, 1⟩
def Fld.DPS_V_LAST_SAMPLE : Fld := ⟨0x84, 0, 32⟩
def Fld.DPS_I_LAST_SAMPLE : Fld := ⟨0x88, 0, 32⟩
def Fld.DPS_I_GROUP_SAMPLE : Fld := ⟨0x8c, 0, 32⟩
def Fld.DPS_GUARD_PINS : Fld := ⟨0x90, 0, 32⟩

-- SEQ
def Fld.SEQ_BLANK_CFG_SRC : Fld := ⟨0xe00, 4, 3⟩
def Fld.SEQ_BLANK_CFG_MODE : Fld := ⟨0xe00, 0, 2⟩
def Fld.SEQ_BLANK_START_START : Fld := ⟨0xe04, 0, 20⟩
def Fld.SEQ_BLANK_WIDTH_WIDTH : Fld := ⟨0xe08, 0, 20⟩
def Fld.SEQ_CTRL_GUARD : Fld := ⟨0x40, 0, 4⟩
def Fld.SEQ_STAT_CTX : Fld := ⟨0x44, 16, 5⟩
def Fld.SEQ_STAT_ACTIVE : Fld := ⟨0x44, 15, 1⟩
def Fld.SEQ_STAT_CLASS : Fld := ⟨0x44, 12, 3⟩
def Fld.SEQ_STAT_SLOT : Fld := ⟨0x44, 6, 6⟩
def Fld.SEQ_STAT_QUEUED : Fld := ⟨0x44, 0, 6⟩
def Fld.SEQ_UERR_VALID : Fld := ⟨0x48, 31, 1⟩
def Fld.SEQ_UERR_CODE : Fld := ⟨0x48, 23, 8⟩
def Fld.SEQ_UERR_CTX : Fld := ⟨0x48, 15, 5⟩
def Fld.SEQ_UERR_UADDR : Fld := ⟨0x48, 0, 15⟩
def Fld.SEQ_CTX_EVT_END : Fld := ⟨0x4c, 0, 32⟩
def Fld.SEQ_DBG_SEL_HALF : Fld := ⟨0x50, 12, 1⟩
def Fld.SEQ_DBG_SEL_FRAME : Fld := ⟨0x50, 8, 4⟩
def Fld.SEQ_DBG_SEL_CTX : Fld := ⟨0x50, 0, 5⟩
def Fld.SEQ_DBG_FRAME_KIND : Fld := ⟨0x54, 28, 2⟩
def Fld.SEQ_DBG_FRAME_VALUE : Fld := ⟨0x54, 0, 20⟩
def Fld.SEQ_ABANDON_CNT_COUNT : Fld := ⟨0x58, 0, 32⟩
def Fld.SEQ_TAIL_MAX_CYCLES : Fld := ⟨0x5c, 0, 10⟩

-- UCS
def Fld.UCS_PATCH_CTRL_BCAST_EN : Fld := ⟨0x40, 1, 1⟩
def Fld.UCS_PATCH_CTRL_LOCK : Fld := ⟨0x40, 0, 1⟩
def Fld.UCS_PATCH_STAT_REJECTED : Fld := ⟨0x44, 2, 1⟩
def Fld.UCS_PATCH_STAT_LOCKED : Fld := ⟨0x44, 1, 1⟩
def Fld.UCS_PATCH_STAT_LOCK_PEND : Fld := ⟨0x44, 0, 1⟩
def Fld.UCS_PRAM_IDX_WORD : Fld := ⟨0x48, 0, 10⟩
def Fld.UCS_PRAM_DATA_PERR : Fld := ⟨0x4c, 31, 1⟩
def Fld.UCS_PRAM_DATA_DATA : Fld := ⟨0x4c, 0, 20⟩
def Fld.UCS_CRC_CRC : Fld := ⟨0x50, 0, 32⟩
def Fld.UCS_ROM_ID_VERSION : Fld := ⟨0x54, 0, 16⟩
def Fld.UCS_MATCH_EN : Fld := ⟨0x100, 31, 1⟩
def Fld.UCS_MATCH_PADDR : Fld := ⟨0x100, 20, 10⟩
def Fld.UCS_MATCH_RADDR : Fld := ⟨0x100, 0, 14⟩

-- PATC
def Fld.PAT_CC_STAT_LINES : Fld := ⟨0x40, 0, 16⟩
def Fld.PAT_UNDERRUN_CNT_COUNT : Fld := ⟨0x44, 0, 32⟩
def Fld.PAT_HOLD_CNT_COUNT : Fld := ⟨0x48, 0, 32⟩
def Fld.PAT_HEAD_DEPTH : Fld := ⟨0x4c, 0, 3⟩
def Fld.PAT_FILL_BYTES_BYTES : Fld := ⟨0x50, 0, 64⟩
def Fld.PAT_QUOTA_EFF : Fld := ⟨0x100, 16, 10⟩
def Fld.PAT_QUOTA_QUOTA : Fld := ⟨0x100, 0, 10⟩
def Fld.PAT_CTX_RES_WINDOW : Fld := ⟨0x180, 31, 1⟩
def Fld.PAT_CTX_RES_RECORDS : Fld := ⟨0x180, 0, 16⟩

-- ACQ
def Fld.ACQ_REC_CNT_COUNT : Fld := ⟨0x40, 0, 64⟩
def Fld.ACQ_LOST_CNT_COUNT : Fld := ⟨0x48, 0, 64⟩
def Fld.ACQ_IN_CNT_COUNT : Fld := ⟨0x50, 0, 64⟩
def Fld.ACQ_DROP_CNT_COUNT : Fld := ⟨0x58, 0, 32⟩
def Fld.ACQ_ERR_MAP_CTX : Fld := ⟨0x5c, 0, 32⟩
def Fld.ACQ_STOP_MAP_CTX : Fld := ⟨0x60, 0, 32⟩
def Fld.ACQ_PTRIG_CNT_COUNT : Fld := ⟨0x64, 0, 32⟩
def Fld.ACQ_C_SLOT_STAT_STATE : Fld := ⟨0x400, 0, 32⟩
def Fld.ACQ_C_POOL_UNITS : Fld := ⟨0x404, 0, 9⟩
def Fld.ACQ_C_DESC0_DESC : Fld := ⟨0x408, 0, 32⟩
def Fld.ACQ_C_DESC1_DESC : Fld := ⟨0x40c, 0, 32⟩
def Fld.ACQ_C_TRIG_V_VECTOR : Fld := ⟨0x410, 0, 64⟩
def Fld.ACQ_C_REC_COUNT : Fld := ⟨0x418, 0, 32⟩
def Fld.ACQ_C_LOST_COUNT : Fld := ⟨0x41c, 0, 32⟩

-- TDC
def Fld.TDC_DONE_MAP_CH : Fld := ⟨0x40, 0, 32⟩
def Fld.TDC_LOST_MAP_CH : Fld := ⟨0x44, 0, 32⟩
def Fld.TDC_FLT_MAP_CH : Fld := ⟨0x48, 0, 32⟩
def Fld.TDC_CD_HITS_HITS : Fld := ⟨0x4c, 0, 32⟩
def Fld.TDC_RND_RATE_KHZ : Fld := ⟨0x50, 0, 20⟩
def Fld.TDC_STAMP_CNT_COUNT : Fld := ⟨0x58, 0, 64⟩
def Fld.TDC_HIST_SEL_BIN : Fld := ⟨0x60, 16, 9⟩
def Fld.TDC_HIST_SEL_INTERP : Fld := ⟨0x60, 8, 1⟩
def Fld.TDC_HIST_SEL_CH : Fld := ⟨0x60, 0, 5⟩
def Fld.TDC_HIST_DATA_VALID : Fld := ⟨0x64, 31, 1⟩
def Fld.TDC_HIST_DATA_HITS : Fld := ⟨0x64, 0, 20⟩

-- WFG
def Fld.WFG_STB_CFG_MSL_SEL : Fld := ⟨0xf00, 8, 4⟩
def Fld.WFG_STB_CFG_MSL_EN : Fld := ⟨0xf00, 4, 1⟩
def Fld.WFG_STB_CFG_TRIG1_EN : Fld := ⟨0xf00, 3, 1⟩
def Fld.WFG_STB_CFG_TRIG0_EN : Fld := ⟨0xf00, 2, 1⟩
def Fld.WFG_STB_CFG_HOST_EN : Fld := ⟨0xf00, 1, 1⟩
def Fld.WFG_STB_CFG_SEQ_EN : Fld := ⟨0xf00, 0, 1⟩
def Fld.WFG_STB_FIRE_GO : Fld := ⟨0xf04, 0, 1⟩
def Fld.WFG_STB_CNT_COUNT : Fld := ⟨0xf08, 0, 32⟩
def Fld.WFG_STB_SRC_SRC : Fld := ⟨0xf0c, 0, 5⟩
def Fld.WFG_STB_TIME_TIME : Fld := ⟨0xf10, 0, 64⟩
def Fld.WFG_PMU_EVT_CH : Fld := ⟨0xf18, 0, 32⟩
def Fld.WFG_PMU_EVT_EN_CH : Fld := ⟨0xf1c, 0, 32⟩
def Fld.WFG_PMU_FLT_CH : Fld := ⟨0xf20, 0, 32⟩
def Fld.WFG_CTRL_OWN_EN : Fld := ⟨0x100, 31, 1⟩
def Fld.WFG_CTRL_MSL_SEL : Fld := ⟨0x100, 26, 4⟩
def Fld.WFG_CTRL_OWNER : Fld := ⟨0x100, 16, 10⟩
def Fld.WFG_CTRL_DITHER : Fld := ⟨0x100, 12, 2⟩
def Fld.WFG_CTRL_MSL_JUMP : Fld := ⟨0x100, 10, 1⟩
def Fld.WFG_CTRL_TRIG1_JUMP : Fld := ⟨0x100, 9, 1⟩
def Fld.WFG_CTRL_TRIG0_JUMP : Fld := ⟨0x100, 8, 1⟩
def Fld.WFG_CTRL_STB_ACT : Fld := ⟨0x100, 6, 2⟩
def Fld.WFG_CTRL_OWNER_START : Fld := ⟨0x100, 5, 1⟩
def Fld.WFG_CTRL_FIRST : Fld := ⟨0x100, 0, 4⟩
def Fld.WFG_START_GO : Fld := ⟨0x104, 0, 1⟩
def Fld.WFG_STOP_GO : Fld := ⟨0x108, 0, 1⟩
def Fld.WFG_JUMP_GO : Fld := ⟨0x10c, 31, 1⟩
def Fld.WFG_JUMP_TARGET : Fld := ⟨0x10c, 0, 4⟩
def Fld.WFG_STAT_STATE : Fld := ⟨0x110, 28, 4⟩
def Fld.WFG_STAT_CAUSE : Fld := ⟨0x110, 24, 4⟩
def Fld.WFG_STAT_ENTRY : Fld := ⟨0x110, 16, 4⟩
def Fld.WFG_STAT_JUMP_PEND : Fld := ⟨0x110, 15, 1⟩
def Fld.WFG_STAT_OWN_REFUSED : Fld := ⟨0x110, 3, 1⟩
def Fld.WFG_STAT_ROUTE_CONFLICT : Fld := ⟨0x110, 2, 1⟩
def Fld.WFG_STAT_FTW_SAT : Fld := ⟨0x110, 1, 1⟩
def Fld.WFG_STAT_SAT : Fld := ⟨0x110, 0, 1⟩
def Fld.WFG_HOLD_SAMPLE : Fld := ⟨0x114, 0, 20⟩
def Fld.WFG_ROUTE_CH : Fld := ⟨0x118, 0, 32⟩
def Fld.WFG_POS_GRAN : Fld := ⟨0x11c, 0, 20⟩
def Fld.WFG_DISP_D : Fld := ⟨0x120, 0, 64⟩
def Fld.WFG_START_TIME_TIME : Fld := ⟨0x128, 0, 64⟩
def Fld.WFG_SEG_CNT_COUNT : Fld := ⟨0x130, 0, 32⟩
def Fld.WFG_E_FTW_FTW : Fld := ⟨0x400, 0, 48⟩
def Fld.WFG_E_PHASE_PHASE : Fld := ⟨0x408, 0, 16⟩
def Fld.WFG_E_AMP_AMP : Fld := ⟨0x40c, 0, 19⟩
def Fld.WFG_E_OFFSET_OFFSET : Fld := ⟨0x410, 0, 20⟩
def Fld.WFG_E_LEN_LEN : Fld := ⟨0x414, 0, 20⟩
def Fld.WFG_E_NEXT_STOP : Fld := ⟨0x418, 31, 1⟩
def Fld.WFG_E_NEXT_NEXT : Fld := ⟨0x418, 0, 4⟩

-- CALC
def Fld.CAL_CL_CTRL_VIEW : Fld := ⟨0x40, 16, 1⟩
def Fld.CAL_CL_CTRL_AUTO : Fld := ⟨0x40, 9, 7⟩
def Fld.CAL_CL_CTRL_ACT_AT : Fld := ⟨0x40, 0, 3⟩
def Fld.CAL_CL_REQ_KIND : Fld := ⟨0x44, 1, 7⟩
def Fld.CAL_CL_DUE_TSENS_BAD : Fld := ⟨0x48, 16, 1⟩
def Fld.CAL_CL_DUE_DUE : Fld := ⟨0x48, 1, 7⟩
def Fld.CAL_CL_PEND_PREPARED : Fld := ⟨0x4c, 8, 1⟩
def Fld.CAL_CL_PEND_PEND : Fld := ⟨0x4c, 1, 7⟩
def Fld.CAL_CL_STAT_RESULT : Fld := ⟨0x50, 28, 4⟩
def Fld.CAL_CL_STAT_CAUSE : Fld := ⟨0x50, 24, 4⟩
def Fld.CAL_CL_STAT_LAST : Fld := ⟨0x50, 16, 4⟩
def Fld.CAL_CL_STAT_RUNNING : Fld := ⟨0x50, 0, 4⟩
def Fld.CAL_CL_SKIP_CH : Fld := ⟨0x54, 0, 32⟩
def Fld.CAL_CL_ACT_TIME_TIME : Fld := ⟨0x58, 0, 64⟩
def Fld.CAL_CL_ACT_CNT_COUNT : Fld := ⟨0x60, 0, 32⟩
def Fld.CAL_CL_CRC_CRC : Fld := ⟨0x64, 0, 32⟩
def Fld.CAL_K_TEMP_CENTI_C : Fld := ⟨0x100, 0, 16⟩
def Fld.CAL_K_AGE_SECONDS : Fld := ⟨0x104, 0, 32⟩
def Fld.CAL_K_RUNS_COUNT : Fld := ⟨0x108, 0, 32⟩

-- PMCC
def Fld.PMC_CTRL_EN : Fld := ⟨0x40, 31, 1⟩
def Fld.PMC_CTRL_PERIOD : Fld := ⟨0x40, 0, 20⟩
def Fld.PMC_RETIRED_COUNT : Fld := ⟨0x48, 0, 64⟩
def Fld.PMC_WASTED_COUNT : Fld := ⟨0x50, 0, 64⟩
def Fld.PMC_FRONT_COUNT : Fld := ⟨0x58, 0, 64⟩
def Fld.PMC_BACK_COUNT : Fld := ⟨0x60, 0, 64⟩
def Fld.PMC_IDLE_COUNT : Fld := ⟨0x68, 0, 64⟩
def Fld.PMC_OPS_COUNT : Fld := ⟨0x70, 0, 64⟩
def Fld.PMC_SMP_STAT_LOST : Fld := ⟨0x78, 16, 16⟩
def Fld.PMC_SMP_STAT_LEVEL : Fld := ⟨0x78, 0, 7⟩
def Fld.PMC_SMP_CLR_GO : Fld := ⟨0x7c, 0, 1⟩
def Fld.PMC_SMP_ENTRY_ENTRY : Fld := ⟨0x400, 0, 64⟩

-- CTX
def Fld.CTX_STATE_CAUSE : Fld := ⟨0, 24, 8⟩
def Fld.CTX_STATE_CALGAP : Fld := ⟨0, 16, 1⟩
def Fld.CTX_STATE_ARM_SLOT : Fld := ⟨0, 8, 8⟩
def Fld.CTX_STATE_STATE : Fld := ⟨0, 0, 4⟩
def Fld.CTX_CFG_ARM_LEVELS : Fld := ⟨4, 1, 1⟩
def Fld.CTX_CFG_POLICY : Fld := ⟨4, 0, 1⟩
def Fld.CTX_IMAGE_ADDR : Fld := ⟨8, 6, 30⟩
def Fld.CTX_LOAD_GO : Fld := ⟨0x10, 0, 1⟩
def Fld.CTX_ARM_GO : Fld := ⟨0x14, 0, 1⟩
def Fld.CTX_START_GO : Fld := ⟨0x18, 0, 1⟩
def Fld.CTX_STOP_GO : Fld := ⟨0x1c, 0, 1⟩
def Fld.CTX_REDIRECT_KEEP : Fld := ⟨0x20, 31, 1⟩
def Fld.CTX_REDIRECT_TARGET : Fld := ⟨0x20, 0, 20⟩
def Fld.CTX_CLEAR_UNLOAD : Fld := ⟨0x24, 1, 1⟩
def Fld.CTX_CLEAR_GO : Fld := ⟨0x24, 0, 1⟩
def Fld.CTX_MAILBOX_DATA : Fld := ⟨0x28, 0, 20⟩
def Fld.CTX_VIDX_INDEX : Fld := ⟨0x30, 0, 64⟩
def Fld.CTX_HOLDS_COUNT : Fld := ⟨0x38, 0, 32⟩
def Fld.CTX_OPIDX_OP : Fld := ⟨0x3c, 0, 20⟩
def Fld.CTX_SITE_V3 : Fld := ⟨0x40, 31, 1⟩
def Fld.CTX_SITE_CH3 : Fld := ⟨0x40, 24, 7⟩
def Fld.CTX_SITE_V2 : Fld := ⟨0x40, 23, 1⟩
def Fld.CTX_SITE_CH2 : Fld := ⟨0x40, 16, 7⟩
def Fld.CTX_SITE_V1 : Fld := ⟨0x40, 15, 1⟩
def Fld.CTX_SITE_CH1 : Fld := ⟨0x40, 8, 7⟩
def Fld.CTX_SITE_V0 : Fld := ⟨0x40, 7, 1⟩
def Fld.CTX_SITE_CH0 : Fld := ⟨0x40, 0, 7⟩
def Fld.CTX_SEQ_STAT_LEAVES : Fld := ⟨0xc0, 20, 3⟩
def Fld.CTX_SEQ_STAT_OPIDX : Fld := ⟨0xc0, 0, 20⟩
def Fld.CTX_SEQ_STAGE_TABLE : Fld := ⟨0xc4, 20, 1⟩
def Fld.CTX_SEQ_STAGE_SP : Fld := ⟨0xc4, 16, 4⟩
def Fld.CTX_SEQ_STAGE_FULL : Fld := ⟨0xc4, 15, 1⟩
def Fld.CTX_SEQ_STAGE_STAGE : Fld := ⟨0xc4, 0, 8⟩
def Fld.CTX_SEQ_COND_MAP : Fld := ⟨0xc8, 20, 4⟩
def Fld.CTX_SEQ_COND_LEAF : Fld := ⟨0xc8, 8, 3⟩
def Fld.CTX_SEQ_COND_INPUTS : Fld := ⟨0xc8, 0, 6⟩

-- PIN
def Fld.PIN_CTRL_STATIC : Fld := ⟨0x40, 8, 2⟩
def Fld.PIN_CTRL_NAP_STATE : Fld := ⟨0x40, 4, 2⟩
def Fld.PIN_CTRL_CLAMP_EN : Fld := ⟨0x40, 2, 1⟩
def Fld.PIN_CTRL_PULL : Fld := ⟨0x40, 1, 1⟩
def Fld.PIN_LVL_CFG_SPAN : Fld := ⟨0x44, 0, 1⟩
def Fld.PIN_VIH_CODE : Fld := ⟨0x48, 0, 20⟩
def Fld.PIN_VIL_CODE : Fld := ⟨0x4c, 0, 20⟩
def Fld.PIN_VIT_CODE : Fld := ⟨0x50, 0, 20⟩
def Fld.PIN_VOH_CODE : Fld := ⟨0x54, 0, 20⟩
def Fld.PIN_VOL_CODE : Fld := ⟨0x58, 0, 20⟩
def Fld.PIN_VCH_CODE : Fld := ⟨0x5c, 0, 20⟩
def Fld.PIN_VIH_NOW_CODE : Fld := ⟨0x60, 0, 20⟩
def Fld.PIN_VIL_NOW_CODE : Fld := ⟨0x64, 0, 20⟩
def Fld.PIN_VIT_NOW_CODE : Fld := ⟨0x68, 0, 20⟩
def Fld.PIN_VOH_NOW_CODE : Fld := ⟨0x6c, 0, 20⟩
def Fld.PIN_VOL_NOW_CODE : Fld := ⟨0x70, 0, 20⟩
def Fld.PIN_VCH_NOW_CODE : Fld := ⟨0x74, 0, 20⟩
def Fld.PIN_LVL_STEP_STEP : Fld := ⟨0x78, 0, 20⟩
def Fld.PIN_LVL_RATE_PERIOD : Fld := ⟨0x7c, 0, 16⟩
def Fld.PIN_CLAMP_LO_MARGIN : Fld := ⟨0x80, 0, 4⟩
def Fld.PIN_CMP_SLEEP_MODE : Fld := ⟨0x84, 16, 2⟩
def Fld.PIN_CMP_HYST : Fld := ⟨0x84, 12, 2⟩
def Fld.PIN_CMP_BLANK : Fld := ⟨0x84, 8, 3⟩
def Fld.PIN_CMP_MODE : Fld := ⟨0x84, 0, 2⟩
def Fld.PIN_CMP_EVT_WAKE : Fld := ⟨0x88, 0, 4⟩
def Fld.PIN_CMP_STAT_SETTLING : Fld := ⟨0x8c, 4, 1⟩
def Fld.PIN_CMP_STAT_CH : Fld := ⟨0x8c, 1, 1⟩
def Fld.PIN_CMP_STAT_CL : Fld := ⟨0x8c, 0, 1⟩
def Fld.PIN_STAT_PARKED : Fld := ⟨0x90, 19, 1⟩
def Fld.PIN_STAT_SPAN_PEND : Fld := ⟨0x90, 18, 1⟩
def Fld.PIN_STAT_SPAN_BUSY : Fld := ⟨0x90, 17, 1⟩
def Fld.PIN_STAT_SPAN_NOW : Fld := ⟨0x90, 16, 1⟩
def Fld.PIN_STAT_CLAMP_LO : Fld := ⟨0x90, 6, 1⟩
def Fld.PIN_STAT_CLAMP_HI : Fld := ⟨0x90, 5, 1⟩
def Fld.PIN_STAT_PARKED_IN_USE : Fld := ⟨0x90, 4, 1⟩
def Fld.PIN_STAT_CODE_SAT : Fld := ⟨0x90, 3, 1⟩
def Fld.PIN_STAT_BAD_ACT : Fld := ⟨0x90, 2, 1⟩
def Fld.PIN_STAT_EDGE_RANGE : Fld := ⟨0x90, 1, 1⟩
def Fld.PIN_STAT_OVERRATE : Fld := ⟨0x90, 0, 1⟩
def Fld.PIN_SWING_CLASS : Fld := ⟨0x94, 16, 2⟩
def Fld.PIN_SWING_SWING : Fld := ⟨0x94, 0, 14⟩
def Fld.PIN_ES_T_UI : Fld := ⟨0x400, 20, 2⟩
def Fld.PIN_ES_T_TIME : Fld := ⟨0x400, 0, 20⟩
def Fld.PIN_WS_CFG_ESEL : Fld := ⟨0x500, 0, 4⟩
def Fld.PIN_WS_ACT01_E1 : Fld := ⟨0x504, 16, 16⟩
def Fld.PIN_WS_ACT01_E0 : Fld := ⟨0x504, 0, 16⟩
def Fld.PIN_WS_ACT23_E3 : Fld := ⟨0x508, 16, 16⟩
def Fld.PIN_WS_ACT23_E2 : Fld := ⟨0x508, 0, 16⟩
def Fld.PMU_CTRL_SINE : Fld := ⟨0x200, 16, 1⟩
def Fld.PMU_CTRL_IRANGE : Fld := ⟨0x200, 12, 3⟩
def Fld.PMU_CTRL_SPAN : Fld := ⟨0x200, 8, 1⟩
def Fld.PMU_CTRL_MEAS : Fld := ⟨0x200, 4, 1⟩
def Fld.PMU_CTRL_MODE : Fld := ⟨0x200, 0, 3⟩
def Fld.PMU_FORCE_CODE : Fld := ⟨0x204, 0, 20⟩
def Fld.PMU_CLAMP_HI_CODE : Fld := ⟨0x208, 0, 20⟩
def Fld.PMU_CLAMP_LO_CODE : Fld := ⟨0x20c, 0, 20⟩
def Fld.PMU_SLEW_STEP_STEP : Fld := ⟨0x210, 0, 20⟩
def Fld.PMU_SLEW_RATE_PERIOD : Fld := ⟨0x214, 0, 16⟩
def Fld.PMU_FORCE_NOW_CODE : Fld := ⟨0x218, 0, 20⟩
def Fld.PMU_STAT_SEQ : Fld := ⟨0x21c, 28, 4⟩
def Fld.PMU_STAT_CONN : Fld := ⟨0x21c, 27, 1⟩
def Fld.PMU_STAT_SINE_ON : Fld := ⟨0x21c, 26, 1⟩
def Fld.PMU_STAT_PEND : Fld := ⟨0x21c, 25, 1⟩
def Fld.PMU_STAT_SPAN_NOW : Fld := ⟨0x21c, 24, 1⟩
def Fld.PMU_STAT_IRANGE_NOW : Fld := ⟨0x21c, 20, 3⟩
def Fld.PMU_STAT_SLEWING : Fld := ⟨0x21c, 19, 1⟩
def Fld.PMU_STAT_MODE_NOW : Fld := ⟨0x21c, 16, 3⟩
def Fld.PMU_STAT_ALARM_DISC : Fld := ⟨0x21c, 6, 1⟩
def Fld.PMU_STAT_ALARM : Fld := ⟨0x21c, 5, 1⟩
def Fld.PMU_STAT_ADC_OVR : Fld := ⟨0x21c, 4, 1⟩
def Fld.PMU_STAT_CLAMP_LO : Fld := ⟨0x21c, 3, 1⟩
def Fld.PMU_STAT_CLAMP_HI : Fld := ⟨0x21c, 2, 1⟩
def Fld.PMU_STAT_CODE_SAT : Fld := ⟨0x21c, 1, 1⟩
def Fld.PMU_STAT_STB_DEFER : Fld := ⟨0x21c, 0, 1⟩
def Fld.PMU_ADC_CFG_NAP_RUN : Fld := ⟨0x220, 11, 1⟩
def Fld.PMU_ADC_CFG_ANCHOR : Fld := ⟨0x220, 10, 1⟩
def Fld.PMU_ADC_CFG_AVG : Fld := ⟨0x220, 4, 3⟩
def Fld.PMU_ADC_CFG_MODE : Fld := ⟨0x220, 0, 2⟩
def Fld.PMU_ADC_PERIOD_PERIOD : Fld := ⟨0x224, 0, 20⟩
def Fld.PMU_ADC_DELAY_DELAY : Fld := ⟨0x228, 0, 32⟩
def Fld.PMU_ADC_COUNT_COUNT : Fld := ⟨0x22c, 0, 16⟩
def Fld.PMU_ADC_GO_GO : Fld := ⟨0x230, 0, 1⟩
def Fld.PMU_ADC_RESULT_SAMPLE : Fld := ⟨0x234, 0, 32⟩
def Fld.PMU_ADC_LAST_SAMPLE : Fld := ⟨0x238, 0, 32⟩
def Fld.PMU_ADC_RSTAT_REFUSED : Fld := ⟨0x23c, 2, 1⟩
def Fld.PMU_ADC_RSTAT_BUSY : Fld := ⟨0x23c, 1, 1⟩
def Fld.PMU_ADC_RSTAT_DONE : Fld := ⟨0x23c, 0, 1⟩
def Fld.PMU_ALARM_HI_SIGN : Fld := ⟨0x240, 20, 12⟩
def Fld.PMU_ALARM_HI_LIMIT : Fld := ⟨0x240, 0, 20⟩
def Fld.PMU_ALARM_LO_SIGN : Fld := ⟨0x244, 20, 12⟩
def Fld.PMU_ALARM_LO_LIMIT : Fld := ⟨0x244, 0, 20⟩
def Fld.PMU_ALARM_CFG_DISC : Fld := ⟨0x248, 10, 1⟩
def Fld.PMU_ALARM_CFG_WAKE : Fld := ⟨0x248, 9, 1⟩
def Fld.PMU_ALARM_CFG_EN : Fld := ⟨0x248, 8, 1⟩
def Fld.PMU_ALARM_CFG_COUNT : Fld := ⟨0x248, 0, 8⟩
def Fld.PMU_SINE_FTW_VALUE : Fld := ⟨0x24c, 0, 32⟩
def Fld.PMU_SINE_PHASE_VALUE : Fld := ⟨0x254, 0, 32⟩
def Fld.PMU_SINE_AMP_AMP : Fld := ⟨0x250, 0, 19⟩
def Fld.PMU_FLT_SW_MISMATCH : Fld := ⟨0x258, 1, 1⟩
def Fld.PMU_FLT_PMU_OC : Fld := ⟨0x258, 0, 1⟩
def Fld.PMU_ADC_CNT_COUNT : Fld := ⟨0x25c, 0, 32⟩
def Fld.TDC_CFG_ARM : Fld := ⟨0x300, 28, 3⟩
def Fld.TDC_CFG_NSTOP : Fld := ⟨0x300, 24, 4⟩
def Fld.TDC_CFG_STOP_SRC : Fld := ⟨0x300, 16, 5⟩
def Fld.TDC_CFG_START_SRC : Fld := ⟨0x300, 8, 5⟩
def Fld.TDC_CFG_FUNC : Fld := ⟨0x300, 4, 2⟩
def Fld.TDC_CFG_MODE : Fld := ⟨0x300, 0, 2⟩
def Fld.TDC_STAT_STATE : Fld := ⟨0x304, 28, 4⟩
def Fld.TDC_STAT_LEVEL : Fld := ⟨0x304, 16, 7⟩
def Fld.TDC_STAT_REFUSED : Fld := ⟨0x304, 2, 1⟩
def Fld.TDC_STAT_LOST : Fld := ⟨0x304, 1, 1⟩
def Fld.TDC_STAT_DEAD : Fld := ⟨0x304, 0, 1⟩
def Fld.TDC_TIMEOUT_TIME : Fld := ⟨0x308, 0, 51⟩
def Fld.TDC_COUNT_COUNT : Fld := ⟨0x310, 0, 25⟩
def Fld.TDC_GO_GO : Fld := ⟨0x314, 0, 1⟩
def Fld.TDC_POP_VALID : Fld := ⟨0x318, 31, 1⟩
def Fld.TDC_POP_LOST : Fld := ⟨0x318, 30, 1⟩
def Fld.TDC_POP_DEAD : Fld := ⟨0x318, 29, 1⟩
def Fld.TDC_POP_INTERP : Fld := ⟨0x318, 28, 1⟩
def Fld.TDC_POP_EVENT : Fld := ⟨0x318, 24, 4⟩
def Fld.TDC_POP_SEQ : Fld := ⟨0x318, 0, 24⟩
def Fld.TDC_STAMP_TIME_TIME : Fld := ⟨0x320, 0, 64⟩
def Fld.TDC_RES_STAT_STATUS : Fld := ⟨0x328, 28, 4⟩
def Fld.TDC_RES_STAT_DEAD : Fld := ⟨0x328, 27, 1⟩
def Fld.TDC_RES_STAT_N : Fld := ⟨0x328, 0, 25⟩
def Fld.TDC_RES_VALUE_VALUE : Fld := ⟨0x330, 0, 64⟩
def Fld.TDC_RES_T0_TIME : Fld := ⟨0x338, 0, 64⟩
def Fld.TDC_LOST_CNT_COUNT : Fld := ⟨0x340, 0, 32⟩
def Fld.TDC_DEAD_CNT_COUNT : Fld := ⟨0x344, 0, 32⟩
def Fld.TDC_EDGE_CNT_COUNT : Fld := ⟨0x348, 0, 32⟩
def Fld.TDC_HOLD_DROP_COUNT : Fld := ⟨0x34c, 0, 32⟩
def Fld.TDC_FLT_TABLE_PARITY : Fld := ⟨0x350, 1, 1⟩
def Fld.TDC_FLT_INTERP_STUCK : Fld := ⟨0x350, 0, 1⟩

end Sys2Proof
end

