-- ==== Sys2Proof/Machine/RegMap.lean ====
section
/-! DEFINITION. The address map and the register map of BAR0: pages (R29, R30), the common header (R31), and one row per
register of every table of spec/, with the access codes of R8 as bit masks and the reset value. -/

namespace Sys2Proof.Machine

/-- The kinds of register pages and of context register sets (R30). `calg`, `patg`, `pmcg` are the global pages of
those names and `calc`, `patc`, `pmcc` the cluster pages. -/
inductive PageKind where
  | glb | hif | txn | clk | pwr | thm | flt | bst | calg | msl | patg | res | ras | msp | lcs | pmcg
  | dps | seq | ucs | patc | acq | tdc | wfg | calc | pmcc | ctx | pin
  deriving DecidableEq, Repr

/-- One register, or one array of registers, of a page: byte offset, the counts and strides of up to two nested
arrays, whether it is a 64-bit value (R36), the masks of its rw, w1c, w1s, wo, txn and rsnap bits (R8) and its reset value. -/
structure RegRow where
  off  : Nat
  c1   : Nat
  s1   : Nat
  c2   : Nat
  s2   : Nat
  wide : Bool
  rw   : Nat
  w1c  : Nat
  w1s  : Nat
  wo   : Nat
  txn  : Nat
  snap : Nat
  rst  : Nat
  deriving DecidableEq, Repr

/-- Where a BAR0 byte address lies (R30). `page` carries the kind, the base address of the page and the offset in it. -/
inductive Area where
  | page (kind : PageKind) (base off : Nat)
  | z64 (off : Nat)
  | bcast (off : Nat)
  | calAp (off : Nat)
  | hole
  deriving DecidableEq, Repr

/-- Registers of page kind HDR, by offset (the register tables of the page's chapter). -/
def rowsHDR : List RegRow := [
  ⟨0, 1, 0x100000, 1, 0x100000, false, 0, 0, 0, 0, 0, 0, 0⟩, -- PG_ID
  ⟨4, 1, 0x100000, 1, 0x100000, false, 0, 0, 0, 0, 0, 0, 0⟩, -- PG_CAP
  ⟨8, 1, 0x100000, 1, 0x100000, false, 5, 0, 2, 0, 0, 0, 0⟩, -- PG_CTRL
  ⟨0xc, 1, 0x100000, 1, 0x100000, false, 0, 0, 0, 0, 0, 0, 0⟩, -- PG_STAT
  ⟨0x10, 1, 0x100000, 1, 0x100000, false, 0, 0xffffffff, 0, 0, 0, 0, 0⟩, -- PG_IRQ_STAT
  ⟨0x14, 1, 0x100000, 1, 0x100000, false, 0xffffffff, 0, 0, 0, 0, 0, 0⟩, -- PG_IRQ_EN
  ⟨0x18, 1, 0x100000, 1, 0x100000, false, 0, 0, 0, 0xffffffff, 0, 0, 0⟩, -- PG_IRQ_SET
  ⟨0x1c, 1, 0x100000, 1, 0x100000, false, 0, 0xffffffff, 0, 0, 0, 0, 0⟩, -- PG_FLT_STAT
  ⟨0x20, 1, 0x100000, 1, 0x100000, false, 0, 0, 0, 0xffffffff, 0, 0, 0⟩, -- PG_SNAP
  ⟨0x24, 1, 0x100000, 1, 0x100000, false, 0, 0, 0, 0, 0, 0, 0⟩, -- PG_SNAP_HI
  ⟨0x28, 1, 0x100000, 1, 0x100000, false, 0, 0, 0, 0, 0, 0, 0⟩, -- PG_ERR_ADDR
  ⟨0x2c, 1, 0x100000, 1, 0x100000, false, 0, 0, 0, 0, 0, 0, 0⟩] -- PG_TXN

/-- Registers of page kind GLB, by offset (the register tables of the page's chapter). -/
def rowsGLB : List RegRow := [
  ⟨0x40, 1, 0x100000, 1, 0x100000, false, 0, 0, 0, 0, 0, 0, 0⟩, -- GLB_PART
  ⟨0x44, 1, 0x100000, 1, 0x100000, false, 0, 0, 0, 0, 0, 0, 0⟩, -- GLB_CL_PRESENT
  ⟨0x48, 1, 0x100000, 1, 0x100000, false, 0, 0, 0, 0xff01, 0, 0, 0⟩, -- GLB_RST_CTRL
  ⟨0x4c, 1, 0x100000, 1, 0x100000, false, 0, 0x7f, 0, 0, 0, 0, 1⟩, -- GLB_RST_CAUSE
  ⟨0x50, 1, 0x100000, 1, 0x100000, false, 0, 0, 0, 0xffffffff, 0, 0, 0⟩, -- GLB_CL_RST
  ⟨0x54, 1, 0x100000, 1, 0x100000, false, 0, 0, 0, 0, 0, 0, 0⟩, -- GLB_CL_RST_BUSY
  ⟨0x58, 1, 0x100000, 1, 0x100000, false, 0, 0xffffffff, 0, 0, 0, 0, 0⟩] -- GLB_CL_RST_REF

/-- Registers of page kind HIF, by offset (the register tables of the page's chapter). -/
def rowsHIF : List RegRow := [
  ⟨0x40, 1, 0x100000, 1, 0x100000, false, 0, 0, 0, 0, 0, 0, 0⟩, -- HIF_LINK
  ⟨0x44, 1, 0x100000, 1, 0x100000, false, 0, 0, 0, 0, 0, 0xffffffff, 0⟩, -- HIF_ERR_RD_CNT
  ⟨0x48, 1, 0x100000, 1, 0x100000, false, 0, 0, 0, 0, 0, 0xffffffff, 0⟩, -- HIF_ERR_WR_CNT
  ⟨0x4c, 1, 0x100000, 1, 0x100000, false, 0, 0x80000000, 0, 0, 0, 0, 0⟩] -- HIF_ERR_FIRST

/-- Registers of page kind TXN, by offset (the register tables of the page's chapter). -/
def rowsTXN : List RegRow := [
  ⟨0x40, 1, 0x100000, 1, 0x100000, false, 0x17, 0, 0, 0, 0, 0, 0⟩, -- TXN_CAPTURE
  ⟨0x100, 8, 0x40, 1, 0x40, false, 0, 0, 0, 0xffff, 0, 0, 0⟩, -- TXN_BEGIN
  ⟨0x104, 8, 0x40, 1, 0x40, false, 0, 0, 0, 0xf00003ff, 0, 0, 0⟩, -- TXN_COMMIT
  ⟨0x108, 8, 0x40, 1, 0x40, false, 0, 0, 0, 1, 0, 0, 0⟩, -- TXN_ROLLBACK
  ⟨0x10c, 8, 0x40, 1, 0x40, false, 0, 0, 0, 0, 0, 0, 0⟩, -- TXN_STAT
  ⟨0x110, 8, 0x40, 1, 0x40, false, 0, 0, 0, 0, 0, 0, 0⟩, -- TXN_TAG
  ⟨0x114, 8, 0x40, 1, 0x40, false, 0xfffffc, 0, 0, 0, 0, 0, 0⟩, -- TXN_PEEK_ADDR
  ⟨0x118, 8, 0x40, 1, 0x40, false, 0, 0, 0, 0, 0, 0, 0⟩, -- TXN_PEEK_DATA
  ⟨0x11c, 8, 0x40, 1, 0x40, false, 0, 0, 0, 0, 0, 0, 0⟩, -- TXN_PEEK_STAT
  ⟨0x120, 8, 0x40, 1, 0x40, false, 0, 0, 0, 0, 0, 0, 0⟩, -- TXN_LATE_TICKS
  ⟨0x128, 8, 0x40, 1, 0x40, true, 0, 0, 0, 0, 0, 0, 0⟩] -- TXN_APPLY_TIME

/-- Registers of page kind CLK, by offset (the register tables of the page's chapter). -/
def rowsCLK : List RegRow := [
  ⟨0x40, 1, 0x100000, 1, 0x100000, false, 0, 0, 0, 0, 0, 0, 0⟩, -- CLK_STAT
  ⟨0x44, 1, 0x100000, 1, 0x100000, false, 0, 0, 0, 0, 0, 0, 0⟩, -- CLK_PLL_LOCK
  ⟨0x48, 1, 0x100000, 1, 0x100000, false, 0, 0xffff, 0, 0, 0, 0, 0⟩, -- CLK_UNLOCK_MAP
  ⟨0x4c, 1, 0x100000, 1, 0x100000, false, 0, 0, 0, 0, 0, 0, 0⟩, -- CLK_BKOSC_CNT
  ⟨0x50, 1, 0x100000, 1, 0x100000, false, 0, 0, 0, 0, 0, 0xffffffff, 0⟩, -- CLK_REF_LOSS_CNT
  ⟨0x54, 1, 0x100000, 1, 0x100000, false, 0, 0, 0, 0, 0, 0xffffffff, 0⟩, -- CLK_GATE_DEFER_CNT
  ⟨0x58, 1, 0x100000, 1, 0x100000, false, 0, 0, 0, 0, 0, 0, 0⟩, -- CLK_REF_RETURN
  ⟨0x80, 8, 8, 1, 8, false, 0xfffff, 0, 0, 0, 0, 0, 0x4000⟩, -- CLK_VP_PERIOD
  ⟨0x84, 8, 8, 1, 8, false, 0, 0, 0, 0, 0, 0, 0x40004000⟩, -- CLK_VP_STAT
  ⟨0x100, 4, 0x10, 1, 0x10, false, 0x1000f, 0, 0, 0x80000000, 0, 0, 0⟩, -- CLK_MUX_CTRL
  ⟨0x104, 4, 0x10, 1, 0x10, false, 0, 0x20000000, 0, 0, 0, 0, 0⟩, -- CLK_SW_STAT
  ⟨0x108, 4, 0x10, 1, 0x10, false, 0, 0, 0, 0, 0, 0, 0⟩] -- CLK_SW_WAIT

/-- Registers of page kind PWR, by offset (the register tables of the page's chapter). -/
def rowsPWR : List RegRow := [
  ⟨0x40, 1, 0x100000, 1, 0x100000, false, 0, 0x80000000, 0, 0, 0, 0, 0⟩, -- PWR_STAT
  ⟨0x44, 1, 0x100000, 1, 0x100000, false, 0xffffffff, 0, 0, 0, 0, 0, 0x1f403e8⟩, -- WAKE_SLEW_BUDGET
  ⟨0x48, 1, 0x100000, 1, 0x100000, false, 0x3f, 0, 0, 0, 0, 0, 0x10⟩, -- WAKE_MAX_CONCURRENT
  ⟨0x4c, 1, 0x100000, 1, 0x100000, false, 0xffffffff, 0, 0, 0, 0, 0, 0x9604b0⟩, -- PWR_STEP_NAP
  ⟨0x50, 1, 0x100000, 1, 0x100000, false, 0xffffffff, 0, 0, 0, 0, 0, 0x9605dc⟩, -- PWR_STEP_DORM
  ⟨0x54, 1, 0x100000, 1, 0x100000, false, 0xffff, 0, 0, 0, 0, 0, 0xa⟩, -- PWR_IDLE_DWELL
  ⟨0x58, 1, 0x100000, 1, 0x100000, false, 0, 0x80000000, 0, 0, 0, 0, 0⟩, -- PWR_LAT_MISS
  ⟨0x5c, 1, 0x100000, 1, 0x100000, false, 7, 0, 0, 0, 0, 0, 0⟩, -- PWR_DVFS_CTRL
  ⟨0x60, 1, 0x100000, 1, 0x100000, false, 0, 0, 0, 0, 0, 0, 0⟩, -- PWR_DVFS_STAT
  ⟨0x64, 1, 0x100000, 1, 0x100000, false, 0, 0x80000000, 0, 0, 0, 0, 0⟩, -- PWR_AVS_STAT
  ⟨0x68, 1, 0x100000, 1, 0x100000, false, 0, 0, 0, 0, 0, 0xffffffff, 0⟩, -- PWR_AVS_ERR_CNT
  ⟨0x6c, 1, 0x100000, 1, 0x100000, false, 0, 0, 0, 0xff00, 0, 0, 0⟩, -- PWR_HIB
  ⟨0x70, 1, 0x100000, 1, 0x100000, false, 0, 0, 0, 0, 0, 0xffffffff, 0⟩, -- PWR_WAKEN_CNT
  ⟨0x100, 32, 0x10, 1, 0x10, false, 0xffffffff, 0, 0, 0, 0, 0, 0⟩, -- PWR_CL_TOL
  ⟨0x104, 32, 0x10, 1, 0x10, false, 0x133, 0, 0, 0, 0, 0, 1⟩, -- PWR_CL_CFG
  ⟨0x108, 32, 0x10, 1, 0x10, false, 0, 0, 0, 0, 0, 0, 0x1000000⟩, -- PWR_CL_STAT
  ⟨0x10c, 32, 0x10, 1, 0x10, false, 0, 0, 0, 1, 0, 0, 0⟩, -- PWR_CL_WAKE
  ⟨0x300, 32, 4, 1, 4, false, 0, 0, 0, 0, 0, 0xffffffff, 0⟩] -- PWR_CL_MISS_CNT

/-- Registers of page kind THM, by offset (the register tables of the page's chapter). -/
def rowsTHM : List RegRow := [
  ⟨0x40, 1, 0x100000, 1, 0x100000, false, 0, 0, 0, 0, 0, 0, 0⟩, -- THM_STAT
  ⟨0x44, 1, 0x100000, 1, 0x100000, false, 0xffff, 0, 0, 0, 0, 0, 0x251c⟩, -- THM_WARN
  ⟨0x48, 1, 0x100000, 1, 0x100000, false, 0xffff, 0, 0, 0, 0, 0, 0x2904⟩, -- THM_CRIT
  ⟨0x4c, 1, 0x100000, 1, 0x100000, false, 0xffff, 0, 0, 0, 0, 0, 0x1f4⟩, -- THM_HYST
  ⟨0x50, 1, 0x100000, 1, 0x100000, true, 0, 0, 0, 0, 0, 0, 0⟩, -- THM_BROKEN_MAP
  ⟨0x58, 1, 0x100000, 1, 0x100000, true, 0, 0, 0, 0, 0, 0, 0⟩, -- THM_WARN_MAP
  ⟨0x60, 1, 0x100000, 1, 0x100000, true, 0, 0xffffffffffff, 0, 0, 0, 0, 0⟩, -- THM_CRIT_MAP
  ⟨0x68, 1, 0x100000, 1, 0x100000, true, 0xffffffffffff, 0, 0, 0, 0, 0, 0⟩, -- THM_IGNORE
  ⟨0x70, 1, 0x100000, 1, 0x100000, false, 0xffffffff, 0, 0, 0, 0, 0, 0⟩, -- THM_WARN_SEC
  ⟨0x100, 48, 4, 1, 4, false, 0, 0, 0, 0, 0, 0, 0⟩, -- THM_TEMP
  ⟨0x200, 48, 4, 1, 4, false, 0xffff, 0, 0, 0, 0, 0, 0x8000⟩, -- THM_MAX
  ⟨0x300, 48, 4, 1, 4, false, 0, 0, 0, 0, 0, 0, 0⟩] -- THM_COUNT

/-- Registers of page kind FLT, by offset (the register tables of the page's chapter). -/
def rowsFLT : List RegRow := [
  ⟨0x40, 1, 0x100000, 1, 0x100000, false, 0, 0x80000000, 0, 0, 0, 0, 0⟩, -- FLT_FIRST
  ⟨0x44, 1, 0x100000, 1, 0x100000, false, 0, 0, 0, 0, 0, 0, 0⟩, -- FLT_FIRST_AON
  ⟨0x48, 1, 0x100000, 1, 0x100000, true, 0, 0, 0, 0, 0, 0, 0⟩, -- FLT_FIRST_TIME
  ⟨0x50, 1, 0x100000, 1, 0x100000, false, 0, 0x80000000, 0, 0, 0, 0, 0⟩, -- FLT_OVF
  ⟨0x54, 1, 0x100000, 1, 0x100000, false, 0, 0x80000000, 0, 0, 0, 0, 0⟩, -- FLT_CONSEQ
  ⟨0x58, 1, 0x100000, 1, 0x100000, false, 0, 0, 0, 0, 0, 0, 0⟩, -- FLT_CONSEQ_SRC
  ⟨0x5c, 1, 0x100000, 1, 0x100000, false, 0, 0, 0, 0, 0, 0, 0⟩, -- FLT_PREV_FIRST
  ⟨0x60, 1, 0x100000, 1, 0x100000, false, 0xffff, 0, 0, 0, 0, 0, 0xa⟩, -- FLT_SHADOW
  ⟨0x64, 1, 0x100000, 1, 0x100000, false, 0, 0, 0, 0, 0, 0, 0⟩, -- FLT_SHADOW_MAP
  ⟨0x68, 1, 0x100000, 1, 0x100000, false, 0, 6, 0, 0, 0, 0, 0⟩, -- FLT_STAT
  ⟨0x6c, 1, 0x100000, 1, 0x100000, false, 0xf, 0, 0, 0, 0, 0, 1⟩, -- FLT_PIN_CFG
  ⟨0x70, 1, 0x100000, 1, 0x100000, false, 0, 0, 0, 0, 0, 0, 0⟩, -- FLT_SAFE_MAP
  ⟨0x74, 1, 0x100000, 1, 0x100000, false, 0, 0, 0, 0xffffffff, 0, 0, 0⟩, -- FLT_SAFE_REL
  ⟨0x78, 1, 0x100000, 1, 0x100000, false, 0, 0, 0, 0, 0, 0, 0⟩, -- FLT_GLB_MAP
  ⟨0x7c, 1, 0x100000, 1, 0x100000, false, 0, 0, 0, 0, 0, 0, 0⟩, -- FLT_CL_MAP
  ⟨0x80, 1, 0x100000, 1, 0x100000, false, 0x1ffffff, 0, 0, 0, 0, 0, 0⟩, -- FLT_INJ_SEL
  ⟨0x84, 1, 0x100000, 1, 0x100000, false, 3, 0, 0, 0xff00, 0, 0, 0⟩, -- FLT_INJ_CTRL
  ⟨0x400, 41, 8, 1, 8, true, 0xffffffffffffffff, 0, 0, 0, 0, 0, 0⟩] -- FLT_CLASS

/-- Registers of page kind BST, by offset (the register tables of the page's chapter). -/
def rowsBST : List RegRow := [
  ⟨0x40, 1, 0x100000, 1, 0x100000, false, 0x1f01, 0, 0, 0, 0, 0, 0x401⟩, -- BST_CFG
  ⟨0x44, 1, 0x100000, 1, 0x100000, false, 0, 0, 0, 0xff, 0, 0, 0⟩, -- BST_REQ
  ⟨0x48, 1, 0x100000, 1, 0x100000, false, 0xffffffff, 0, 0, 0, 0, 0, 0⟩, -- BST_REQ_CL
  ⟨0x4c, 1, 0x100000, 1, 0x100000, false, 0, 0, 0, 0, 0, 0, 0⟩, -- BST_STAT
  ⟨0x50, 1, 0x100000, 1, 0x100000, false, 0, 0, 0, 0xff01, 0, 0, 0⟩, -- BST_FUSE_CTRL
  ⟨0x54, 1, 0x100000, 1, 0x100000, false, 0x7f1f, 0, 0, 0, 0, 0, 0⟩, -- BST_REP_SEL
  ⟨0x58, 1, 0x100000, 1, 0x100000, false, 0, 0, 0, 0, 0, 0, 0⟩, -- BST_REP_DATA
  ⟨0x100, 32, 0x20, 1, 0x20, false, 0, 0, 0, 0, 0, 0, 0⟩, -- BST_CL_RES
  ⟨0x104, 32, 0x20, 1, 0x20, false, 0, 0, 0, 0, 0, 0, 0⟩, -- BST_CL_SIG
  ⟨0x108, 32, 0x20, 1, 0x20, false, 0, 0, 0, 0, 0, 0, 0⟩, -- BST_CL_STEPS
  ⟨0x10c, 32, 0x20, 1, 0x20, false, 0, 0, 0, 0, 0, 0, 0⟩, -- BST_CL_EXP_SIG
  ⟨0x110, 32, 0x20, 1, 0x20, false, 0, 0, 0, 0, 0, 0, 0⟩, -- BST_CL_EXP_STEPS
  ⟨0x114, 32, 0x20, 1, 0x20, false, 0, 0xffffffff, 0, 0, 0, 0, 0⟩] -- BST_CL_DET

/-- Registers of page kind CALG, by offset (the register tables of the page's chapter). -/
def rowsCALG : List RegRow := [
  ⟨0x40, 1, 0x100000, 1, 0x100000, false, 0x1f0103, 0, 0, 0, 0, 0, 0x80000⟩, -- CAL_CFG
  ⟨0x44, 1, 0x100000, 1, 0x100000, false, 1, 0, 0, 0, 0, 0, 0⟩, -- CAL_GAP
  ⟨0x48, 1, 0x100000, 1, 0x100000, false, 0xffff, 0, 0, 0, 0, 0, 0xc8⟩, -- CAL_DT_THRESH
  ⟨0x4c, 1, 0x100000, 1, 0x100000, false, 0xffffffff, 0, 0, 0, 0, 0, 0x15180⟩, -- CAL_MAX_AGE
  ⟨0x50, 1, 0x100000, 1, 0x100000, false, 0xffffff, 0, 0, 0, 0, 0, 0x2625a0⟩, -- CAL_VREFX
  ⟨0x54, 1, 0x100000, 1, 0x100000, false, 0, 0x40000000, 0, 0, 0, 0, 0⟩, -- CAL_REF_STAT
  ⟨0x58, 1, 0x100000, 1, 0x100000, false, 0, 0, 0, 0, 0, 0, 0⟩, -- CAL_DUE_MAP
  ⟨0x5c, 1, 0x100000, 1, 0x100000, false, 0, 0, 0, 0, 0, 0, 0⟩, -- CAL_RUN_MAP
  ⟨0x60, 1, 0x100000, 1, 0x100000, false, 0, 0, 0, 0, 0, 0xffffffff, 0⟩, -- CAL_SLICE_CNT
  ⟨0x64, 1, 0x100000, 1, 0x100000, false, 0, 0, 0, 0, 0, 0xffffffff, 0⟩] -- CAL_ABANDON_CNT

/-- Registers of page kind MSL, by offset (the register tables of the page's chapter). -/
def rowsMSL : List RegRow := [
  ⟨0x40, 1, 0x100000, 1, 0x100000, false, 0x80000003, 0, 0, 0, 0, 0, 0⟩, -- MSL_CTRL
  ⟨0x44, 1, 0x100000, 1, 0x100000, false, 0, 0, 0, 0, 0, 0, 0⟩, -- MSL_STAT
  ⟨0x48, 1, 0x100000, 1, 0x100000, false, 0, 0, 0, 0, 0, 0, 1⟩, -- MSL_SUBTREE
  ⟨0x50, 1, 0x100000, 1, 0x100000, true, 0, 0, 0, 0, 0, 0, 0⟩, -- MSL_TIME
  ⟨0x58, 1, 0x100000, 1, 0x100000, false, 0xfffff, 0, 0, 0, 0, 0, 0x3e80⟩, -- MSL_TICK_LEAD
  ⟨0x5c, 1, 0x100000, 1, 0x100000, false, 0xfffff, 0, 0, 0, 0, 0, 0x1900⟩, -- MSL_TRIG_LEAD
  ⟨0x60, 1, 0x100000, 1, 0x100000, false, 0, 0, 0, 1, 1, 0, 0⟩, -- MSL_TICK_REQ
  ⟨0x64, 1, 0x100000, 1, 0x100000, false, 0x103, 0, 0, 0, 0, 0, 0⟩, -- MSL_INDEX_CFG
  ⟨0x68, 1, 0x100000, 1, 0x100000, false, 0, 0, 0, 1, 0, 0, 0⟩, -- MSL_TD_REQ
  ⟨0x70, 1, 0x100000, 1, 0x100000, true, 0, 0, 0, 0, 0, 0, 0⟩, -- MSL_LAST_TICK
  ⟨0x78, 1, 0x100000, 1, 0x100000, false, 0, 0, 0, 0, 0, 0, 0⟩, -- MSL_TICK_NUM
  ⟨0x7c, 1, 0x100000, 1, 0x100000, false, 0, 0xf, 0, 0, 0, 0, 0⟩, -- MSL_EVT
  ⟨0x80, 1, 0x100000, 1, 0x100000, false, 0, 0, 0, 0, 0, 0xffffffff, 0⟩, -- MSL_TICK_LATE_CNT
  ⟨0x84, 1, 0x100000, 1, 0x100000, false, 0, 0, 0, 0, 0, 0xffffffff, 0⟩, -- MSL_TRIG_LATE_CNT
  ⟨0x88, 1, 0x100000, 1, 0x100000, false, 0, 0, 0, 0, 0, 0, 0⟩, -- MSL_ALIGN_ERR
  ⟨0x8c, 1, 0x100000, 1, 0x100000, false, 0, 0, 0, 0, 0, 0, 0⟩, -- MSL_FREQ_OFS
  ⟨0x90, 1, 0x100000, 1, 0x100000, false, 0xffff, 0, 0, 0, 0, 0, 0x3e8⟩, -- MSL_CAL_PERIOD
  ⟨0xa0, 1, 0x100000, 1, 0x100000, false, 0, 0, 0, 0xffff, 0xffff, 0, 0⟩, -- MSL_TRIG_RAISE
  ⟨0xa4, 1, 0x100000, 1, 0x100000, false, 0x1f1f, 0, 0, 0, 0, 0, 0⟩, -- MSL_TIN_CFG
  ⟨0xa8, 1, 0x100000, 1, 0x100000, false, 0xff0007f1, 0, 0, 0, 0, 0, 0x1000000⟩, -- MSL_TOUT_CFG0
  ⟨0xac, 1, 0x100000, 1, 0x100000, false, 0xff0007f1, 0, 0, 0, 0, 0, 0x1000000⟩, -- MSL_TOUT_CFG1
  ⟨0xb0, 1, 0x100000, 1, 0x100000, false, 0xffffffff, 0, 0, 0, 0xffffffff, 0, 0⟩, -- MSL_RANGE_TRIG
  ⟨0xb4, 1, 0x100000, 1, 0x100000, false, 0, 0xffff, 0, 0, 0, 0, 0⟩, -- MSL_TRIG_SEEN
  ⟨0xc0, 1, 0x100000, 1, 0x100000, false, 0xffff, 0, 0, 0, 0, 0, 0⟩, -- MSL_BAR_CFG
  ⟨0xc4, 1, 0x100000, 1, 0x100000, false, 0, 0, 0, 0xff, 0xff, 0, 0⟩, -- MSL_BAR_ARRIVE
  ⟨0xc8, 1, 0x100000, 1, 0x100000, false, 0, 0xff00, 0, 0, 0, 0, 0⟩, -- MSL_BAR_STAT
  ⟨0x100, 4, 0x40, 1, 0x40, false, 0x80000000, 0, 1, 2, 0, 0, 0x80000000⟩, -- MSL_PORT_CTRL
  ⟨0x104, 4, 0x40, 1, 0x40, false, 0, 0, 0, 0, 0, 0, 0⟩, -- MSL_PORT_STAT
  ⟨0x108, 4, 0x40, 1, 0x40, false, 0, 0, 0, 0, 0, 0, 0⟩, -- MSL_PORT_DELAY
  ⟨0x10c, 4, 0x40, 1, 0x40, false, 0xffff, 0, 0, 0, 0, 0, 0⟩, -- MSL_PORT_ASYM
  ⟨0x110, 4, 0x40, 1, 0x40, false, 0, 0, 0, 0, 0, 0xffffffff, 0⟩, -- MSL_PORT_VIOL_CNT
  ⟨0x114, 4, 0x40, 1, 0x40, false, 0, 0, 0, 0, 0, 0xffffffff, 0⟩, -- MSL_PORT_RETRAIN_CNT
  ⟨0x118, 4, 0x40, 1, 0x40, false, 0, 0x80000000, 0, 0, 0, 0, 0⟩, -- MSL_PORT_VIOL_FIRST
  ⟨0x11c, 4, 0x40, 4, 4, false, 0, 0, 0, 0, 0, 0, 0⟩, -- MSL_PORT_VIOL_MSG
  ⟨0x130, 4, 0x40, 1, 0x40, false, 0, 0, 0, 0, 0, 0, 0⟩, -- MSL_PORT_SUBTREE
  ⟨0x800, 128, 4, 1, 4, false, 0xffffffff, 0, 0, 0, 0xffffffff, 0, 0⟩] -- MSL_CTX_TRIG

/-- Registers of page kind PATG, by offset (the register tables of the page's chapter). -/
def rowsPATG : List RegRow := [
  ⟨0x40, 1, 0x100000, 1, 0x100000, false, 0, 0, 0, 0, 0, 0, 0x30⟩, -- PAT_STORE
  ⟨0x44, 1, 0x100000, 1, 0x100000, false, 0, 0, 0, 0, 0, 0xffffffff, 0⟩, -- PAT_ECC_CE_CNT
  ⟨0x48, 1, 0x100000, 1, 0x100000, false, 0, 0, 0, 0, 0, 0xffffffff, 0⟩, -- PAT_ECC_UE_CNT
  ⟨0x4c, 1, 0x100000, 1, 0x100000, false, 0, 0x80000000, 0, 0, 0, 0, 0⟩, -- PAT_B2_ERR
  ⟨0x50, 1, 0x100000, 1, 0x100000, true, 0, 0, 0, 0, 0, 0, 0⟩, -- PAT_ECC_UE_ADDR
  ⟨0x58, 1, 0x100000, 1, 0x100000, true, 0, 0, 0, 0, 0, 0xffffffffffffffff, 0⟩, -- PAT_RD_BYTES
  ⟨0x60, 1, 0x100000, 1, 0x100000, true, 0, 0, 0, 0, 0, 0xffffffffffffffff, 0⟩, -- PAT_WR_BYTES
  ⟨0x100, 16, 0x40, 1, 0x40, false, 0x800003ff, 0, 0, 0, 0, 0, 0⟩, -- PAT_STR_CTRL
  ⟨0x104, 16, 0x40, 1, 0x40, false, 0, 0, 0, 0, 0, 0, 0⟩, -- PAT_STR_STAT
  ⟨0x108, 16, 0x40, 1, 0x40, true, 0xfffffffffffffff0, 0, 0, 0, 0, 0, 0⟩, -- PAT_STR_RING_BASE
  ⟨0x110, 16, 0x40, 1, 0x40, false, 0x1f, 0, 0, 0, 0, 0, 4⟩, -- PAT_STR_RING_SIZE
  ⟨0x114, 16, 0x40, 1, 0x40, false, 0xffffffff, 0, 0, 0, 0, 0, 0⟩, -- PAT_STR_PROD
  ⟨0x118, 16, 0x40, 1, 0x40, false, 0, 0, 0, 0, 0, 0, 0⟩, -- PAT_STR_CONS
  ⟨0x11c, 16, 0x40, 1, 0x40, false, 0xffffff, 0, 0, 0, 0, 0, 8⟩, -- PAT_STR_SLOTS
  ⟨0x120, 16, 0x40, 1, 0x40, true, 0xffffffffff, 0, 0, 0, 0, 0, 0⟩, -- PAT_STR_GLO
  ⟨0x128, 16, 0x40, 1, 0x40, true, 0, 0, 0, 0, 0, 0, 0⟩, -- PAT_STR_PRODUCED
  ⟨0x130, 16, 0x40, 1, 0x40, true, 0, 0, 0, 0, 0, 0, 0⟩, -- PAT_STR_FETCHED
  ⟨0x138, 16, 0x40, 1, 0x40, true, 0, 0, 0, 0, 0, 0, 0⟩] -- PAT_STR_STARTED

/-- Registers of page kind RES, by offset (the register tables of the page's chapter). -/
def rowsRES : List RegRow := [
  ⟨0x40, 1, 0x100000, 1, 0x100000, true, 0xfffffffffffffffc, 0, 0, 0, 0, 0, 0⟩, -- RES_WB_BASE
  ⟨0x48, 1, 0x100000, 1, 0x100000, false, 1, 0, 0, 0, 0, 0, 0⟩, -- RES_WB_CTRL
  ⟨0x4c, 1, 0x100000, 1, 0x100000, false, 0xffff, 0, 0, 0, 0, 0, 0x64⟩, -- RES_COAL_TIME
  ⟨0x50, 1, 0x100000, 1, 0x100000, false, 0xffffffff, 0, 0, 0, 0, 0, 0x2000400⟩, -- RES_BP_CFG
  ⟨0x54, 1, 0x100000, 1, 0x100000, false, 0, 0, 0, 0, 0, 0xffffffff, 0⟩, -- RES_DISCARD_CNT
  ⟨0x58, 1, 0x100000, 1, 0x100000, false, 0, 0, 0, 0, 0, 0xffffffff, 0⟩, -- RES_BP_HOLD_CNT
  ⟨0x5c, 1, 0x100000, 1, 0x100000, false, 0, 0, 0, 0, 0, 0x3fff, 0⟩, -- RES_BUF_MAX
  ⟨0x60, 1, 0x100000, 1, 0x100000, true, 0, 0, 0, 0, 0, 0xffffffffffffffff, 0⟩, -- RES_REC_CNT
  ⟨0x68, 1, 0x100000, 1, 0x100000, false, 0, 0xffffffff, 0, 0, 0, 0, 0⟩, -- RES_RING_IRQ0
  ⟨0x6c, 1, 0x100000, 1, 0x100000, false, 0, 0xffffffff, 0, 0, 0, 0, 0⟩, -- RES_RING_IRQ1
  ⟨0xc0, 8, 4, 1, 4, false, 0xbfbfbfbf, 0, 0, 0, 0, 0, 0⟩, -- RES_CL_ANNOT
  ⟨0x100, 64, 0x20, 1, 0x20, true, 0xffffffffffffffe0, 0, 0, 0, 0, 0, 0⟩, -- RES_RING_BASE
  ⟨0x108, 64, 0x20, 1, 0x20, false, 0xff00131f, 0, 0, 0, 0, 0, 0x1000004⟩, -- RES_RING_CFG
  ⟨0x10c, 64, 0x20, 1, 0x20, false, 0xffffffff, 0, 0, 0, 0, 0, 0⟩, -- RES_RING_CONS
  ⟨0x110, 64, 0x20, 1, 0x20, false, 0, 0, 0, 0, 0, 0, 0⟩, -- RES_RING_PROD
  ⟨0x114, 64, 0x20, 1, 0x20, false, 0, 1, 0, 0, 0, 0, 0⟩, -- RES_RING_STAT
  ⟨0x118, 64, 0x20, 1, 0x20, false, 0, 0, 0, 0, 0, 0xffffffff, 0⟩, -- RES_RING_CNT
  ⟨0x900, 8, 0x60, 1, 0x60, false, 0xc00003ff, 0, 0, 0, 0, 0, 0⟩, -- RES_MB_CFG
  ⟨0x904, 8, 0x60, 1, 0x60, false, 0, 0, 0, 0, 0, 0, 0⟩, -- RES_MB_STAT
  ⟨0x908, 8, 0x60, 1, 0x60, true, 0, 0, 0, 0, 0, 0, 0xffffffff⟩, -- RES_MB_POP
  ⟨0x910, 8, 0x60, 1, 0x60, true, 0, 0, 0, 0, 0, 0, 0⟩, -- RES_MB_PEEK
  ⟨0x918, 8, 0x60, 1, 0x60, false, 0, 0, 0, 0, 0, 0xffffffff, 0⟩, -- RES_MB_POPPED
  ⟨0x920, 8, 0x60, 8, 4, false, 0, 0, 0, 0, 0, 0, 0⟩, -- RES_MB_REC
  ⟨0x940, 8, 0x60, 8, 4, false, 0, 0, 0, 0, 0, 0, 0⟩, -- RES_MB_HEAD
  ⟨0xc00, 256, 4, 1, 4, false, 0xbfbfbfbf, 0, 0, 0, 0, 0, 0⟩] -- RES_ROUTE

/-- Registers of page kind RAS, by offset (the register tables of the page's chapter). -/
def rowsRAS : List RegRow := [
  ⟨0x40, 1, 0x100000, 1, 0x100000, false, 0x80000003, 0, 0, 0, 0, 0, 0⟩, -- RAS_CTRL
  ⟨0x44, 1, 0x100000, 1, 0x100000, false, 0, 0, 0, 0, 0, 0, 0⟩, -- RAS_STAT
  ⟨0x48, 1, 0x100000, 1, 0x100000, false, 0, 0, 0, 0, 0, 0, 0⟩, -- RAS_FRAME_CNT
  ⟨0x4c, 1, 0x100000, 1, 0x100000, false, 0, 0, 0, 0, 0, 0xffffffff, 0⟩, -- RAS_LOST_CNT
  ⟨0x50, 1, 0x100000, 1, 0x100000, true, 0, 0, 0, 0, 0, 0, 0⟩, -- RAS_FLIP_TIME
  ⟨0x58, 1, 0x100000, 1, 0x100000, false, 0, 0, 0, 1, 1, 0, 0⟩, -- RAS_MODE_APPLY
  ⟨0x5c, 1, 0x100000, 1, 0x100000, false, 0, 0, 0, 3, 3, 0, 0⟩, -- RAS_FLIP
  ⟨0x60, 1, 0x100000, 1, 0x100000, true, 0, 0, 0, 0, 0, 0, 0⟩, -- RAS_FRAME_POP
  ⟨0x68, 1, 0x100000, 1, 0x100000, true, 0, 0, 0, 0, 0, 0, 0⟩, -- RAS_REL_POP
  ⟨0x80, 1, 0x100000, 1, 0x100000, false, 0x83ff03ff, 0, 0, 0, 0x83ff03ff, 0, 1⟩, -- RAS_T_CLK
  ⟨0x84, 1, 0x100000, 1, 0x100000, false, 0x333, 0, 0, 0, 0x333, 0, 0⟩, -- RAS_T_FMT
  ⟨0x88, 1, 0x100000, 1, 0x100000, false, 0x3fff3fff, 0, 0, 0, 0x3fff3fff, 0, 0⟩, -- RAS_T_HACT
  ⟨0x8c, 1, 0x100000, 1, 0x100000, false, 0x3fff3fff, 0, 0, 0, 0x3fff3fff, 0, 0⟩, -- RAS_T_HSYNC
  ⟨0x90, 1, 0x100000, 1, 0x100000, false, 0x3fff3fff, 0, 0, 0, 0x3fff3fff, 0, 0⟩, -- RAS_T_VACT
  ⟨0x94, 1, 0x100000, 1, 0x100000, false, 0x3fff3fff, 0, 0, 0, 0x3fff3fff, 0, 0⟩, -- RAS_T_VSYNC
  ⟨0x98, 1, 0x100000, 1, 0x100000, false, 0xffffffff, 0, 0, 0, 0xffffffff, 0, 0x80000000⟩, -- RAS_BG0
  ⟨0x9c, 1, 0x100000, 1, 0x100000, false, 0xffff, 0, 0, 0, 0xffff, 0, 0x8000⟩, -- RAS_BG1
  ⟨0xc0, 1, 0x100000, 1, 0x100000, false, 0, 0, 0, 0, 0, 0, 1⟩, -- RAS_A_T_CLK
  ⟨0xc4, 1, 0x100000, 1, 0x100000, false, 0, 0, 0, 0, 0, 0, 0⟩, -- RAS_A_T_FMT
  ⟨0xc8, 1, 0x100000, 1, 0x100000, false, 0, 0, 0, 0, 0, 0, 0⟩, -- RAS_A_T_HACT
  ⟨0xcc, 1, 0x100000, 1, 0x100000, false, 0, 0, 0, 0, 0, 0, 0⟩, -- RAS_A_T_HSYNC
  ⟨0xd0, 1, 0x100000, 1, 0x100000, false, 0, 0, 0, 0, 0, 0, 0⟩, -- RAS_A_T_VACT
  ⟨0xd4, 1, 0x100000, 1, 0x100000, false, 0, 0, 0, 0, 0, 0, 0⟩, -- RAS_A_T_VSYNC
  ⟨0xd8, 1, 0x100000, 1, 0x100000, false, 0, 0, 0, 0, 0, 0, 0x80000000⟩, -- RAS_A_BG0
  ⟨0xdc, 1, 0x100000, 1, 0x100000, false, 0, 0, 0, 0, 0, 0, 0x8000⟩, -- RAS_A_BG1
  ⟨0x100, 2, 0x80, 1, 0x80, false, 0x80000730, 0, 0, 0, 0x80000730, 0, 0⟩, -- RAS_L_CFG
  ⟨0x104, 2, 0x80, 1, 0x80, false, 0x3fff3fff, 0, 0, 0, 0x3fff3fff, 0, 0⟩, -- RAS_L_POS
  ⟨0x108, 2, 0x80, 1, 0x80, false, 0x3fff3fff, 0, 0, 0, 0x3fff3fff, 0, 0x10001⟩, -- RAS_L_SIZE
  ⟨0x10c, 2, 0x80, 1, 0x80, false, 0xffff01ff, 0, 0, 0, 0xffff01ff, 0, 0x100⟩, -- RAS_L_MISC
  ⟨0x110, 2, 0x80, 3, 8, true, 0xfffffffc0, 0, 0, 0, 0xfffffffc0, 0, 0⟩, -- RAS_L_BASE
  ⟨0x128, 2, 0x80, 1, 0x80, false, 0xffffffff, 0, 0, 0, 0xffffffff, 0, 0⟩, -- RAS_L_STRIDE
  ⟨0x140, 2, 0x80, 1, 0x80, false, 0, 0, 0, 0, 0, 0, 0⟩, -- RAS_L_FRONT
  ⟨0x200, 16, 0x10, 1, 0x10, false, 0xbfff3fff, 0, 0, 0, 0xbfff3fff, 0, 0⟩, -- RAS_R_POS
  ⟨0x204, 16, 0x10, 1, 0x10, false, 0x3fff3fff, 0, 0, 0, 0x3fff3fff, 0, 0⟩, -- RAS_R_SIZE
  ⟨0x208, 16, 0x10, 1, 0x10, false, 0xffffffff, 0, 0, 0, 0xffffffff, 0, 0⟩, -- RAS_R_EXP
  ⟨0x20c, 16, 0x10, 1, 0x10, false, 0, 0, 0, 0, 0, 0, 0⟩, -- RAS_R_CRC
  ⟨0x800, 256, 4, 1, 4, false, 0xf7f37, 0, 0, 0, 0xf7f37, 0, 0⟩] -- RAS_LANE

/-- Registers of page kind MSP, by offset (the register tables of the page's chapter). -/
def rowsMSP : List RegRow := [
  ⟨0x40, 1, 0x100000, 1, 0x100000, false, 0x80ff03ff, 0, 0, 0, 0, 0, 0xa0000⟩, -- MSP_CFG
  ⟨0x44, 1, 0x100000, 1, 0x100000, false, 0, 6, 0, 0, 0, 0, 0⟩, -- MSP_STAT
  ⟨0x48, 1, 0x100000, 1, 0x100000, false, 0, 0, 0, 0, 0, 0xffffffff, 0⟩, -- MSP_FRAME_ERR
  ⟨0x4c, 1, 0x100000, 1, 0x100000, false, 0, 0, 0, 0, 0, 0xffffffff, 0⟩, -- MSP_VIOL_CNT
  ⟨0x50, 1, 0x100000, 1, 0x100000, false, 0, 0x80000000, 0, 0, 0, 0, 0⟩, -- MSP_VIOL_FIRST
  ⟨0x54, 1, 0x100000, 1, 0x100000, false, 0, 0, 0, 0, 0, 0, 0⟩, -- MSP_VIOL_CMD
  ⟨0x58, 1, 0x100000, 1, 0x100000, false, 0, 0, 0, 0, 0, 0xffffffff, 0⟩, -- MSP_ACC_ERR_CNT
  ⟨0x5c, 1, 0x100000, 1, 0x100000, false, 0, 0, 0, 0, 0, 0xffffffff, 0⟩, -- MSP_FRAME_CNT
  ⟨0x60, 1, 0x100000, 1, 0x100000, false, 0x3f1300, 0, 0, 0x80000000, 0, 0, 0x200000⟩, -- MSP_M_CTRL
  ⟨0x64, 1, 0x100000, 1, 0x100000, false, 0xffffffff, 0, 0, 0, 0, 0, 0⟩, -- MSP_M_TX
  ⟨0x68, 1, 0x100000, 1, 0x100000, false, 0, 0, 0, 0, 0, 0, 0⟩] -- MSP_M_RX

/-- Registers of page kind LCS, by offset (the register tables of the page's chapter). -/
def rowsLCS : List RegRow := [
  ⟨0x40, 1, 0x100000, 1, 0x100000, false, 0, 0, 0, 0, 0, 0, 0⟩, -- LCS_STATE
  ⟨0x44, 1, 0x100000, 1, 0x100000, false, 0, 0, 0, 0xff000f0f, 0, 0, 0⟩, -- LCS_CTRL
  ⟨0x48, 1, 0x100000, 1, 0x100000, false, 0, 0, 0, 0, 0, 0, 0⟩, -- LCS_STAT
  ⟨0x60, 8, 4, 1, 4, false, 0, 0, 0, 0, 0, 0, 0⟩, -- LCS_CHAL
  ⟨0x80, 8, 4, 1, 4, false, 0, 0, 0, 0xffffffff, 0, 0, 0⟩, -- LCS_RESP
  ⟨0xa0, 1, 0x100000, 1, 0x100000, false, 0, 0, 0, 0, 0, 0xffffffff, 0⟩] -- LCS_UNLOCK_CNT

/-- Registers of page kind PMCG, by offset (the register tables of the page's chapter). -/
def rowsPMCG : List RegRow := [
  ⟨0x40, 1, 0x100000, 1, 0x100000, false, 0x801f000f, 0, 0, 0, 0, 0, 0xa0004⟩, -- PMC_DUMP_CTRL
  ⟨0x48, 1, 0x100000, 1, 0x100000, true, 0xfffffffffffff000, 0, 0, 0, 0, 0, 0⟩, -- PMC_DUMP_BASE
  ⟨0x50, 1, 0x100000, 1, 0x100000, true, 0xfffffffffffffffc, 0, 0, 0, 0, 0, 0⟩, -- PMC_DUMP_WB
  ⟨0x58, 1, 0x100000, 1, 0x100000, false, 0, 0, 0, 0, 0, 0, 0⟩, -- PMC_DUMP_PROD
  ⟨0x5c, 1, 0x100000, 1, 0x100000, false, 0xffffffff, 0, 0, 0, 0, 0, 0⟩, -- PMC_DUMP_CONS
  ⟨0x60, 1, 0x100000, 1, 0x100000, false, 0, 0, 0, 0, 0, 0xffffffff, 0⟩] -- PMC_DUMP_SKIP

/-- Registers of page kind DPS, by offset (the register tables of the page's chapter). -/
def rowsDPS : List RegRow := [
  ⟨0x40, 1, 0x100000, 1, 0x100000, false, 0x131, 0, 0, 0, 0x131, 0, 0x100⟩, -- DPS_CTRL
  ⟨0x44, 1, 0x100000, 1, 0x100000, false, 0xfffff, 0, 0, 0, 0xfffff, 0, 0x80000⟩, -- DPS_FORCE
  ⟨0x48, 1, 0x100000, 1, 0x100000, false, 0xfffff, 0, 0, 0, 0xfffff, 0, 0x80000⟩, -- DPS_ILIM
  ⟨0x4c, 1, 0x100000, 1, 0x100000, false, 0xfffff, 0, 0, 0, 0xfffff, 0, 0⟩, -- DPS_SLEW_STEP
  ⟨0x50, 1, 0x100000, 1, 0x100000, false, 0xffff, 0, 0, 0, 0xffff, 0, 1⟩, -- DPS_SLEW_RATE
  ⟨0x54, 1, 0x100000, 1, 0x100000, false, 0, 0, 0, 0, 0, 0, 0x80000⟩, -- DPS_FORCE_NOW
  ⟨0x58, 1, 0x100000, 1, 0x100000, false, 0, 0x31, 0, 0, 0, 0, 0⟩, -- DPS_STAT
  ⟨0x5c, 1, 0x100000, 1, 0x100000, false, 0x303ff, 0, 0, 0, 0, 0, 0⟩, -- DPS_CFG
  ⟨0x60, 1, 0x100000, 1, 0x100000, false, 0x107, 0, 0, 0, 0, 0, 0⟩, -- DPS_GANG
  ⟨0x64, 1, 0x100000, 1, 0x100000, false, 0xfffff, 0, 0, 0, 0, 0, 0x80000⟩, -- DPS_UV
  ⟨0x68, 1, 0x100000, 1, 0x100000, false, 0xfffff, 0, 0, 0, 0, 0, 0xf3333⟩, -- DPS_OV
  ⟨0x6c, 1, 0x100000, 1, 0x100000, false, 0xffff, 0, 0, 0, 0, 0, 0x64⟩, -- DPS_TRIP
  ⟨0x70, 1, 0x100000, 1, 0x100000, false, 0x873, 0, 0, 0, 0x873, 0, 0⟩, -- DPS_MEAS_CFG
  ⟨0x74, 1, 0x100000, 1, 0x100000, false, 0xfffff, 0, 0, 0, 0xfffff, 0, 0x3e80⟩, -- DPS_MEAS_PERIOD
  ⟨0x78, 1, 0x100000, 1, 0x100000, false, 0xffffffff, 0, 0, 0, 0xffffffff, 0, 0⟩, -- DPS_MEAS_DELAY
  ⟨0x7c, 1, 0x100000, 1, 0x100000, false, 0xffff, 0, 0, 0, 0xffff, 0, 0⟩, -- DPS_MEAS_COUNT
  ⟨0x80, 1, 0x100000, 1, 0x100000, false, 0, 0, 0, 1, 0, 0, 0⟩, -- DPS_MEAS_GO
  ⟨0x84, 1, 0x100000, 1, 0x100000, false, 0, 0, 0, 0, 0, 0, 0⟩, -- DPS_V_LAST
  ⟨0x88, 1, 0x100000, 1, 0x100000, false, 0, 0, 0, 0, 0, 0, 0⟩, -- DPS_I_LAST
  ⟨0x8c, 1, 0x100000, 1, 0x100000, false, 0, 0, 0, 0, 0, 0, 0⟩, -- DPS_I_GROUP
  ⟨0x90, 4, 4, 1, 4, false, 0xffffffff, 0, 0, 0, 0, 0, 0⟩] -- DPS_GUARD

/-- Registers of page kind SEQ, by offset (the register tables of the page's chapter). -/
def rowsSEQ : List RegRow := [
  ⟨0x40, 1, 0x100000, 1, 0x100000, false, 0xf, 0, 0, 0, 0, 0, 4⟩, -- SEQ_CTRL
  ⟨0x44, 1, 0x100000, 1, 0x100000, false, 0, 0, 0, 0, 0, 0, 0⟩, -- SEQ_STAT
  ⟨0x48, 1, 0x100000, 1, 0x100000, false, 0, 0x80000000, 0, 0, 0, 0, 0⟩, -- SEQ_UERR
  ⟨0x4c, 1, 0x100000, 1, 0x100000, false, 0, 0xffffffff, 0, 0, 0, 0, 0⟩, -- SEQ_CTX_EVT
  ⟨0x50, 1, 0x100000, 1, 0x100000, false, 0x1f1f, 0, 0, 0, 0, 0, 0⟩, -- SEQ_DBG_SEL
  ⟨0x54, 1, 0x100000, 1, 0x100000, false, 0, 0, 0, 0, 0, 0, 0x30000000⟩, -- SEQ_DBG_FRAME
  ⟨0x58, 1, 0x100000, 1, 0x100000, false, 0, 0, 0, 0, 0, 0xffffffff, 0⟩, -- SEQ_ABANDON_CNT
  ⟨0x5c, 1, 0x100000, 1, 0x100000, false, 0, 0, 0, 0, 0, 0x3ff, 0⟩, -- SEQ_TAIL_MAX
  ⟨0xe00, 4, 0x10, 1, 0x10, false, 0x73, 0, 0, 0, 0x73, 0, 0⟩, -- SEQ_BLANK_CFG
  ⟨0xe04, 4, 0x10, 1, 0x10, false, 0xfffff, 0, 0, 0, 0xfffff, 0, 0⟩, -- SEQ_BLANK_START
  ⟨0xe08, 4, 0x10, 1, 0x10, false, 0xfffff, 0, 0, 0, 0xfffff, 0, 0⟩] -- SEQ_BLANK_WIDTH

/-- Registers of page kind UCS, by offset (the register tables of the page's chapter). -/
def rowsUCS : List RegRow := [
  ⟨0x40, 1, 0x100000, 1, 0x100000, false, 3, 0, 0, 0, 0, 0, 0⟩, -- UCS_PATCH_CTRL
  ⟨0x44, 1, 0x100000, 1, 0x100000, false, 0, 4, 0, 0, 0, 0, 0⟩, -- UCS_PATCH_STAT
  ⟨0x48, 1, 0x100000, 1, 0x100000, false, 0x3ff, 0, 0, 0, 0, 0, 0⟩, -- UCS_PRAM_IDX
  ⟨0x4c, 1, 0x100000, 1, 0x100000, false, 0, 0, 0, 0, 0, 0, 0⟩, -- UCS_PRAM_DATA
  ⟨0x50, 1, 0x100000, 1, 0x100000, false, 0, 0, 0, 0, 0, 0, 0⟩, -- UCS_CRC
  ⟨0x54, 1, 0x100000, 1, 0x100000, false, 0, 0, 0, 0, 0, 0, 0⟩, -- UCS_ROM_ID
  ⟨0x100, 32, 4, 1, 4, false, 0xbff03fff, 0, 0, 0, 0xbff03fff, 0, 0⟩] -- UCS_MATCH

/-- Registers of page kind PATC, by offset (the register tables of the page's chapter). -/
def rowsPATC : List RegRow := [
  ⟨0x40, 1, 0x100000, 1, 0x100000, false, 0, 0, 0, 0, 0, 0, 0⟩, -- PAT_CC_STAT
  ⟨0x44, 1, 0x100000, 1, 0x100000, false, 0, 0, 0, 0, 0, 0xffffffff, 0⟩, -- PAT_UNDERRUN_CNT
  ⟨0x48, 1, 0x100000, 1, 0x100000, false, 0, 0, 0, 0, 0, 0xffffffff, 0⟩, -- PAT_HOLD_CNT
  ⟨0x4c, 1, 0x100000, 1, 0x100000, false, 7, 0, 0, 0, 0, 0, 4⟩, -- PAT_HEAD
  ⟨0x50, 1, 0x100000, 1, 0x100000, true, 0, 0, 0, 0, 0, 0xffffffffffffffff, 0⟩, -- PAT_FILL_BYTES
  ⟨0x100, 32, 4, 1, 4, false, 0x3ff, 0, 0, 0, 0, 0, 0⟩, -- PAT_QUOTA
  ⟨0x180, 32, 4, 1, 4, false, 0, 0, 0, 0, 0, 0, 0⟩] -- PAT_CTX_RES

/-- Registers of page kind ACQ, by offset (the register tables of the page's chapter). -/
def rowsACQ : List RegRow := [
  ⟨0x40, 1, 0x100000, 1, 0x100000, true, 0, 0, 0, 0, 0, 0xffffffffffffffff, 0⟩, -- ACQ_REC_CNT
  ⟨0x48, 1, 0x100000, 1, 0x100000, true, 0, 0, 0, 0, 0, 0xffffffffffffffff, 0⟩, -- ACQ_LOST_CNT
  ⟨0x50, 1, 0x100000, 1, 0x100000, true, 0, 0, 0, 0, 0, 0xffffffffffffffff, 0⟩, -- ACQ_IN_CNT
  ⟨0x58, 1, 0x100000, 1, 0x100000, false, 0, 0, 0, 0, 0, 0xffffffff, 0⟩, -- ACQ_DROP_CNT
  ⟨0x5c, 1, 0x100000, 1, 0x100000, false, 0, 0xffffffff, 0, 0, 0, 0, 0⟩, -- ACQ_ERR_MAP
  ⟨0x60, 1, 0x100000, 1, 0x100000, false, 0, 0xffffffff, 0, 0, 0, 0, 0⟩, -- ACQ_STOP_MAP
  ⟨0x64, 1, 0x100000, 1, 0x100000, false, 0, 0, 0, 0, 0, 0xffffffff, 0⟩, -- ACQ_PTRIG_CNT
  ⟨0x400, 32, 0x20, 1, 0x20, false, 0, 0, 0, 0, 0, 0, 0⟩, -- ACQ_C_SLOT_STAT
  ⟨0x404, 32, 0x20, 1, 0x20, false, 0, 0, 0, 0, 0, 0, 0⟩, -- ACQ_C_POOL
  ⟨0x408, 32, 0x20, 1, 0x20, false, 0, 0, 0, 0, 0, 0, 0⟩, -- ACQ_C_DESC0
  ⟨0x40c, 32, 0x20, 1, 0x20, false, 0, 0, 0, 0, 0, 0, 0⟩, -- ACQ_C_DESC1
  ⟨0x410, 32, 0x20, 1, 0x20, true, 0, 0, 0, 0, 0, 0, 0xffffffffffffffff⟩, -- ACQ_C_TRIG_V
  ⟨0x418, 32, 0x20, 1, 0x20, false, 0, 0, 0, 0, 0, 0xffffffff, 0⟩, -- ACQ_C_REC
  ⟨0x41c, 32, 0x20, 1, 0x20, false, 0, 0, 0, 0, 0, 0xffffffff, 0⟩] -- ACQ_C_LOST

/-- Registers of page kind TDC, by offset (the register tables of the page's chapter). -/
def rowsTDC : List RegRow := [
  ⟨0x40, 1, 0x100000, 1, 0x100000, false, 0, 0xffffffff, 0, 0, 0, 0, 0⟩, -- TDC_DONE_MAP
  ⟨0x44, 1, 0x100000, 1, 0x100000, false, 0, 0xffffffff, 0, 0, 0, 0, 0⟩, -- TDC_LOST_MAP
  ⟨0x48, 1, 0x100000, 1, 0x100000, false, 0, 0, 0, 0, 0, 0, 0⟩, -- TDC_FLT_MAP
  ⟨0x4c, 1, 0x100000, 1, 0x100000, false, 0, 0, 0, 0, 0, 0xffffffff, 0⟩, -- TDC_CD_HITS
  ⟨0x50, 1, 0x100000, 1, 0x100000, false, 0, 0, 0, 0, 0, 0, 0⟩, -- TDC_RND_RATE
  ⟨0x58, 1, 0x100000, 1, 0x100000, true, 0, 0, 0, 0, 0, 0xffffffffffffffff, 0⟩, -- TDC_STAMP_CNT
  ⟨0x60, 1, 0x100000, 1, 0x100000, false, 0x1ff011f, 0, 0, 0, 0, 0, 0⟩, -- TDC_HIST_SEL
  ⟨0x64, 1, 0x100000, 1, 0x100000, false, 0, 0, 0, 0, 0, 0, 0⟩] -- TDC_HIST_DATA

/-- Registers of page kind WFG, by offset (the register tables of the page's chapter). -/
def rowsWFG : List RegRow := [
  ⟨0x100, 4, 0x40, 1, 0x40, false, 0xbfff37ef, 0, 0, 0, 0x3c0037ef, 0, 0x1000⟩, -- WFG_CTRL
  ⟨0x104, 4, 0x40, 1, 0x40, false, 0, 0, 0, 1, 1, 0, 0⟩, -- WFG_START
  ⟨0x108, 4, 0x40, 1, 0x40, false, 0, 0, 0, 1, 1, 0, 0⟩, -- WFG_STOP
  ⟨0x10c, 4, 0x40, 1, 0x40, false, 0xf, 0, 0, 0x80000000, 0x8000000f, 0, 0⟩, -- WFG_JUMP
  ⟨0x110, 4, 0x40, 1, 0x40, false, 0, 0xf, 0, 0, 0, 0, 0⟩, -- WFG_STAT
  ⟨0x114, 4, 0x40, 1, 0x40, false, 0xfffff, 0, 0, 0, 0xfffff, 0, 0⟩, -- WFG_HOLD
  ⟨0x118, 4, 0x40, 1, 0x40, false, 0xffffffff, 0, 0, 0, 0xffffffff, 0, 0⟩, -- WFG_ROUTE
  ⟨0x11c, 4, 0x40, 1, 0x40, false, 0, 0, 0, 0, 0, 0, 0⟩, -- WFG_POS
  ⟨0x120, 4, 0x40, 1, 0x40, true, 0, 0, 0, 0, 0, 0, 0⟩, -- WFG_DISP
  ⟨0x128, 4, 0x40, 1, 0x40, true, 0, 0, 0, 0, 0, 0, 0⟩, -- WFG_START_TIME
  ⟨0x130, 4, 0x40, 1, 0x40, false, 0, 0, 0, 0, 0, 0xffffffff, 0⟩, -- WFG_SEG_CNT
  ⟨0x400, 4, 0x200, 16, 0x20, true, 0xffffffffffff, 0, 0, 0, 0xffffffffffff, 0, 0⟩, -- WFG_E_FTW
  ⟨0x408, 4, 0x200, 16, 0x20, false, 0xffff, 0, 0, 0, 0xffff, 0, 0⟩, -- WFG_E_PHASE
  ⟨0x40c, 4, 0x200, 16, 0x20, false, 0x7ffff, 0, 0, 0, 0x7ffff, 0, 0⟩, -- WFG_E_AMP
  ⟨0x410, 4, 0x200, 16, 0x20, false, 0xfffff, 0, 0, 0, 0xfffff, 0, 0⟩, -- WFG_E_OFFSET
  ⟨0x414, 4, 0x200, 16, 0x20, false, 0xfffff, 0, 0, 0, 0xfffff, 0, 4⟩, -- WFG_E_LEN
  ⟨0x418, 4, 0x200, 16, 0x20, false, 0x8000000f, 0, 0, 0, 0x8000000f, 0, 0x80000000⟩, -- WFG_E_NEXT
  ⟨0xf00, 1, 0x100000, 1, 0x100000, false, 0xf1f, 0, 0, 0, 0, 0, 3⟩, -- WFG_STB_CFG
  ⟨0xf04, 1, 0x100000, 1, 0x100000, false, 0, 0, 0, 1, 1, 0, 0⟩, -- WFG_STB_FIRE
  ⟨0xf08, 1, 0x100000, 1, 0x100000, false, 0, 0, 0, 0, 0, 0xffffffff, 0⟩, -- WFG_STB_CNT
  ⟨0xf0c, 1, 0x100000, 1, 0x100000, false, 0, 0, 0, 0, 0, 0, 0⟩, -- WFG_STB_SRC
  ⟨0xf10, 1, 0x100000, 1, 0x100000, true, 0, 0, 0, 0, 0, 0, 0⟩, -- WFG_STB_TIME
  ⟨0xf18, 1, 0x100000, 1, 0x100000, false, 0, 0, 0, 0, 0, 0, 0⟩, -- WFG_PMU_EVT
  ⟨0xf1c, 1, 0x100000, 1, 0x100000, false, 0xffffffff, 0, 0, 0, 0, 0, 0⟩, -- WFG_PMU_EVT_EN
  ⟨0xf20, 1, 0x100000, 1, 0x100000, false, 0, 0, 0, 0, 0, 0, 0⟩] -- WFG_PMU_FLT

/-- Registers of page kind CALC, by offset (the register tables of the page's chapter). -/
def rowsCALC : List RegRow := [
  ⟨0x40, 1, 0x100000, 1, 0x100000, false, 0x1fe07, 0, 0, 0, 0, 0, 0xfe07⟩, -- CAL_CL_CTRL
  ⟨0x44, 1, 0x100000, 1, 0x100000, false, 0, 0, 0xfe, 0, 0, 0, 0⟩, -- CAL_CL_REQ
  ⟨0x48, 1, 0x100000, 1, 0x100000, false, 0, 0, 0, 0, 0, 0, 0xfe⟩, -- CAL_CL_DUE
  ⟨0x4c, 1, 0x100000, 1, 0x100000, false, 0, 0, 0, 0, 0, 0, 0⟩, -- CAL_CL_PEND
  ⟨0x50, 1, 0x100000, 1, 0x100000, false, 0, 0, 0, 0, 0, 0, 0⟩, -- CAL_CL_STAT
  ⟨0x54, 1, 0x100000, 1, 0x100000, false, 0, 0, 0, 0, 0, 0, 0⟩, -- CAL_CL_SKIP
  ⟨0x58, 1, 0x100000, 1, 0x100000, true, 0, 0, 0, 0, 0, 0, 0⟩, -- CAL_CL_ACT_TIME
  ⟨0x60, 1, 0x100000, 1, 0x100000, false, 0, 0, 0, 0, 0, 0xffffffff, 0⟩, -- CAL_CL_ACT_CNT
  ⟨0x64, 1, 0x100000, 1, 0x100000, false, 0, 0, 0, 0, 0, 0, 0⟩, -- CAL_CL_CRC
  ⟨0x110, 7, 0x10, 1, 0x10, false, 0, 0, 0, 0, 0, 0, 0⟩, -- CAL_K_TEMP
  ⟨0x114, 7, 0x10, 1, 0x10, false, 0, 0, 0, 0, 0, 0, 0xffffffff⟩, -- CAL_K_AGE
  ⟨0x118, 7, 0x10, 1, 0x10, false, 0, 0, 0, 0, 0, 0xffffffff, 0⟩] -- CAL_K_RUNS

/-- Registers of page kind PMCC, by offset (the register tables of the page's chapter). -/
def rowsPMCC : List RegRow := [
  ⟨0x40, 1, 0x100000, 1, 0x100000, false, 0x800fffff, 0, 0, 0, 0, 0, 0⟩, -- PMC_CTRL
  ⟨0x48, 1, 0x100000, 1, 0x100000, true, 0, 0, 0, 0, 0, 0xffffffffffffffff, 0⟩, -- PMC_RETIRED
  ⟨0x50, 1, 0x100000, 1, 0x100000, true, 0, 0, 0, 0, 0, 0xffffffffffffffff, 0⟩, -- PMC_WASTED
  ⟨0x58, 1, 0x100000, 1, 0x100000, true, 0, 0, 0, 0, 0, 0xffffffffffffffff, 0⟩, -- PMC_FRONT
  ⟨0x60, 1, 0x100000, 1, 0x100000, true, 0, 0, 0, 0, 0, 0xffffffffffffffff, 0⟩, -- PMC_BACK
  ⟨0x68, 1, 0x100000, 1, 0x100000, true, 0, 0, 0, 0, 0, 0xffffffffffffffff, 0⟩, -- PMC_IDLE
  ⟨0x70, 1, 0x100000, 1, 0x100000, true, 0, 0, 0, 0, 0, 0xffffffffffffffff, 0⟩, -- PMC_OPS
  ⟨0x78, 1, 0x100000, 1, 0x100000, false, 0, 0, 0, 0, 0, 0, 0⟩, -- PMC_SMP_STAT
  ⟨0x7c, 1, 0x100000, 1, 0x100000, false, 0, 0, 0, 1, 0, 0, 0⟩, -- PMC_SMP_CLR
  ⟨0x400, 64, 0x10, 4, 4, false, 0, 0, 0, 0, 0, 0, 0⟩] -- PMC_SMP_ENTRY

/-- Registers of page kind CTX, by offset (the register tables of the page's chapter). -/
def rowsCTX : List RegRow := [
  ⟨0, 1, 0x100000, 1, 0x100000, false, 0, 0, 0, 0, 0, 0, 0⟩, -- CTX_STATE
  ⟨4, 1, 0x100000, 1, 0x100000, false, 3, 0, 0, 0, 0, 0, 2⟩, -- CTX_CFG
  ⟨8, 1, 0x100000, 1, 0x100000, true, 0xfffffffc0, 0, 0, 0, 0, 0, 0⟩, -- CTX_IMAGE
  ⟨0x10, 1, 0x100000, 1, 0x100000, false, 0, 0, 0, 1, 0, 0, 0⟩, -- CTX_LOAD
  ⟨0x14, 1, 0x100000, 1, 0x100000, false, 0, 0, 0, 1, 0, 0, 0⟩, -- CTX_ARM
  ⟨0x18, 1, 0x100000, 1, 0x100000, false, 0, 0, 0, 1, 1, 0, 0⟩, -- CTX_START
  ⟨0x1c, 1, 0x100000, 1, 0x100000, false, 0, 0, 0, 1, 1, 0, 0⟩, -- CTX_STOP
  ⟨0x20, 1, 0x100000, 1, 0x100000, false, 0, 0, 0, 0x800fffff, 0x800fffff, 0, 0⟩, -- CTX_REDIRECT
  ⟨0x24, 1, 0x100000, 1, 0x100000, false, 0, 0, 0, 3, 0, 0, 0⟩, -- CTX_CLEAR
  ⟨0x28, 1, 0x100000, 1, 0x100000, false, 0xfffff, 0, 0, 0, 0, 0, 0⟩, -- CTX_MAILBOX
  ⟨0x30, 1, 0x100000, 1, 0x100000, true, 0, 0, 0, 0, 0, 0, 0⟩, -- CTX_VIDX
  ⟨0x38, 1, 0x100000, 1, 0x100000, false, 0, 0, 0, 0, 0, 0, 0⟩, -- CTX_HOLDS
  ⟨0x3c, 1, 0x100000, 1, 0x100000, false, 0, 0, 0, 0, 0, 0, 0⟩, -- CTX_OPIDX
  ⟨0x40, 32, 4, 1, 4, false, 0xffffffff, 0, 0, 0, 0, 0, 0⟩, -- CTX_SITE
  ⟨0xc0, 1, 0x100000, 1, 0x100000, false, 0, 0, 0, 0, 0, 0, 0⟩, -- CTX_SEQ_STAT
  ⟨0xc4, 1, 0x100000, 1, 0x100000, false, 0, 0, 0, 0, 0, 0, 0⟩, -- CTX_SEQ_STAGE
  ⟨0xc8, 1, 0x100000, 1, 0x100000, false, 0, 0, 0, 0, 0, 0, 0⟩] -- CTX_SEQ_COND

/-- Registers of page kind PIN, by offset (the register tables of the page's chapter). -/
def rowsPIN : List RegRow := [
  ⟨0x40, 1, 0x100000, 1, 0x100000, false, 0x336, 0, 0, 0, 0x336, 0, 2⟩, -- PIN_CTRL
  ⟨0x44, 1, 0x100000, 1, 0x100000, false, 1, 0, 0, 0, 1, 0, 1⟩, -- PIN_LVL_CFG
  ⟨0x48, 1, 0x100000, 1, 0x100000, false, 0xfffff, 0, 0, 0, 0xfffff, 0, 0x40000⟩, -- PIN_VIH
  ⟨0x4c, 1, 0x100000, 1, 0x100000, false, 0xfffff, 0, 0, 0, 0xfffff, 0, 0x40000⟩, -- PIN_VIL
  ⟨0x50, 1, 0x100000, 1, 0x100000, false, 0xfffff, 0, 0, 0, 0xfffff, 0, 0x40000⟩, -- PIN_VIT
  ⟨0x54, 1, 0x100000, 1, 0x100000, false, 0xfffff, 0, 0, 0, 0xfffff, 0, 0x40000⟩, -- PIN_VOH
  ⟨0x58, 1, 0x100000, 1, 0x100000, false, 0xfffff, 0, 0, 0, 0xfffff, 0, 0x40000⟩, -- PIN_VOL
  ⟨0x5c, 1, 0x100000, 1, 0x100000, false, 0xfffff, 0, 0, 0, 0xfffff, 0, 0x40000⟩, -- PIN_VCH
  ⟨0x60, 1, 0x100000, 1, 0x100000, false, 0, 0, 0, 0, 0, 0, 0x40000⟩, -- PIN_VIH_NOW
  ⟨0x64, 1, 0x100000, 1, 0x100000, false, 0, 0, 0, 0, 0, 0, 0x40000⟩, -- PIN_VIL_NOW
  ⟨0x68, 1, 0x100000, 1, 0x100000, false, 0, 0, 0, 0, 0, 0, 0x40000⟩, -- PIN_VIT_NOW
  ⟨0x6c, 1, 0x100000, 1, 0x100000, false, 0, 0, 0, 0, 0, 0, 0x40000⟩, -- PIN_VOH_NOW
  ⟨0x70, 1, 0x100000, 1, 0x100000, false, 0, 0, 0, 0, 0, 0, 0x40000⟩, -- PIN_VOL_NOW
  ⟨0x74, 1, 0x100000, 1, 0x100000, false, 0, 0, 0, 0, 0, 0, 0x40000⟩, -- PIN_VCH_NOW
  ⟨0x78, 1, 0x100000, 1, 0x100000, false, 0xfffff, 0, 0, 0, 0xfffff, 0, 0⟩, -- PIN_LVL_STEP
  ⟨0x7c, 1, 0x100000, 1, 0x100000, false, 0xffff, 0, 0, 0, 0xffff, 0, 1⟩, -- PIN_LVL_RATE
  ⟨0x80, 1, 0x100000, 1, 0x100000, false, 0xf, 0, 0, 0, 0xf, 0, 4⟩, -- PIN_CLAMP
  ⟨0x84, 1, 0x100000, 1, 0x100000, false, 0x33703, 0, 0, 0, 0x33703, 0, 0x2001⟩, -- PIN_CMP
  ⟨0x88, 1, 0x100000, 1, 0x100000, false, 0xf, 0, 0, 0, 0, 0, 0⟩, -- PIN_CMP_EVT
  ⟨0x8c, 1, 0x100000, 1, 0x100000, false, 0, 0, 0, 0, 0, 0, 0⟩, -- PIN_CMP_STAT
  ⟨0x90, 1, 0x100000, 1, 0x100000, false, 0, 0x7f, 0, 0, 0, 0, 0x90000⟩, -- PIN_STAT
  ⟨0x94, 1, 0x100000, 1, 0x100000, false, 0, 0, 0, 0, 0, 0, 0⟩, -- PIN_SWING
  ⟨0x200, 1, 0x100000, 1, 0x100000, false, 0x17117, 0, 0, 0, 0x17117, 0, 0x3100⟩, -- PMU_CTRL
  ⟨0x204, 1, 0x100000, 1, 0x100000, false, 0xfffff, 0, 0, 0, 0xfffff, 0, 0x40000⟩, -- PMU_FORCE
  ⟨0x208, 1, 0x100000, 1, 0x100000, false, 0xfffff, 0, 0, 0, 0xfffff, 0, 0xfffff⟩, -- PMU_CLAMP_HI
  ⟨0x20c, 1, 0x100000, 1, 0x100000, false, 0xfffff, 0, 0, 0, 0xfffff, 0, 0⟩, -- PMU_CLAMP_LO
  ⟨0x210, 1, 0x100000, 1, 0x100000, false, 0xfffff, 0, 0, 0, 0xfffff, 0, 0⟩, -- PMU_SLEW_STEP
  ⟨0x214, 1, 0x100000, 1, 0x100000, false, 0xffff, 0, 0, 0, 0xffff, 0, 1⟩, -- PMU_SLEW_RATE
  ⟨0x218, 1, 0x100000, 1, 0x100000, false, 0, 0, 0, 0, 0, 0, 0x40000⟩, -- PMU_FORCE_NOW
  ⟨0x21c, 1, 0x100000, 1, 0x100000, false, 0, 0x7f, 0, 0, 0, 0, 0x1300000⟩, -- PMU_STAT
  ⟨0x220, 1, 0x100000, 1, 0x100000, false, 0xc73, 0, 0, 0, 0xc73, 0, 0⟩, -- PMU_ADC_CFG
  ⟨0x224, 1, 0x100000, 1, 0x100000, false, 0xfffff, 0, 0, 0, 0xfffff, 0, 0x640⟩, -- PMU_ADC_PERIOD
  ⟨0x228, 1, 0x100000, 1, 0x100000, false, 0xffffffff, 0, 0, 0, 0xffffffff, 0, 0⟩, -- PMU_ADC_DELAY
  ⟨0x22c, 1, 0x100000, 1, 0x100000, false, 0xffff, 0, 0, 0, 0xffff, 0, 0⟩, -- PMU_ADC_COUNT
  ⟨0x230, 1, 0x100000, 1, 0x100000, false, 0, 0, 0, 1, 0, 0, 0⟩, -- PMU_ADC_GO
  ⟨0x234, 1, 0x100000, 1, 0x100000, false, 0, 0, 0, 0, 0, 0, 0⟩, -- PMU_ADC_RESULT
  ⟨0x238, 1, 0x100000, 1, 0x100000, false, 0, 0, 0, 0, 0, 0, 0⟩, -- PMU_ADC_LAST
  ⟨0x23c, 1, 0x100000, 1, 0x100000, false, 0, 4, 0, 0, 0, 0, 0⟩, -- PMU_ADC_RSTAT
  ⟨0x240, 1, 0x100000, 1, 0x100000, false, 0xfffff, 0, 0, 0, 0, 0, 0x7ffff⟩, -- PMU_ALARM_HI
  ⟨0x244, 1, 0x100000, 1, 0x100000, false, 0xfffff, 0, 0, 0, 0, 0, 0xfff80001⟩, -- PMU_ALARM_LO
  ⟨0x248, 1, 0x100000, 1, 0x100000, false, 0x7ff, 0, 0, 0, 0, 0, 1⟩, -- PMU_ALARM_CFG
  ⟨0x24c, 1, 0x100000, 1, 0x100000, false, 0xffffffff, 0, 0, 0, 0xffffffff, 0, 0⟩, -- PMU_SINE_FTW
  ⟨0x250, 1, 0x100000, 1, 0x100000, false, 0x7ffff, 0, 0, 0, 0x7ffff, 0, 0⟩, -- PMU_SINE_AMP
  ⟨0x254, 1, 0x100000, 1, 0x100000, false, 0xffffffff, 0, 0, 0, 0xffffffff, 0, 0⟩, -- PMU_SINE_PHASE
  ⟨0x258, 1, 0x100000, 1, 0x100000, false, 0, 3, 0, 0, 0, 0, 0⟩, -- PMU_FLT
  ⟨0x25c, 1, 0x100000, 1, 0x100000, false, 0, 0, 0, 0, 0, 0xffffffff, 0⟩, -- PMU_ADC_CNT
  ⟨0x300, 1, 0x100000, 1, 0x100000, false, 0x7f1f1f33, 0, 0, 0, 0x7f1f1f33, 0, 0⟩, -- TDC_CFG
  ⟨0x304, 1, 0x100000, 1, 0x100000, false, 0, 7, 0, 0, 0, 0, 0⟩, -- TDC_STAT
  ⟨0x308, 1, 0x100000, 1, 0x100000, true, 0x7ffffffffffff, 0, 0, 0, 0x7ffffffffffff, 0, 0x667⟩, -- TDC_TIMEOUT
  ⟨0x310, 1, 0x100000, 1, 0x100000, false, 0x1ffffff, 0, 0, 0, 0x1ffffff, 0, 0⟩, -- TDC_COUNT
  ⟨0x314, 1, 0x100000, 1, 0x100000, false, 0, 0, 0, 1, 1, 0, 0⟩, -- TDC_GO
  ⟨0x318, 1, 0x100000, 1, 0x100000, false, 0, 0, 0, 0, 0, 0, 0⟩, -- TDC_POP
  ⟨0x320, 1, 0x100000, 1, 0x100000, true, 0, 0, 0, 0, 0, 0, 0⟩, -- TDC_STAMP_TIME
  ⟨0x328, 1, 0x100000, 1, 0x100000, false, 0, 0, 0, 0, 0, 0, 0⟩, -- TDC_RES_STAT
  ⟨0x330, 1, 0x100000, 1, 0x100000, true, 0, 0, 0, 0, 0, 0, 0⟩, -- TDC_RES_VALUE
  ⟨0x338, 1, 0x100000, 1, 0x100000, true, 0, 0, 0, 0, 0, 0, 0⟩, -- TDC_RES_T0
  ⟨0x340, 1, 0x100000, 1, 0x100000, false, 0, 0, 0, 0, 0, 0xffffffff, 0⟩, -- TDC_LOST_CNT
  ⟨0x344, 1, 0x100000, 1, 0x100000, false, 0, 0, 0, 0, 0, 0xffffffff, 0⟩, -- TDC_DEAD_CNT
  ⟨0x348, 1, 0x100000, 1, 0x100000, false, 0, 0, 0, 0, 0, 0xffffffff, 0⟩, -- TDC_EDGE_CNT
  ⟨0x34c, 1, 0x100000, 1, 0x100000, false, 0, 0, 0, 0, 0, 0xffffffff, 0⟩, -- TDC_HOLD_DROP
  ⟨0x350, 1, 0x100000, 1, 0x100000, false, 0, 3, 0, 0, 0, 0, 0⟩, -- TDC_FLT
  ⟨0x400, 16, 0x10, 4, 4, false, 0x3fffff, 0, 0, 0, 0x3fffff, 0, 0⟩, -- PIN_ES_T
  ⟨0x500, 16, 0x10, 1, 0x10, false, 0xf, 0, 0, 0, 0xf, 0, 0⟩, -- PIN_WS_CFG
  ⟨0x504, 16, 0x10, 1, 0x10, false, 0xffffffff, 0, 0, 0, 0xffffffff, 0, 0⟩, -- PIN_WS_ACT01
  ⟨0x508, 16, 0x10, 1, 0x10, false, 0xffffffff, 0, 0, 0, 0xffffffff, 0, 0⟩] -- PIN_WS_ACT23
/-- The register table of a page kind, without the header. -/
def rowsOf : PageKind → List RegRow
  | .glb => rowsGLB | .hif => rowsHIF | .txn => rowsTXN | .clk => rowsCLK | .pwr => rowsPWR | .thm => rowsTHM
  | .flt => rowsFLT | .bst => rowsBST | .calg => rowsCALG | .msl => rowsMSL | .patg => rowsPATG | .res => rowsRES
  | .ras => rowsRAS | .msp => rowsMSP | .lcs => rowsLCS | .pmcg => rowsPMCG | .dps => rowsDPS | .seq => rowsSEQ
  | .ucs => rowsUCS | .patc => rowsPATC | .acq => rowsACQ | .tdc => rowsTDC | .wfg => rowsWFG | .calc => rowsCALC
  | .pmcc => rowsPMCC | .ctx => rowsCTX | .pin => rowsPIN

/-- The kind has the page header of R31 (R30: every page but the context register sets). -/
def PageKind.header : PageKind → Bool
  | .ctx => false
  | _ => true

/-- The bytes of a page of a kind (R30). -/
def PageKind.size : PageKind → Nat
  | .ctx => 0x400
  | _ => 0x1000

/-- The global page at BAR0 offset `n * 0x1000` (R30). -/
def globalKind : Nat → PageKind
  | 0 => .glb | 1 => .hif | 2 => .txn | 3 => .clk | 4 => .pwr | 5 => .thm | 6 => .flt | 7 => .bst
  | 8 => .calg | 9 => .msl | 10 => .patg | 11 => .res | 12 => .ras | 13 => .msp | 14 => .lcs | _ => .pmcg

/-- The cluster page at cluster-region offset `n * 0x1000` (R30). -/
def clusterKind : Nat → PageKind
  | 0 => .seq | 1 => .ucs | 2 => .patc | 3 => .acq | 4 => .tdc | 5 => .wfg | 6 => .calc | _ => .pmcc

/-- The area of a byte address of BAR0 (R30). -/
def areaOf (a : Nat) : Area :=
  if a < 0x10000 then .page (globalKind (a / 0x1000)) (a / 0x1000 * 0x1000) (a % 0x1000)
  else if a < 0x20000 then .z64 (a - 0x10000)
  else if a < 0x60000 then .page .dps (a / 0x1000 * 0x1000) (a % 0x1000)
  else if a < 0x80000 then .bcast (a - 0x60000)
  else if 0x100000 ≤ a ∧ a < 0x400000 then .calAp (a - 0x100000)
  else if 0x800000 ≤ a ∧ a < 0x1000000 then
    let r := a % 0x40000
    if r < 0x8000 then .page (clusterKind (r / 0x1000)) (a / 0x1000 * 0x1000) (a % 0x1000)
    else if 0x10000 ≤ r ∧ r < 0x18000 then .page .ctx (a / 0x400 * 0x400) (a % 0x400)
    else if 0x20000 ≤ r then .page .pin (a / 0x1000 * 0x1000) (a % 0x1000)
    else .hole
  else .hole

/-- The region of cluster `n` (R30). -/
def clBase (n : Nat) : Nat := 0x800000 + n * 0x40000
/-- The PIN page of global channel `g` (R7, R30). -/
def pinBase (g : Nat) : Nat := clBase (g / 32) + 0x20000 + g % 32 * 0x1000
/-- The register set of context `c` (R7, R30). -/
def ctxBase (c : Nat) : Nat := clBase (c / 32) + 0x10000 + c % 32 * 0x400
/-- The page of device-power channel `d` (R30). -/
def dpsBase (d : Nat) : Nat := 0x20000 + d * 0x1000
/-- The SEQ page of cluster `n`. -/
def seqBase (n : Nat) : Nat := clBase n
/-- The UCS page of cluster `n`. -/
def ucsBase (n : Nat) : Nat := clBase n + 0x1000
/-- The PAT page of cluster `n`. -/
def patcBase (n : Nat) : Nat := clBase n + 0x2000
/-- The ACQ page of cluster `n`. -/
def acqBase (n : Nat) : Nat := clBase n + 0x3000
/-- The TDC page of cluster `n`. -/
def tdccBase (n : Nat) : Nat := clBase n + 0x4000
/-- The WFG page of cluster `n`. -/
def wfgBase (n : Nat) : Nat := clBase n + 0x5000
/-- The CAL page of cluster `n`. -/
def calcBase (n : Nat) : Nat := clBase n + 0x6000
/-- The PMC page of cluster `n`. -/
def pmccBase (n : Nat) : Nat := clBase n + 0x7000
/-- The SEQ page that holds the blanking timers of range `r` (R73): cluster 4r. -/
def blankBase (r : Nat) : Nat := seqBase (4 * r)
def glbB : Nat := 0x0
def hifB : Nat := 0x1000
def txnB : Nat := 0x2000
def clkB : Nat := 0x3000
def pwrB : Nat := 0x4000
def thmB : Nat := 0x5000
def fltB : Nat := 0x6000
def bstB : Nat := 0x7000
def calB : Nat := 0x8000
def mslB : Nat := 0x9000
def patB : Nat := 0xA000
def resB : Nat := 0xB000
def rasB : Nat := 0xC000
def mspB : Nat := 0xD000
def lcsB : Nat := 0xE000
def pmcB : Nat := 0xF000

/-- The cluster a page belongs to: by its region, or for a DPS page the cluster of the channel (R3, R7). -/
def pageCluster (kind : PageKind) (base : Nat) : Option Nat :=
  match kind with
  | .dps => some ((base - 0x20000) / 0x1000 / 2)
  | .seq | .ucs | .patc | .acq | .tdc | .wfg | .calc | .pmcc | .ctx | .pin => some ((base - 0x800000) / 0x40000)
  | _ => none

/-- PG_ID.TYPE, and the TYPE of a fault source word (R31, R421). -/
def PageKind.code : PageKind → Nat
  | .glb => 0x01 | .hif => 0x02 | .txn => 0x03 | .clk => 0x04 | .pwr => 0x05 | .thm => 0x06 | .flt => 0x07 | .bst => 0x08
  | .calg => 0x09 | .msl => 0x0A | .patg => 0x0B | .res => 0x0C | .ras => 0x0D | .msp => 0x0E | .lcs => 0x0F
  | .pmcg => 0x10 | .dps => 0x11 | .seq => 0x20 | .ucs => 0x21 | .patc => 0x22 | .acq => 0x23 | .tdc => 0x24
  | .wfg => 0x25 | .calc => 0x26 | .pmcc => 0x27 | .pin => 0x28 | .ctx => 0x00

/-- PG_CAP of each page (R496 and the page rules of the chapters). -/
def PageKind.cap : PageKind → Nat
  | .glb => 0 | .hif => 0x00000508 | .txn => 0x10000008 | .clk => 0x00000408 | .pwr => 0x00000520 | .thm => 0x00000530
  | .flt => 0x00002901 | .bst => 0x00000408 | .calg => 0x00002007 | .msl => 0x00081004 | .patg => 0x00300010
  | .res => 0x00000840 | .ras => 0x00080210 | .msp => 0x00002004 | .lcs => 0x00000005 | .pmcg => 0x00001420
  | .dps => 0x00000408 | .seq => 0x00002020 | .ucs => 0x04000020 | .patc => 0x00000200 | .acq => 0x00010008
  | .tdc => 0x00000240 | .wfg => 0x00001004 | .calc => 0x00000007 | .pmcc => 0x00000540 | .pin => 0x00000FF4
  | .ctx => 0

/-- The PG_IRQ_STAT bits a page uses; all others are reserved. -/
def PageKind.irqMask : PageKind → Nat
  | .txn => 0xFF | .clk => 0xF | .pwr => 0x1F | .thm => 0xF | .flt => 0x1F | .bst => 0xF | .calg => 0x7 | .msl => 0x1FF
  | .patg => 0x7FFFF | .res => 0xFF07 | .ras => 0x7F | .msp => 0x3 | .lcs => 0x1 | .pmcg => 0x3 | .dps => 0x1F
  | .seq => 0x7 | .patc => 0x3 | .acq => 0xF | .tdc => 0x7 | .wfg => 0xC00000FF | .calc => 0xF | .pmcc => 0x1
  | .pin => 0xFF | .glb | .hif | .ucs | .ctx => 0

/-- The PG_FLT_STAT bits a page uses; all others are reserved. -/
def PageKind.fltMask : PageKind → Nat
  | .clk => 0x1F | .pwr => 0x1 | .thm => 0x7 | .bst => 0x1 | .calg => 0x1 | .msl => 0x3F | .patg => 0x7 | .res => 0x1
  | .ras => 0x1 | .msp => 0x1 | .dps => 0xF | .seq => 0x7F | .patc => 0x1 | .acq => 0x3 | .tdc => 0x1
  | .wfg => 0x800000FF | .calc => 0x1 | .pin => 0x7
  | .glb | .hif | .txn | .flt | .lcs | .pmcg | .ucs | .pmcc | .ctx => 0

/-- The MSI-X vector of bit `bit` of a page's PG_IRQ_STAT (R41). -/
def irqVector (kind : PageKind) (base bit : Nat) : Nat :=
  match kind with
  | .glb | .hif | .flt | .clk | .bst | .lcs | .calg | .patg => 0
  | .thm => 1
  | .pwr => 2
  | .msl => 3
  | .txn => 4 + bit / 2
  | .res => 40
  | .ras => 104 + bit
  | .msp => 112
  | .pmcg => 113
  | _ => 8 + (pageCluster kind base).getD 0

/-- The row and the half (`true`: high word) that a page offset falls on, if any. -/
def findRow : List RegRow → Nat → Option (RegRow × Bool)
  | [], _ => none
  | r :: rs, o =>
    let d := o - r.off
    let k := d % r.s1 % r.s2
    if r.off ≤ o ∧ d / r.s1 < r.c1 ∧ d % r.s1 / r.s2 < r.c2 ∧ (k = 0 ∨ (r.wide = true ∧ k = 4))
    then some (r, k == 4) else findRow rs o

/-- The register row at an offset of a page; offsets below 0x040 are the header's. The blanking timers (R73) exist on
the SEQ page of clusters 4r only. -/
def rowAt (kind : PageKind) (base off : Nat) : Option (RegRow × Bool) :=
  if kind.header ∧ off < 0x40 then findRow rowsHDR off
  else if kind = .seq ∧ 0xE00 ≤ off ∧ (base - 0x800000) / 0x40000 % 4 ≠ 0 then none
  else findRow (rowsOf kind) off

/-- Default FLT_CLASS of a source TYPE (R423), two bits for each source bit. -/
def fltClassDefault : Nat → Nat
  | 0x04 => 0x142            -- [0] S, [1] [2] L, [3] [4] C
  | 0x06 => 0x00A            -- [0] [1] S, [2] L
  | 0x0B => 0x014            -- [1] [2] C
  | 0x0C => 0x001            -- [0] C
  | 0x11 => 0x089            -- [0] C, [1] S, [2] L, [3] S
  | 0x20 => 0x1555           -- [6:0] C
  | 0x23 => 0x005            -- [1:0] C
  | 0x25 => 0x5555           -- [7:0] C
  | 0x26 => 0x001            -- [0] C
  | 0x28 => 0x900000015      -- [2:0] C, [16] C, [17] S
  | _ => 0

/-- The bits of FLT_CLASS of a TYPE that are fixed (R423, R424). -/
def fltClassFixed : Nat → Nat
  | 0x04 => 0x3
  | 0x06 => 0xF
  | 0x0A => 0xFF
  | _ => 0

/-- The reset word at a BAR0 byte address: from the register's row; FLT_CLASS has its defaults (R423). -/
def resetWord (a : Nat) : Word :=
  match areaOf a with
  | .page kind base off =>
    if kind = .flt ∧ 0x400 ≤ off then
      let v := fltClassDefault ((off - 0x400) / 8)
      BitVec.ofNat 32 (if off % 8 = 4 then v / 2 ^ 32 else v)
    else match rowAt kind base off with
      | some (r, true) => BitVec.ofNat 32 (r.rst / 2 ^ 32)
      | some (r, false) => BitVec.ofNat 32 r.rst
      | none => 0
  | _ => 0

end Sys2Proof.Machine
end

