-- ==== Sys2Proof/Machine/State.lean ====
section
/-! DEFINITION. The state of the block. Architectural registers are words of one register file (`Dev.regs`); the typed
records hold what the spec gives the block besides its registers. -/

namespace Sys2Proof.Machine

/-! ## Pin channels (03_pin_channel.md) -/

/-- Driver states (R64). -/
inductive Drv where
  | z | l | h | t
  deriving DecidableEq, Repr

/-- Comparator modes (R70, R76); `off` reads (0, 0). -/
inductive CmpMode where
  | off | fast | balanced | monitor | sentinel
  deriving DecidableEq, Repr

/-- Timed sequences of a pin: the span sequence to 0 V and back (R61), the enable slew (R89), the disable slew (R90). -/
inductive PinPhase where
  | idle | spanToZero | spanFromZero | enaSlew | disSlew
  deriving DecidableEq, Repr

/-- A load strobe as a channel sees it: its time, its cluster and the contexts that fired it by their own LDSTB (R190). -/
structure Stb where
  t    : Nat
  cl   : Nat
  ctxs : List Nat
  deriving DecidableEq, Repr

/-- A held load strobe: its sources (WFG_STB_SRC), the contexts that fired it, its time. -/
structure HeldStb where
  src  : Nat
  ctxs : List Nat
  t    : Nat
  deriving DecidableEq, Repr

/-- An open comparator window (R84): expects CH (`high`) or CL, and whether the expectation has failed. -/
structure Win where
  high   : Bool
  failed : Bool
  deriving DecidableEq, Repr

/-- A drive edge as the timing generator fired it (R80): generator, time at the tip, time of the internal edge, direction. -/
structure DEdge where
  k    : Nat
  tip  : Nat
  fire : Int
  rise : Bool
  deriving DecidableEq, Repr

/-- A strobe as the device took it (R80): the time it stands for at the tip, and the time at which the comparator was sampled. -/
structure Smp where
  tip   : Nat
  taken : Int
  deriving DecidableEq, Repr

/-- The internal state of one pin channel. Its registers, comparator outputs and status bits are in the register file. -/
structure Pin where
  owner   : Option Nat := none     -- context that owns the channel (R13)
  slot    : Nat := 0               -- its site slot in that context
  drv     : Drv := .z
  rawCH   : Bool := false          -- comparator state before any hold of the outputs
  rawCL   : Bool := false
  cmp     : CmpMode := .off        -- mode in force
  mode    : CmpMode := .balanced   -- PIN_CMP.MODE as the last load strobe took it (R58)
  hyst    : Nat := 2               -- PIN_CMP.HYST, PIN_CLAMP.LO_MARGIN and PIN_LVL_STEP.STEP in force (R59)
  margin  : Nat := 4
  step    : Nat := 0
  bsel    : Nat := 0               -- PIN_CMP.BLANK in force (R59)
  blank   : Bool := false          -- blanked now (R74)
  clamp   : Bool := false
  pull    : Bool := true
  tgt     : List Nat := [0x40000, 0x40000, 0x40000, 0x40000, 0x40000, 0x40000] -- slew targets, VIH to VCH
  spanTgt : Nat := 1               -- span a running sequence moves to
  phase   : PinPhase := .idle
  enaSpan : Bool := false          -- the running span sequence belongs to an enable (R89 step 2)
  defer   : Option Stb := none     -- deferred strobe (R63)
  wset    : Nat := 0               -- active wave set
  win     : Option Win := none
  safe    : Bool := false          -- forced by a safe state (R92, R93)
  edge    : Option DEdge := none   -- drive edge fired last
  smp     : Option Smp := none     -- strobe taken last
  busT    : Option Nat := none     -- when its bus switch changed last (R271)
  deriving DecidableEq, Repr

/-! ## Per-pin force and measure (07_force_measure.md) -/

/-- The sequences of R193. -/
inductive PmuSeq where
  | none | connect | engage | zero | release | disconnect | range
  deriving DecidableEq, Repr

/-- One averaging of conversions (R206): conversions taken, their sum, and the special ones met. -/
structure Avg where
  n   : Nat := 0
  sum : Int := 0
  inv : Bool := false
  hi  : Bool := false
  lo  : Bool := false
  deriving DecidableEq, Repr

/-- A CONTEXT sample schedule (R207): its anchor and the values read there, the next conversion and output slot. -/
structure Sched where
  on     : Bool := false
  anchor : Nat := 0       -- program time P_a, fine units
  delay  : Nat := 0       -- MTB ticks
  period : Nat := 1600    -- MTB ticks
  count  : Nat := 0
  avgLog : Nat := 0
  k      : Nat := 0       -- next conversion
  slots  : Nat := 0       -- output slots passed
  miss   : Bool := false  -- a conversion of the current slot was not taken
  stop   : Option (Nat × Nat × Nat) := none -- the run has ended: its context, the channel's slot, the program time of the end (R207)
  avg    : Avg := {}
  deriving DecidableEq, Repr

/-- The PMU settings that a load strobe applies (R187), as their registers hold them, MODE and IRANGE normalised (R180, R183). -/
structure PmuSet where
  mode  : Nat := 0
  span  : Nat := 1
  range : Nat := 3
  meas  : Nat := 0
  force : Nat := 0x40000
  clHi  : Nat := 0xFFFFF
  clLo  : Nat := 0
  sine  : Bool := false
  ftw   : Nat := 0
  amp   : Nat := 0
  phase : Nat := 0
  deriving DecidableEq, Repr

/-- The internal state of one PMU. -/
structure Pmu where
  seq     : PmuSeq := .none
  sw      : Bool := false         -- the sequence's last timed switch step has passed
  forces  : Bool := false         -- connect step 3 has passed: the amplifier forces while the switch closes (R194)
  set     : PmuSet := {}          -- settings that the last strobe applied, or that the running sequence takes; retained in DORMANT (R198, R203)
  tgt     : Nat := 0x40000        -- slew target, applied force code
  centre  : Nat := 0x40000        -- slewed code without the sine
  clHi    : Nat := 0xFFFFF        -- clamp codes in force
  clLo    : Nat := 0
  meas    : Nat := 0              -- MEAS in force
  measSw  : Bool := false         -- inside the 1 µs of a measure switch
  defer   : Option Stb := none    -- deferred strobe (R198)
  atEna   : Option PmuSet := none -- settings of a strobe during enabling, for step 3 of R89 (R201)
  park    : Bool := false         -- the running disconnect ends in park (R202)
  back    : Bool := false         -- the retained settings reconnect when the running disconnect ends (R203)
  zWait   : Bool := false         -- a zero transit waits for the sine's crossing before it slews (R195)
  acc     : Nat := 0              -- sine accumulator A
  sineReq : Bool := false         -- sine to start when CENTRE is reached (R212)
  sineEnd : Bool := false         -- sine runs to its next zero crossing
  amp     : Nat := 0              -- amplitude in force; a new one waits for a crossing
  host    : Avg := {}             -- HOST measurement in progress
  hostLog : Nat := 0
  free    : Avg := {}
  sched   : Sched := {}
  alarmN  : Nat := 0              -- consecutive alarm violations (R210)
  deriving DecidableEq, Repr

/-! ## Device power channels (08_device_power_channels.md) -/

/-- The device-power settings that a load strobe applies (R225), as the registers of the channel or its leader hold them. -/
structure DpsSet where
  out    : Bool := false
  sense  : Bool := true
  irange : Nat := 0
  force  : Nat := 0x80000
  ilim   : Nat := 0x80000
  deriving DecidableEq, Repr

/-- The internal state of one device-power channel; STATE is in PG_STAT. -/
structure Dps where
  set     : DpsSet := {}          -- settings that the last strobe applied
  held    : Option HeldStb := none -- strobe held for the gang that the channel leads (R230)
  tgt     : Nat := 0x80000
  ilim    : Nat := 0x80000        -- current-limit code in force
  irange  : Nat := 0              -- range in force
  loop    : Bool := false         -- regulation loop closed
  q3      : Bool := true          -- discharge switch on
  defer   : Option Stb := none
  sOpen   : Bool := false         -- remote sense lost until the next turn-on (R219)
  guard   : Bool := false         -- the guard acts (R232)
  below   : Bool := false         -- sensed output below DPS_UV
  host    : Avg := {}
  hostI   : Avg := {}
  hostLog : Nat := 0
  hostBusy : Bool := false
  free    : Avg := {}
  freeI   : Avg := {}
  sched   : Sched := {}
  schedI  : Avg := {}
  safeOf  : List Nat := []        -- clusters whose safe state forced the channel (R93, R229, R231)
  deriving DecidableEq, Repr

/-! ## Contexts: image header, sequencer state and pump (04_vector_programs.md, 05_sequencer_microcode.md, 06) -/

/-- The image header as loaded (R97), with the image's base address. -/
structure Hdr where
  base      : Nat := 0
  slots     : Nat := 0
  mux       : Nat := 1
  tv        : Nat := 0
  entry     : Nat := 0
  opsOff    : Nat := 0
  opsCount  : Nat := 0
  granBytes : Nat := 0
  symOff    : Nat := 0
  symCount  : Nat := 0
  timOff    : Nat := 0
  timCount  : Nat := 0
  wsmCount  : Nat := 0
  wsmOff    : Nat := 0
  auxOff    : Nat := 0
  redOff    : Nat := 0
  redCount  : Nat := 0
  maskCount : Nat := 0
  lvlCount  : Nat := 0
  deriving DecidableEq, Repr

/-- Kinds of stack frames (R112, R132). -/
inductive FKind where
  | loop | mtch | ret
  deriving DecidableEq, Repr

/-- A stack frame (R112): kind, op index of the op that pushed it, and count. For a match frame: whether it was pushed in the
chain being walked (R137), the first program vector of its iteration (`none`: the next boundary), and REPORT = 0 (R116). -/
structure Frame where
  kind  : FKind
  op    : Nat
  count : Nat
  fresh : Bool := false
  v0    : Option Nat := none
  quiet : Bool := false
  deriving DecidableEq, Repr

/-- Descriptor kinds (R132, DSET KIND). -/
inductive DKind where
  | block | rpt | gap | none
  deriving DecidableEq, Repr

/-- A block descriptor (R132, R137). -/
structure Desc where
  gran  : Nat := 0
  count : Nat := 0
  kind  : DKind := .block
  map   : Nat := 0
  clrf  : Bool := false
  last  : Bool := false
  act   : Bool := false
  opidx : Nat := 0
  deriving DecidableEq, Repr

/-- Action entries of a leaf (R132, DACT). -/
inductive Act where
  | acq (sub mask desc : Nat)
  | ldstb (off : Nat)
  | mark (cause : Nat)
  | systime
  deriving DecidableEq, Repr

/-- A leaf of a decision table (R137): descriptor, actions, key, the HALT cause of an error path (R141), and the state that a
settle brings (R139): the op at which the next chain starts, stack, map and HF. -/
structure Leaf where
  desc  : Desc := {}
  acts  : List Act := []
  care  : Nat := 0
  value : Nat := 0
  halt  : Option Nat := none
  next  : Nat := 0
  stack : List Frame := []
  map   : Nat := 0
  hf    : Nat := 0
  deriving DecidableEq, Repr

/-- What a decision table was built for (R139, R140, R147). -/
inductive TTag where
  | decide | redirect | stop | react
  deriving DecidableEq, Repr

/-- A decision table (R137): leaves in DLEAF order, the MATCH mask with the first vector of the judged iteration, and its
purpose. -/
structure Table where
  leaves : List Leaf := []
  mmask  : Option Nat := none
  mfrom  : Nat := 0
  tag    : TTag := .decide
  deriving DecidableEq, Repr

/-- The kind of the granule being emitted: a program granule of the image, a CALGAP granule, a hold granule. -/
inductive GKind where
  | prog (g : Nat) | gap | hold
  deriving DecidableEq, Repr

/-- The successor fixed at a latch (R121, R138): the next granule of the running op, a selected leaf, a hold granule
with its cause (0 for backpressure alone, else R169), or a stop at the boundary. -/
inductive Succ where
  | cont
  | leaf (l : Leaf) (tag : TTag)
  | hold (cause : Nat)
  | strict (cause : Nat)
  | maskStop
  deriving DecidableEq, Repr

/-- A hold gap in progress (R170, R317): backpressure or underrun, its last cause, h so far, the program granule
index, and the time of the first hold granule. -/
structure Gap where
  bp    : Bool
  cause : Nat
  h     : Nat
  gidx  : Nat
  t     : Nat
  deriving DecidableEq, Repr

/-! ## Acquisition (11_acquisition_reduction.md) -/

/-- Input sources (R280). -/
inductive Src where
  | strobe | cmp | pmu | dpsV | dpsI | tdcRes | tdcStamp
  deriving DecidableEq, Repr

/-- One input of the acquisition (R275). Fields that a source does not use hold their defaults. -/
structure Inp where
  src    : Src
  slot   : Nat := 0        -- site slot, or range-local device-power channel
  fail   : Bool := false   -- strobe or window result failed
  expect : Bool := false   -- the strobe had an expectation
  win    : Bool := false   -- a window result
  ch     : Bool := false
  cl     : Bool := false
  edge   : Nat := 0
  val    : Int := 0
  ptime  : Nat := 0
  n      : Nat := 0
  status : Nat := 0
  inv    : Bool := false
  sat    : Bool := false
  lost   : Bool := false
  dead   : Bool := false
  seq    : Nat := 0
  code   : Nat := 0
  interp : Bool := false
  freq   : Bool := false   -- a TDC result of FUNC FREQ
  t0     : Nat := 0        -- T0 of a TDC result (R243)
  deriving DecidableEq, Repr

/-- A sinter accumulator: the union of what the reduction kinds of R288 to R293 keep. -/
structure Acc where
  n        : Nat := 0
  mn       : Int := 0x7FFFF
  mx       : Int := -0x80000
  sum      : Int := 0
  sumsq    : Nat := 0
  under    : Nat := 0
  ovr      : Nat := 0
  excl     : Nat := 0
  bins     : Tab Nat := []
  fails    : Nat := 0
  fvecs    : Nat := 0
  lastFv   : Option Nat := none
  firstV   : Option Nat := none
  firstS   : Nat := 0xFF
  firstE   : Nat := 0
  viol     : Nat := 0
  tested   : Nat := 0
  k        : Nat := 0
  firstK   : Option Nat := none
  firstVal : Int := 0
  period   : Int := 0
  lastN    : Nat := 0
  meas     : Nat := 0
  verdict  : Nat := 0
  status   : Nat := 0
  flags    : Nat := 0
  deriving DecidableEq, Repr

/-- States of a reduction slot (R282, R283, R294). -/
inductive SlSt where
  | closed | live | stopped | error
  deriving DecidableEq, Repr

/-- Trigger state of a TRIGGER slot (R296). -/
structure Trg where
  st      : Tab Nat := []            -- per site slot: 1 + {pass?, fail?, CH, CL} of its last strobe; 0 none
  armed   : Bool := true
  aRun    : Nat := 0                 -- consecutive vectors at which A held
  wait    : Option Nat := none       -- vector at which A held, waiting for B
  fires   : Nat := 0
  lastV   : Option Nat := none
  deadV   : Nat := 0
  missed  : Nat := 0
  prevDead : Nat := 0
  prevMiss : Nat := 0
  released : Bool := false           -- A has failed to hold since the fire
  aPrev   : Bool := false
  deriving DecidableEq, Repr

/-- A CAP_CMP group being gathered for one site slot (R299). -/
structure CapG where
  v0    : Nat := 0
  cap   : Nat := 0
  valid : Nat := 0
  flags : Nat := 0
  deriving DecidableEq, Repr

/-- One reduction slot (sinter). -/
structure ASlot where
  st     : SlSt := .closed
  kind   : Nat := 0
  src    : Nat := 0
  flags  : Nat := 0
  ext    : Nat := 0
  p0     : Nat := 0
  p1     : Nat := 0
  sel    : Nat := 0                  -- SLOTS, 128 bits
  desc   : Nat := 0                  -- descriptor index
  units  : List Nat := []            -- extension units, 256 bits each
  opened : Nat := 0                  -- boundary at which it was opened or reset
  accs   : Tab Acc := []
  tok    : Nat := 64
  tokT   : Nat := 0                  -- program time up to which tokens are counted
  lost   : Nat := 0                  -- records lost in the gap in progress
  lostF  : Nat := 0
  lostL  : Nat := 0
  fmG    : Option Nat := none        -- FAILMAP granule being gathered
  fmMap  : Nat := 0
  fmN    : Nat := 0                  -- failing granules counted
  grp    : Tab CapG := []
  trg    : Trg := {}
  stopBy : Bool := false             -- its violation stopped the slot or the context
  deriving DecidableEq, Repr

/-- A result record produced but not yet numbered: effective vector, reduction slot, then TYPE, STATUS, PART and the
payload bytes 8 to 31 as six words (R278, R285, R304). -/
structure Due where
  v      : Nat
  slot   : Nat
  type   : Nat
  status : Nat
  part   : Nat
  pay    : List Word
  deriving DecidableEq, Repr

/-- A STOP_CTX violation that is due (R294): its effective vector and slot. -/
structure MStop where
  v    : Nat
  slot : Nat
  deriving DecidableEq, Repr

/-- A span of consecutive hold vectors or program vectors of a run (R244): the system time of its first vector, and the program vectors before it. -/
structure Span where
  s    : Nat
  hold : Bool
  v    : Nat
  deriving DecidableEq, Repr

/-- The internal state of one context; CTX_STATE, CTX_VIDX, CTX_HOLDS, CTX_OPIDX and the CTX_SEQ registers are in the
register file. -/
structure Ctx where
  hdr     : Option Hdr := none
  quota   : Nat := 0                 -- QUOTA as fixed at the arm (R166)
  site    : List Nat := []           -- global channels in slot order, while it owns them
  stack   : List Frame := []         -- committed stack, bottom first (R112)
  opidx   : Nat := 0                 -- committed OPIDX
  map     : Nat := 0                 -- committed wave-set map
  hf      : Nat := 0
  table   : Option Table := none     -- pending decision table
  chosen  : Option Leaf := none      -- leaf consumed at a latch and not settled yet (R139)
  cur     : Option Desc := none      -- op being emitted
  curPos  : Nat := 0                 -- granule of that op being emitted
  gk      : GKind := .hold           -- kind of the granule being emitted
  vec     : Nat := 0                 -- vectors of that granule emitted
  crec    : Option (Bool × Nat) := none -- record of the granule that started last: stream window or not, sequence or granule index
  nkey    : Option (Bool × Nat) := none -- record that the last latch found resident for the successor (R168)
  succ    : Option Succ := none      -- fixed at the last latch
  want    : Option Succ := none      -- successor awaited during a gap (R170)
  s       : Nat := 0                 -- system time S of the next vector
  spans   : List Span := []          -- spans of hold and program vectors of the run, newest first (R244)
  req     : Nat := 0                 -- pending request: 1 redirect, 2 stop (R132)
  reqKeep : Bool := false
  reqTgt  : Nat := 0
  failV   : Option Nat := none       -- first failing vector of the fail window (R115)
  itFails : List (Nat × Nat) := []   -- failing (vector, slot) since the outermost match frame (R116)
  loop    : Bool := false            -- the op that is emitted lies in a match loop (R116)
  quiet   : Bool := false            -- it lies in one with REPORT = 0
  ptrig   : List Nat := []           -- fire vectors not yet consumed by a decision
  gapEnd  : Option Nat := none       -- time at which its last CALGAP op with ACT = 1 ended (R379)
  trig    : Nat := 0                 -- [0] TRIG0, [1] TRIG1, [2] MSLTRIG since the previous decision
  gap     : Option Gap := none
  bpHold  : Bool := false            -- holding for backpressure (R316)
  hostT   : Bool := false            -- HOST_TIMED mark written in this run
  ldstb   : List Nat := []           -- strobe offsets due in the granule being emitted
  seq     : Nat := 0                 -- SEQ of the next result record
  aseq    : Nat := 0
  run     : Nat := 0
  runNext : Nat := 0                 -- number of the next run (R306)
  crc     : Word := 0xFFFFFFFF       -- running stream CRC (R320)
  isOpen  : Bool := false           -- a run is open: RUN_START written, RUN_END not yet
  endSt   : Option (Nat × Nat) := none -- end state and cause, RUN_END waiting for late inputs (R276)
  late    : Option Nat := none       -- start executed late: effect time of its tick (R22)
  slots   : Tab ASlot := []          -- reduction slots 0 to 7
  aTo     : Nat := 0                 -- program vectors whose inputs are complete in the acquisition
  inbox   : List (Nat × Inp) := []   -- inputs not yet taken, by effective vector
  due     : List Due := []           -- records not yet numbered, in the order of R278
  mstop   : List MStop := []
  endActs : List Act := []           -- ACQ ops of the chain behind the last vector, which wait for the run's last inputs (R119, R276)
  deriving DecidableEq, Repr

/-! ## The microengine of a cluster (05_sequencer_microcode.md) -/

/-- A routine waiting for the engine (R134, R135): entry slot, context, an argument (the image address of a LOAD, the
UNLOAD bit of a CLEAR, the cause of a REACT), and how often it has been abandoned in a row (R144). -/
structure Rtn where
  slot : Nat
  ctx  : Nat
  arg  : Nat := 0
  aband : Nat := 0
  deriving DecidableEq, Repr

/-- One open path of the chain walk (R139, R141). -/
structure Path where
  opidx : Nat
  stack : List Frame
  map   : Nat
  hf    : Nat
  care  : Nat := 0
  value : Nat := 0
  acts  : List Act := []
  clrf  : Bool := false
  n     : Nat := 0                  -- control ops met (R111)
  judged : Bool := false            -- a match iteration was judged on this path (R137)
  deriving DecidableEq, Repr

/-- The state of the routine that runs (R128, R142): working registers, flags, micro call stack, write buffer,
descriptor builder, shadow context state and stack, op latch, tail. -/
structure URun where
  rtn     : Rtn
  upc     : Nat := 0
  w       : List Nat := [0, 0, 0, 0, 0, 0, 0, 0]
  z       : Bool := false
  n       : Bool := false
  c       : Bool := false
  calls   : List Nat := []
  wbuf    : List (Nat × Nat) := []
  leaves  : List Leaf := []
  nact    : Nat := 0
  desc    : Desc := {}
  acts    : List Act := []
  mmask   : Option Nat := none
  mfrom   : Nat := 0
  mframe  : Option (Nat × Nat) := none -- depth and op of the judged match frame
  halt    : Option Nat := none
  hostT   : Bool := false
  opidx   : Nat := 0
  map     : Nat := 0
  hf      : Nat := 0
  stage   : Nat := 0
  stack   : List Frame := []
  latch   : BitVec 64 := 0
  outside : Bool := false
  tail    : Option Nat := none
  guarded : Bool := false
  begun   : Bool := false           -- the chain walk has begun
  work    : List Path := []         -- open paths in walk order
  ovf     : Bool := false           -- a ninth leaf or a 65th action entry (R133)
  ops     : List (Nat × Nat) := []  -- ops that the walk has handled, with their opcodes (R461)
  deriving DecidableEq, Repr

/-- The sequencer of a cluster: routines waiting in arrival order, the one that runs, the words of the store that its op cache holds by their byte
addresses, oldest first, the committed stages of a staged SERVICE routine, patch RAM words and the words whose parity is bad (R128, R133, R146, R159). -/
structure Eng where
  queue : List Rtn := []
  run   : Option URun := none
  opc   : List (Nat × Nat) := []
  svc   : Nat := 0
  pram  : Tab Nat := []
  pbad  : List Nat := []
  deriving DecidableEq, Repr

/-! ## Time measurement (09_time_measurement.md) -/

/-- One entry of a stamp FIFO (R245, R254): stamp, event code, interpolator, flags, sequence number. -/
structure TdcEnt where
  time   : Nat
  event  : Nat
  interp : Bool := false
  dead   : Bool := false
  lost   : Bool := false
  seq    : Nat := 0
  ctx    : Option Nat := none      -- the context it goes to; none in HOST mode
  slot   : Nat := 0                -- the channel's slot in it
  deriving DecidableEq, Repr

/-- The regression sums of one run of events (R247, R248): first stamp, events, Σ u and Σ k·u. -/
structure TdcRun where
  t0  : Nat
  sp  : Nat := 0                   -- the span of the run's events: a hold between two events parts them (R248)
  n   : Nat := 1
  su  : Nat := 0
  sku : Nat := 0
  deriving DecidableEq, Repr

/-- A measurement that has closed and whose result is not written or sent yet (R243). -/
structure TdcRes where
  status : Nat
  n      : Nat := 0
  value  : Nat := 0
  t0     : Nat := 0
  dead   : Bool := false
  ctx    : Option Nat := none
  slot   : Nat := 0                -- the channel's slot in it
  close  : Nat := 0                -- time of the close, program time for a context
  freq   : Bool := false
  deriving DecidableEq, Repr

/-- The internal state of one TDC; STATE and LEVEL are in TDC_STAT. -/
structure Tdc where
  ta     : Nat := 0                -- arm time: system time in HOST, program time in CONTEXT
  func   : Nat := 0                -- FUNC and TIMEOUT as read at the arm (R252)
  lim    : Nat := 0x667
  nxt    : Option Nat := none      -- arm time of a HOST arming that cuts the open measurement there (R240)
  tips   : List Nat := []          -- MARKs of emitted vectors whose time at the tip has not been passed (R80, R244)
  start  : Option Nat := none      -- start of the interval
  stops  : Nat := 0                -- STOP_SRC events since the start
  n      : Nat := 0                -- stamps delivered or events taken
  runs   : List TdcRun := []       -- newest first
  nextB  : Bool := false           -- the next accepted event goes to interpolator B
  last   : Option Nat := none      -- last accepted comparator event
  dead   : Bool := false           -- a rejection since the last delivered stamp
  deadM  : Bool := false           -- a rejection in the open measurement
  ctx    : Option Nat := none      -- the context whose MARK armed it; none in HOST mode
  lost   : Bool := false           -- a loss since the last delivered stamp or result
  seq    : Nat := 0
  popSeq : Nat := 0
  fifo   : List TdcEnt := []
  tok    : Nat := 64
  goWait : Bool := false           -- a GO waits for the end of a code-density slice
  res    : List TdcRes := []
  deriving DecidableEq, Repr

/-! ## Waveform generators (10_waveform_synthesis.md) -/

/-- A segment: the fields of its entry read at the latch that selected it, and the amplitude as corrected there. -/
structure Seg where
  entry  : Nat
  ftw    : Nat
  phase  : Nat
  amp    : Nat
  offset : Int
  len    : Nat
  next   : Nat
  stop   : Bool
  deriving DecidableEq, Repr

/-- What a latch fixed for the next boundary (R260 to R264). -/
inductive GNext where
  | cont
  | seg (s : Seg) (jump : Bool)
  | stop (cause : Nat)
  deriving DecidableEq, Repr

/-- A start request that waits for the end of a slice (R272). -/
structure GenStart where
  own  : List Nat     -- contexts whose own start or strobe it is (R267)
  late : Nat          -- delay of a late owner start, in ticks (R266)
  deriving DecidableEq, Repr

/-- The internal state of one waveform generator; STATE, ENTRY, GRAN and D are in its registers. -/
structure Gen where
  seg    : Option Seg := none
  gran   : Nat := 0                 -- granule of the segment that plays
  n0     : Nat := 0                 -- time base n of the first sample of that granule
  lat    : Option GNext := none     -- fixed for the next boundary
  jump   : Option Nat := none       -- pending jump
  stop   : Bool := false            -- pending stop
  stopC  : Nat := 1                 -- cause of the pending stop
  startW : Option GenStart := none  -- a start waits for the end of a slice
  route  : Nat := 0                 -- routed channels in force
  kept   : Nat := 0                 -- channels that DORMANT disconnected (R272)
  own    : Option Nat := none       -- owner in force (R265)
  code   : Int := 0                 -- code at the AC source DAC
  e1     : Int := 0                 -- error feedback
  e2     : Int := 0
  lfsr   : Nat := 0xACE1
  deriving DecidableEq, Repr

/-! ## Clusters: strobes, slices, cache (06, 07, 15, 17, 19) -/

/-- The strobe that a cluster acted on last: its t_s, its sources, the contexts whose LDSTB has fired it, and those with the ones whose LDSTB falls on the
same vector-clock edge (R117, R188). -/
structure StbCyc where
  t     : Nat
  src   : Nat
  fired : List Nat
  ctxs  : List Nat
  deriving DecidableEq, Repr

/-- A running self-test slice (R439, R444): test, part, steps completed, output words so far, start time, GO waiting. -/
structure BSlice where
  test  : Nat
  part  : Nat
  t0    : Nat
  cut   : Bool := false          -- stopped early (R441)
  deriving DecidableEq, Repr

/-- The unregistered state of a cluster. -/
structure Clu where
  cyc     : Option StbCyc := none     -- strobe that acted last (R188)
  held    : Option HeldStb := none    -- strobe held in NAP, DORMANT, a slice or a gang wait
  calHeld : Option HeldStb := none    -- strobe held for the channels of a calibration slice (R376)
  gap     : Option Nat := none        -- context whose CALGAP op the running calibration slice uses (R373)
  slice   : Nat := 0                  -- calibration kind running; 0 none
  bst     : Option BSlice := none
  tdWait  : Bool := false             -- a touchdown flip waits for the wake (R379)
  failT   : Tab Nat := []             -- per kind whose last run failed: the temperature of that run (R371)
  failAt  : Tab Nat := []             -- and its time
  calEnd  : Option CalOut := none     -- what an ended slice writes once the preparation is over (R376)
  cap     : Option (List Word) := none -- sample capture waiting for PMC_SAMPLE (R461)
  wordsP  : Nat := 0                  -- microwords issued by the running routine, not yet classed (R460)
  saving  : Bool := false             -- retention save runs (R402)
  pmuBack : List Nat := []            -- PMUs disconnected for DORMANT, to reconnect at the wake (R203, R402)
  aim     : Nat := 0                  -- state a wake in progress ends in
  rstWait : Bool := false             -- a cluster reset waits for the end of a self-test slice (R471)
  bufHi   : Nat := 0                  -- backpressure: 1 while the buffer is above HIGH and has not fallen to LOW
  deriving DecidableEq, Repr

/-- A granule record in a vector cache (R164, R165): its context, key (program granule index, or window sequence) and
bytes. Oldest use first in the list that holds it. -/
structure CRec where
  ctx  : Nat
  key  : Nat
  win  : Bool := false
  data : List Byte := []             -- the record as it was read (R159)
  bad  : Bool := false               -- its lines hold an uncorrectable error (R164)
  deriving DecidableEq, Repr

/-- A fill requested and not complete (R165). -/
structure Fill where
  ctx  : Nat
  key  : Nat
  win  : Bool := false
  deriving DecidableEq, Repr

/-- A stream's descriptor in progress (R176): host address, records left, TAG, IRQ. -/
structure SDesc where
  addr : Nat
  left : Nat
  tag  : Nat
  irq  : Bool
  deriving DecidableEq, Repr

/-! ## Results (12_result_delivery.md) -/

/-- Where a record goes (R310): a ring, a mailbox, or nowhere. -/
inductive Dest where
  | ring (k : Nat) | mb (m : Nat)
  deriving DecidableEq, Repr

/-- A record in a cluster's output buffer: cluster, context, lane (annotation or result), destination, 32 bytes. -/
structure BRec where
  cl    : Nat
  ctx   : Nat
  run   : Nat
  annot : Bool
  dest  : Dest
  words : List Word
  deriving DecidableEq, Repr

/-! ## Transactions and the host interface (02_host_registers.md) -/

/-- A transaction slot (R43 to R51): staged writes, oldest first, as byte address, mask of staged bits and value; the
commit point; what it waits for. State and flags are in TXN_STAT. -/
structure TSlot where
  writes : List (Nat × Nat × Nat) := []
  ovr    : Bool := false
  point  : Nat := 0
  target : Nat := 0
  pendT  : Nat := 0                  -- system time at which it entered PENDING
  tick   : Option Nat := none        -- effect time of the tick it is assigned to (R354)
  waitT  : Option Nat := none        -- commit point that waits for a self-test slice (R50)
  deriving DecidableEq, Repr

/-- An access held during a soft reset or a cluster reset (R471, R497). `odd`: the double words of a request that does not conform (R32); `frame`:
the data words of a READ frame of the MSP. -/
structure HAcc where
  port  : HPort
  addr  : Nat
  wide  : Bool
  write : Bool
  val   : Nat
  odd   : Option Nat := none
  frame : Option Nat := none
  deriving DecidableEq, Repr

/-- The PCI Express side (R27 to R29, R42, R498): accesses served, MSI-X enable and masks (a vector is masked until it is opened), pending bits, power state. -/
structure Hif where
  served : Bool := false
  enable : Bool := false
  fmask  : Bool := false
  vopen  : List Nat := []          -- vectors whose mask bit is 0
  pba    : List Nat := []
  d3     : Bool := false
  held   : List HAcc := []
  mtab   : Tab Word := []          -- MSI-X table: words 0 to 2 of entry v (message address and data) at 4 × v (R29)
  cmd    : Nat := 0                -- command register of the configuration space (R498)
  bars   : Tab Word := []          -- BAR assignments
  deriving DecidableEq, Repr

/-! ## Sync link (14_system_sync.md) -/

/-- A message of the sync link (R342) without its CRC. -/
structure Msg where
  kind : Nat
  seq  : Nat
  num  : Nat
  time : Nat
  arg  : Nat
  deriving DecidableEq, Repr

/-- The unregistered state of a link port. -/
structure LPort where
  txSeq  : Nat := 0
  rxSeq  : Nat := 0
  unack  : List Msg := []
  t1     : Option Nat := none      -- departure of the DELAY_REQ in flight
  xN     : Nat := 0                -- exchanges of the calibration in progress
  xD     : Int := 0                -- sum of their round trips
  xE     : Int := 0                -- sum of t3 - t4
  sized  : Bool := false           -- the port's subtree size has arrived (R341)
  bars   : Nat := 0                -- barriers at which the subtree has arrived (R359)
  single : Bool := false           -- the one exchange after a retrain (R346)
  cald   : Bool := false           -- the port has been UP since it trained: its delay is calibrated (R344, R346)
  rxN    : Nat := 0                -- messages with a SEQ accepted since it trained, at most 128: those whose duplicates are known (R343)
  deriving DecidableEq, Repr

/-- A scheduled event of the sync link: effect time, number, and for a release PARTIAL. -/
structure LEv where
  eff     : Nat
  num     : Nat
  partial_ : Bool := false
  late    : Bool := false          -- counted as late at its arrival
  from_   : Nat := 0               -- the first MTB tick after a late arrival: it acts no earlier (R355, R356)
  deriving DecidableEq, Repr

/-- The sync link outside its registers. -/
structure Lnk where
  ports   : Tab LPort := []
  tickN   : Nat := 0               -- number of the next tick at the root
  tickX   : Nat := 0               -- the tick number that follows without a gap (R354)
  ticks   : List LEv := []
  trigs   : List LEv := []
  rels    : List LEv := []
  arrived : Nat := 0               -- barriers at which this device has arrived
  sent    : Nat := 0               -- barriers whose arrival has gone up, or that the root has completed
  gens    : Tab Nat := []          -- barrier generations
  slew    : Int := 0               -- alignment error still to be slewed
  tdN     : Nat := 0               -- touchdown number
  pulses  : List (Nat × Nat) := [] -- pulses of trigger outputs: output and end (R360)
  acted   : List (Nat × Nat) := [] -- triggers that have acted: number and effect time (R357)
  up0     : Bool := false          -- port 0 has been UP since MSL_CTRL.EN was written 1 (R339)
  deriving DecidableEq, Repr

/-! ## Raster engine (13_array_raster.md) -/

/-- An entry of the frame-record or release FIFO: the 64-bit entry word. -/
abbrev RasEnt := Nat

/-- The raster engine outside its registers. A layer set is its eleven words CFG, POS, SIZE, MISC, BASE0 to BASE2, STRIDE. -/
structure Ras where
  lanes   : Tab Nat := []          -- active lane words
  group   : Nat := 0               -- cluster group in use
  front   : List (List Nat) := [[], []]  -- front sets of the two layers; empty before a layer's first flip
  pend    : List (Option (List Nat)) := [none, none]  -- pending layers, as checked at the flip
  flipT   : List Nat := [0, 0]     -- when the pending flips applied
  skips   : List (Nat × Nat) := [] -- replaced flips: layer and tag (R331)
  rects   : List (List Nat) := []  -- rectangles in force: POS, SIZE, EXP
  applyT  : List Nat := []         -- mode applies that wait for their frame start: when they applied
  relock  : Bool := false          -- the clock change is under way (R326 steps 1 and 2)
  done    : Bool := false          -- MODE_DONE is due at the next normal frame
  frames  : List RasEnt := []
  rels    : List RasEnt := []
  popF    : Nat := 0
  popR    : Nat := 0
  flags   : Nat := 0               -- FLAGS of the frame in progress
  started : Bool := false          -- the first frame after an enable has started
  closing : Bool := false          -- EN was written 0; the frame in progress completes
  inFrame : Bool := false
  t0      : Nat := 0               -- P(0) of the frame in progress
  line    : Nat := 0               -- next active line to be driven
  crcs    : List Nat := []         -- running CRCs of the rectangles
  deriving DecidableEq, Repr

/-! ## Power, thermal, faults, self-test, reset (16 to 19, 22) -/

/-- A wake request (R403 to R406): cluster, from DORMANT, request time, promise, whether it queues after all others. -/
structure Wake where
  cl      : Nat
  dorm    : Bool
  t       : Nat
  promise : Option Nat
  low     : Bool
  prio    : Nat
  aim     : Nat := 0
  deriving DecidableEq, Repr

/-- Power management outside its registers. -/
structure Pow where
  queue    : List Wake := []
  prog     : List Wake := []
  free     : Nat := 0              -- earliest next admission (R404)
  avsHold  : Bool := false         -- P3 ceiling of R412
  avsOk    : Bool := false         -- a frame has succeeded since
  avsTry   : Nat := 0
  selfRef  : Bool := false         -- HBM in self-refresh
  stop     : Bool := false         -- HIBERNATE
  deriving DecidableEq, Repr

/-- Thermal state outside its registers: zones 0 to 31 clusters, 32 HBM_A, 33 HBM_B, 34 PHY, 35 CORE. -/
structure Thm where
  warn  : List Nat := []           -- zones with a WARN action
  crit  : List Nat := []           -- zones with a CRIT action
  trip  : Bool := false
  safe  : Nat := 0                 -- clusters in a thermal safe state
  deriving DecidableEq, Repr

/-- Fault collector outside its registers: sources whose detector is active, and for each open shadow the contexts its
reaction still waits for (key 32: the device-scope shadow). -/
structure Flt where
  active : List Nat := []
  waits  : Tab (List Nat) := []
  deriving DecidableEq, Repr

/-- A soft or fused repair (R445, R446). -/
structure Rep where
  cl    : Nat
  elem  : Nat
  spare : Nat
  row   : Nat := 0
  used  : Bool := true
  fused : Bool := false
  bad   : Bool := false
  deriving DecidableEq, Repr

/-- The self-test engine outside its registers: parts of the requested test still to run, as cluster (32 for REF) and part. -/
structure Bst where
  todo  : List (Nat × Nat) := []
  soft  : List Rep := []
  ref   : Option BSlice := none    -- the REF test, which occupies no cluster
  wait  : Option Nat := none       -- a test requested while the fuses are programmed (R447)
  deriving DecidableEq, Repr

/-- Fuses (R2, R5, R27, R447, R475): ordering code, present clusters, stepping, Device Serial Number, life-cycle state,
unlock key fused, repairs. -/
structure Fuse where
  code    : Nat := 0
  present : Nat := 0xFFFFFFFF
  step    : Nat := 0
  dsn     : Nat := 0
  life    : Nat := 2
  key     : Bool := true
  reps    : List Rep := []
  deriving DecidableEq, Repr

/-- Life cycle outside its registers (R476, R477). -/
structure Lcs where
  session : Bool := false
  failT   : Option Nat := none     -- system time of the last failed CHECK
  failOld : Bool := false          -- system time has started again since then
  adv     : Option Nat := none
  deriving DecidableEq, Repr

/-- Resets and supplies (R467 to R472). -/
structure Rst where
  por    : Bool := false           -- POR_N low
  supply : Bool := false           -- internal cold reset asserted
  perst  : Bool := false           -- PERST_N low
  busy   : Option Nat := none      -- a warm reset (0) or Function-Level Reset (1) is not complete
  extest : Bool := false           -- EXTEST has parked the outputs, until a warm reset (R478)
  scan   : List Bool := []         -- boundary-scan cells as preloaded (R478)
  qualN  : Nat := 0                -- failed BKOSC window checks in a row
  bkosc  : Bool := true            -- BKOSC runs
  deriving DecidableEq, Repr

/-- The management serial port outside its registers (R450 to R458). -/
structure Msp where
  flags   : Nat := 0               -- FLAGS not yet reported
  cmd     : Option Nat := none     -- command word of a frame whose words have not all come
  rd      : List Nat := []         -- what a READ frame has still to shift out: the ready word and the data words
  got     : Nat := 0               -- data words of that frame received
  prev    : Nat := 0               -- the word of that frame received last
  drop    : Bool := false          -- the frame is discarded (R455)
  master  : Option Nat := none     -- MSP_CFG.MASTER to take effect at the end of the frame
  srst    : Bool := false          -- a soft reset waits for the end of the frame
  accErr  : Bool := false          -- an access error has been logged since the word in progress began
  sel     : Option Nat := none     -- the select that the master asserts (R457)
  deriving DecidableEq, Repr

/-- The ZH64 window (R480 to R484): bank, TSAT, and per channel and value its low holder and high latch. -/
structure Z64 where
  bank : Nat := 0
  tsat : Bool := false
  lo   : Tab Nat := []
  hi   : Tab Nat := []
  deriving DecidableEq, Repr

/-! ## The block -/

/-- What the block drives outward; the newest first in the list that holds them. -/
inductive Out where
  | msix (v : Nat)                              -- an MSI-X message (R42)
  | hostWr (addr : Nat) (words : List Word)     -- a write to host memory
  | hostRd (addr len : Nat)                     -- a read of host memory; its completion comes with a command
  | link (port : Nat) (w : Nat)                 -- the 128 bits of a sync-link message (R342)
  | trig (i : Nat) (level : Bool) (at_ : Nat)   -- a level of a trigger output and the time from which it is driven (R360)
  | mspOut (w : Nat)                            -- a word shifted out on the MSP
  | mspM (cs n w : Nat)                         -- a master transfer of the MSP: the select, the bits, the value (R457)
  | read (p : HPort) (v : Nat)                   -- the data a read returned
  | jtag (v : Nat)                              -- a word read through JTAG
  deriving DecidableEq, Repr

/-- The block without its queue and its pattern store. -/
structure Dev where
  regs   : Tab Word := []          -- register words by BAR0 byte address
  snap   : Tab Word := []          -- rsnap shadows (R38)
  snapHi : Tab Word := []          -- PG_SNAP_HI holders: page base for PCI Express, page base + 1 for the MSP (R39)
  fuse   : Fuse := {}
  hif    : Hif := {}
  txn    : Tab TSlot := []
  time   : Nat := 0                -- system time in fine units (R348)
  pins   : Tab Pin := []
  pmus   : Tab Pmu := []
  dpss   : Tab Dps := []
  tdcs   : Tab Tdc := []
  gens   : Tab Gen := []
  ctxs   : Tab Ctx := []
  engs   : Tab Eng := []
  clus   : Tab Clu := []
  blankArm : List Nat := []        -- ONESHOT blanking timers armed (R73): 4 × range + timer
  startQ   : List (Nat × Nat) := [] -- starts that wait for the end of a self-test slice, in arrival order: context, time of the request (R16, R443)
  blankOpen : List Nat := []       -- blanking windows open now, by timer; a timer appears once for each of its windows (R73)
  cache  : List CRec := []
  fills  : List Fill := []
  strms  : Tab (Option SDesc) := []
  bufs   : List BRec := []
  mbs    : Tab (List BRec) := []   -- mailbox FIFOs
  coal   : Tab Nat := []           -- per ring, the records written since its interrupt bit was cleared (R313)
  calS   : Tab Byte := []          -- staged calibration tables (R377), by aperture offset
  calA   : Tab Byte := []          -- active banks
  calI   : Tab Byte := []          -- inactive banks
  hist   : Tab Nat := []           -- raw hit counts of the last code-density slice
  lnk    : Lnk := {}
  ras    : Ras := {}
  pow    : Pow := {}
  thm    : Thm := {}
  flt    : Flt := {}
  bst    : Bst := {}
  lcs    : Lcs := {}
  rst    : Rst := {}
  msp    : Msp := {}
  z64    : Z64 := {}
  dumps  : Nat := 0                -- dumps taken since PMC_DUMP_CTRL.EN was set (R463)
  out    : List Out := []
  free   : Nat := 0                -- MODEL'S OWN: index of the next free value (notes/assumptions/2.md)
  deriving DecidableEq, Repr

/-- Why a step stops with a fault. No command of this block stops so: nothing raises it. -/
inductive Fault where
  /-- Raised by nobody: every command of the table has an effect in every state. Safe. -/
  | none
  deriving DecidableEq, Repr

/-- Why a command is refused. -/
inductive Refusal where
  /-- Raised by an arm of `exec` whose command has no meaning yet. Safe. -/
  | notModelled (mnemonic : String)
  deriving DecidableEq, Repr

/-- The state of the block: the commands that wait, first in, first out; the pattern store (R157), whose unlisted
bytes read 0 (R161); and everything else. -/
structure State where
  pending : List Instr := []
  store   : Tab Byte := []
  d       : Dev := {}
  deriving DecidableEq, Repr

/-- What a pattern-store byte reads as when nothing has written it: the clear of R161 leaves 0. -/
def storeDflt : Nat → Byte := fun _ => 0

/-- The state right after a cold reset is released (R394 step 1, R469, R470): clocks in START, POR_N recorded as the
cause, the store clear under way, nothing queued. The LCS page shows the life-cycle state of the fuses (R479): its PG_STAT.STATE and
LCS_STATE read FIELD. -/
def State.reset : State := { d := { regs := [(0xE00C, 0x200), (0xE040, 0x22)] } }

end Sys2Proof.Machine
end

