-- ==== Sys2Proof/Machine/Ops.lean ====
section
/-! DEFINITION. The named operations over the state: register words and fields, saturating counters, the typed records,
free values, interrupts (R41, R42), fault status bits, the access-error log (R33, R34), presence of clusters (R2). -/

namespace Sys2Proof.Machine

/-! ### Register words and fields -/

/-- A register word as a number. -/
def Dev.word (d : Dev) (a : Nat) : Nat := (Tab.get resetWord d.regs a).toNat

/-- Set a register word. -/
def Dev.setWord (d : Dev) (a v : Nat) : Dev := { d with regs := Tab.set resetWord d.regs a (BitVec.ofNat 32 v) }

/-- A number with the bits `[lo + n - 1 : lo]` replaced. -/
def setBits (w lo n v : Nat) : Nat := w - w / 2 ^ lo % 2 ^ n * 2 ^ lo + v % 2 ^ n * 2 ^ lo

/-- Bit `i` of a number. -/
def bitOf (w i : Nat) : Bool := w / 2 ^ i % 2 == 1

/-- The field of a page: one register, or a 64-bit value over two words (R36). -/
def Dev.get (d : Dev) (b : Nat) (f : Fld) : Nat :=
  if f.lo + f.n ≤ 32 then d.word (b + f.off) / 2 ^ f.lo % 2 ^ f.n
  else (d.word (b + f.off) + d.word (b + f.off + 4) * 2 ^ 32) / 2 ^ f.lo % 2 ^ f.n

/-- Set a field of a page; the other bits of its words stay. -/
def Dev.put (d : Dev) (b : Nat) (f : Fld) (v : Nat) : Dev :=
  if f.lo + f.n ≤ 32 then d.setWord (b + f.off) (setBits (d.word (b + f.off)) f.lo f.n v)
  else
    let w := setBits (d.word (b + f.off) + d.word (b + f.off + 4) * 2 ^ 32) f.lo f.n v
    (d.setWord (b + f.off) (w % 2 ^ 32)).setWord (b + f.off + 4) (w / 2 ^ 32)

/-- A field read as a two's complement number. -/
def Dev.sget (d : Dev) (b : Nat) (f : Fld) : Int :=
  let v := d.get b f
  if v < 2 ^ (f.n - 1) then v else (v : Int) - 2 ^ f.n

/-- A number as two's complement bits. -/
def toBits (n : Nat) (x : Int) : Nat := (x % (2 ^ n : Int)).toNat

/-- A one-bit field. -/
def Dev.bit (d : Dev) (b : Nat) (f : Fld) : Bool := d.get b f == 1

/-- Set a one-bit field. -/
def Dev.setb (d : Dev) (b : Nat) (f : Fld) (v : Bool) : Dev := d.put b f (if v then 1 else 0)

/-- Count up, saturating at all ones. -/
def Dev.satAdd (d : Dev) (b : Nat) (f : Fld) (k : Nat) : Dev := d.put b f (Nat.min (d.get b f + k) (2 ^ f.n - 1))

/-- Count one up, saturating at all ones. -/
def Dev.satInc (d : Dev) (b : Nat) (f : Fld) : Dev := d.satAdd b f 1

/-- Set one bit of a field that is a bit map. -/
def Dev.setBitN (d : Dev) (b : Nat) (f : Fld) (i : Nat) (v : Bool) : Dev := d.put b f (setBits (d.get b f) i 1 (if v then 1 else 0))

/-- One bit of a field that is a bit map. -/
def Dev.bitN (d : Dev) (b : Nat) (f : Fld) (i : Nat) : Bool := bitOf (d.get b f) i

/-- The field `k` array strides further on. -/
def Fld.at (f : Fld) (o : Nat) : Fld := { f with off := f.off + o }

/-- Forget what was written to the words in `[lo, hi)`: they read their reset values again. -/
def Dev.dropWords (d : Dev) (lo hi : Nat) : Dev := { d with regs := Tab.dropRange d.regs lo hi }

/-! ### Typed records -/

def Dev.pin (d : Dev) (g : Nat) : Pin := Tab.get (fun _ => {}) d.pins g
def Dev.setPin (d : Dev) (g : Nat) (p : Pin) : Dev := { d with pins := Tab.set (fun _ => {}) d.pins g p }
def Dev.pmu (d : Dev) (g : Nat) : Pmu := Tab.get (fun _ => {}) d.pmus g
def Dev.setPmu (d : Dev) (g : Nat) (p : Pmu) : Dev := { d with pmus := Tab.set (fun _ => {}) d.pmus g p }
def Dev.dp (d : Dev) (k : Nat) : Dps := Tab.get (fun _ => {}) d.dpss k
def Dev.setDp (d : Dev) (k : Nat) (p : Dps) : Dev := { d with dpss := Tab.set (fun _ => {}) d.dpss k p }
def Dev.tdc (d : Dev) (g : Nat) : Tdc := Tab.get (fun _ => {}) d.tdcs g
def Dev.setTdc (d : Dev) (g : Nat) (p : Tdc) : Dev := { d with tdcs := Tab.set (fun _ => {}) d.tdcs g p }
def Dev.gen (d : Dev) (w : Nat) : Gen := Tab.get (fun _ => {}) d.gens w
def Dev.setGen (d : Dev) (w : Nat) (p : Gen) : Dev := { d with gens := Tab.set (fun _ => {}) d.gens w p }
def Dev.cx (d : Dev) (c : Nat) : Ctx := Tab.get (fun _ => {}) d.ctxs c
def Dev.setCx (d : Dev) (c : Nat) (x : Ctx) : Dev := { d with ctxs := Tab.set (fun _ => {}) d.ctxs c x }
def Dev.eng (d : Dev) (n : Nat) : Eng := Tab.get (fun _ => {}) d.engs n
def Dev.setEng (d : Dev) (n : Nat) (x : Eng) : Dev := { d with engs := Tab.set (fun _ => {}) d.engs n x }
def Dev.clu (d : Dev) (n : Nat) : Clu := Tab.get (fun _ => {}) d.clus n
def Dev.setClu (d : Dev) (n : Nat) (x : Clu) : Dev := { d with clus := Tab.set (fun _ => {}) d.clus n x }
def Dev.slot (d : Dev) (s : Nat) : TSlot := Tab.get (fun _ => {}) d.txn s
def Dev.setSlot (d : Dev) (s : Nat) (x : TSlot) : Dev := { d with txn := Tab.set (fun _ => {}) d.txn s x }
def Dev.strm (d : Dev) (q : Nat) : Option SDesc := Tab.get (fun _ => none) d.strms q
def Dev.setStrm (d : Dev) (q : Nat) (x : Option SDesc) : Dev := { d with strms := Tab.set (fun _ => none) d.strms q x }
def Dev.mb (d : Dev) (m : Nat) : List BRec := Tab.get (fun _ => []) d.mbs m
def Dev.setMb (d : Dev) (m : Nat) (x : List BRec) : Dev := { d with mbs := Tab.set (fun _ => []) d.mbs m x }
def Dev.lport (d : Dev) (q : Nat) : LPort := Tab.get (fun _ => {}) d.lnk.ports q
def Dev.setLport (d : Dev) (q : Nat) (x : LPort) : Dev :=
  { d with lnk := { d.lnk with ports := Tab.set (fun _ => {}) d.lnk.ports q x } }

/-- Send something outward. -/
def Dev.emit (d : Dev) (o : Out) : Dev := { d with out := o :: d.out }

/-- The next free value below `n`, and the state with the index advanced (notes/assumptions/2.md). -/
def Dev.takeFree (d : Dev) (n : Nat) : Dev × Nat := ({ d with free := d.free + 1 }, Config.free d.free % n)

/-- A quotient rounded: where it is no whole number, whether up or down is a value of the place and the number (R24). -/
def roundFree (place : Nat) (x : Int) (den : Nat) : Int := if x % den = 0 then x / den else x / den + ((Config.round place x % 2 : Nat) : Int)

/-- Do something for every number of a list. -/
def Dev.forAll (d : Dev) (l : List Nat) (f : Dev → Nat → Dev) : Dev := l.foldl f d

/-! ### Presence, clocks, states -/

/-- Cluster `n` is present (R2). -/
def Dev.present (d : Dev) (n : Nat) : Bool := bitOf d.fuse.present n

/-- The present clusters. -/
def Dev.clusters (d : Dev) : List Nat := (List.range 32).filter d.present

/-- 1 µs in fine units. -/
def usFine : Nat := 1600 * 1024

/-- The first MTB tick at or after a system time. -/
def tickUp (t : Nat) : Nat := (t + 1023) / 1024 * 1024

/-- CLK PG_STAT.STATE (R399): 0 START, 1 WAIT_REF, 2 NORMAL, 3 FALLBACK, 4 SAFE_WAIT. -/
def Dev.clkState (d : Dev) : Nat := d.get clkB .PG_STAT_STATE

/-- CTX_STATE.STATE (R101): 0 EMPTY, 1 LOADED, 2 ARMED, 3 RUNNING, 4 HOLDING, 5 STOPPED, 6 DONE, 7 FAULTED. -/
def Dev.ctxState (d : Dev) (c : Nat) : Nat := d.get (ctxBase c) .CTX_STATE_STATE

/-- RUNNING or HOLDING. -/
def Dev.ctxActive (d : Dev) (c : Nat) : Bool := d.ctxState c == 3 || d.ctxState c == 4

/-- ARMED, RUNNING or HOLDING: the states in which a context owns its site (R13). -/
def Dev.ctxOwning (d : Dev) (c : Nat) : Bool := d.ctxState c == 2 || d.ctxActive c

/-- The vector period of a context (R97). -/
def Dev.ctxTv (d : Dev) (c : Nat) : Nat := match (d.cx c).hdr with | some h => h.tv | none => 0

/-- PWR_CL_STAT of cluster `n`: 0 RUN, 1 IDLE, 2 NAP, 3 DORMANT, 4 HIBERNATE (R400). -/
def Dev.clState (d : Dev) (n : Nat) : Nat := d.get (pwrB + 0x10 * n) .PWR_CL_STAT_STATE

/-- The contexts that exist. -/
def Dev.allCtx (d : Dev) : List Nat := (d.ctxs.map (·.1)).filter (fun c => d.present (c / 32))

/-- The contexts that own a channel, generator or device-power channel of cluster `n` (R379). -/
def Dev.ctxOwnersIn (d : Dev) (n : Nat) : List Nat :=
  d.allCtx.filter (fun c => (d.cx c).site.any (fun g => g / 32 == n)
    || (List.range 4).any (fun x => (d.gen (4 * n + x)).own == some c)
    || (List.range 2).any (fun i => d.bit (dpsBase (2 * n + i)) .DPS_CFG_OWN_EN
         && d.get (dpsBase (2 * n + i)) .DPS_CFG_OWNER == c))

/-- The contexts that own a resource of cluster `n`, and the cluster's own contexts. -/
def Dev.ctxOfCluster (d : Dev) (n : Nat) : List Nat :=
  d.allCtx.filter (fun c => c / 32 == n || (d.cx c).site.any (fun g => g / 32 == n)
    || (List.range 4).any (fun x => (d.gen (4 * n + x)).own == some c)
    || (List.range 2).any (fun i => d.bit (dpsBase (2 * n + i)) .DPS_CFG_OWN_EN
         && d.get (dpsBase (2 * n + i)) .DPS_CFG_OWNER == c))

/-- The raster engine is not OFF (R322). -/
def Dev.rasOn (d : Dev) : Bool := d.get rasB .PG_STAT_STATE != 0

/-- The raster engine is not OFF on the group of cluster `n` (R322, R336). -/
def Dev.rasOnCluster (d : Dev) (n : Nat) : Bool := d.rasOn && n / 8 == d.ras.group

/-! ### Interrupts (R41, R42) -/

/-- One message on a vector: nothing while MSI-X is off, pending while masked. -/
def Dev.msix (d : Dev) (v : Nat) : Dev :=
  if !d.hif.enable then d
  else if d.hif.fmask || !d.hif.vopen.contains v then
    if d.hif.pba.contains v then d else { d with hif := { d.hif with pba := d.hif.pba ++ [v] } }
  else d.emit (.msix v)

/-- Set a PG_IRQ_STAT bit; a 0 to 1 transition of an enabled bit sends a message. -/
def Dev.irq (d : Dev) (kind : PageKind) (base i : Nat) : Dev :=
  if d.bitN base .PG_IRQ_STAT_BITS i then d
  else
    let d := d.setBitN base .PG_IRQ_STAT_BITS i true
    if d.bitN base .PG_IRQ_EN_BITS i then d.msix (irqVector kind base i) else d

/-- Set a bit of a page's PG_FLT_STAT. -/
def Dev.fltBit (d : Dev) (base i : Nat) : Dev := d.setBitN base .PG_FLT_STAT_BITS i true

/-! ### The access-error log (R33, R34, R455) -/

/-- Causes of R33. -/
inductive ErrCause where
  | unmapped | size | selftest | absent | gateAbort | locked | z64Blocked | startFaulted
  deriving DecidableEq, Repr

/-- The code of a cause. -/
def ErrCause.code : ErrCause → Nat
  | .unmapped => 1 | .size => 2 | .selftest => 3 | .absent => 4 | .gateAbort => 5 | .locked => 6 | .z64Blocked => 7
  | .startFaulted => 8

/-- The pages of the management partition (R388). -/
def PageKind.management : PageKind → Bool
  | .clk | .pwr | .thm | .flt | .bst | .msp | .lcs => true
  | _ => false

/-- The HIF part of an access error: its counter and the first-error capture. -/
def Dev.logHif (d : Dev) (write : Bool) (cause : ErrCause) (addr : Nat) : Dev :=
  let d := d.satInc hifB (if write then .HIF_ERR_WR_CNT_COUNT else .HIF_ERR_RD_CNT_COUNT)
  if d.bit hifB .HIF_ERR_FIRST_VALID then d
  else d.setWord (hifB + 0x4C) (2 ^ 31 + (if write then 2 ^ 30 else 0) + cause.code * 2 ^ 24 + addr % 2 ^ 24)

/-- Log an access error: HIF counter and first-error capture, and PG_ERR_ADDR when the address lies in a page with a
header. In FALLBACK only the pages of the management partition log, each in its own PG_ERR_ADDR (R455). -/
def Dev.logErr (d : Dev) (write : Bool) (cause : ErrCause) (addr : Nat) : Dev :=
  let page := fun (d : Dev) => match areaOf addr with
    | .page kind base off =>
      if kind.header ∧ (d.clkState ≠ 3 ∨ kind.management) then
        d.setWord (base + 0x28) (2 ^ 31 + cause.code * 2 ^ 24 + off)
      else d
    | _ => d
  let d := { d with msp := { d.msp with accErr := true } }
  if d.clkState = 3 then page d else page (d.logHif write cause addr)

/-! ### Meanings as state changes -/

/-- A command that changes the block but neither its queue nor its pattern store, which it may read. -/
def upd (s : State) (f : Tab Byte → Dev → Dev) : Host.Outcome State Fault Refusal := .next { s with d := f s.store s.d }

/-- A command that may also change the pattern store. -/
def updS (s : State) (f : State → State) : Host.Outcome State Fault Refusal := .next { f s with pending := s.pending }

/-! ### The pattern store (R157) -/

/-- Populated bytes of the pattern store (48 GiB). -/
def storeBytes : Nat := 0xC00000000

/-- A byte of the store. -/
def storeByte (m : Tab Byte) (a : Nat) : Nat := (Tab.get storeDflt m a).toNat

/-- `n` bytes of the store, little-endian. -/
def storeLE (m : Tab Byte) (a : Nat) : Nat → Nat
  | 0 => 0
  | n + 1 => storeByte m a + 256 * storeLE m (a + 1) n

/-- The store after a write of one byte. -/
def storeSet (m : Tab Byte) (a : Nat) (v : Byte) : Tab Byte := Tab.set storeDflt m a v

/-- The store after a write of bytes at rising addresses; bytes beyond the populated store are dropped. -/
def storeWrite (m : Tab Byte) (a : Nat) : List Byte → Tab Byte
  | [] => m
  | b :: bs => storeWrite (if a < storeBytes then storeSet m a b else m) (a + 1) bs

/-! ### CRC-32 (IEEE 802.3: R320, R334, R381, R440) -/

/-- One bit of the reflected CRC-32. -/
def crcBit (c : Nat) : Nat := if c % 2 = 1 then Nat.xor (c / 2) 0xEDB88320 else c / 2

/-- The CRC register after a byte. -/
def crcByte (c b : Nat) : Nat := Nat.repeat crcBit 8 (Nat.xor c (b % 256))

/-- The CRC register after bytes. -/
def crcBytes (c : Nat) (bs : List Nat) : Nat := bs.foldl crcByte c

/-- The four bytes of a word, little-endian. -/
def wordBytes (w : Nat) : List Nat := [w % 256, w / 256 % 256, w / 65536 % 256, w / 16777216 % 256]

end Sys2Proof.Machine
end

