-- ==== Sys2Proof/Machine/CalTab.lean ====
section
/-! DEFINITION. The calibration tables: layout (R381), nominal contents (R380), and the corrections (R366 to R368). -/

namespace Sys2Proof.Machine

/-- Bytes of a cluster's region. -/
def calSize : Nat := 0x18000

/-- A byte of the nominal table of cluster `n` (R380, R381): G = 1.0, O = 0, F_i = 1.0, bin widths 128, design-nominal timing. -/
def calNominalAt (dsn n o : Nat) : Nat :=
  if o = 0 then 1
  else if o = 2 then n
  else if 8 ≤ o ∧ o < 16 then dsn / 2 ^ (8 * (o - 8)) % 256
  else if 0x100 ≤ o ∧ o < 0x300 then
    let r := (o - 0x100) % 0x80
    if r = 3 then 0x40 else if 4 ≤ r ∧ r < 70 ∧ r % 2 = 1 then 0x80 else 0
  else if 0x300 ≤ o ∧ o < 0x380 then (if (o - 0x300) % 0x40 < 48 ∧ o % 8 = 3 then 0x40 else 0)
  else if 0x2000 ≤ o ∧ o < 0x8000 then
    let r := (o - 0x2000) % 0x300
    if r < 0x60 ∧ r % 8 = 3 then 0x40
    else if 0xA0 ≤ r ∧ r < 0x110 ∧ r % 8 = 3 then 0x40
    else if 0x110 ≤ r ∧ r < 0x13C then Config.nominal o % 256
    else 0
  else if 0x8000 ≤ o then (if o % 2 = 0 then 0x80 else 0)
  else 0

/-- What an unlisted byte of the calibration tables reads as. -/
def calDflt (dsn : Nat) (a : Nat) : Byte := BitVec.ofNat 8 (calNominalAt dsn (a / calSize) (a % calSize))

/-- A byte of one copy of the tables. -/
def Dev.calByte (d : Dev) (t : Tab Byte) (a : Nat) : Nat := (Tab.get (calDflt d.fuse.dsn) t a).toNat

/-- `n` bytes, little-endian. -/
def Dev.calLE (d : Dev) (t : Tab Byte) (a : Nat) : Nat → Nat
  | 0 => 0
  | n + 1 => d.calByte t a + 256 * d.calLE t (a + 1) n

/-- A 32-bit two's complement value. -/
def signed32 (v : Nat) : Int := if v < 2 ^ 31 then v else (v : Int) - 2 ^ 32

/-- The offset of the entries of global channel `g` in the tables. -/
def calCh (g : Nat) : Nat := g / 32 * calSize + 0x2000 + g % 32 * 0x300

/-- Divide by a positive number, rounding to the nearest with halves away from zero (R366). -/
def roundDiv (x : Int) (n : Nat) : Int := if 0 ≤ x then (2 * x + n) / (2 * n) else -((2 * (-x) + n) / (2 * n))

/-- The DAC setting of a nominal code (R366), with `theta` the comparator offset. -/
def dacCorrect (z c g : Nat) (o theta : Int) : Nat :=
  let x := roundDiv (((c : Int) - z) * g) (2 ^ 30) + z + roundDiv (o - theta) 256
  if x < 0 then 0 else if x > 0xFFFFF then 0xFFFFF else x.toNat

/-- The sample of a raw conversion (R366): S_raw × G / 2^30 + O / 256, rounded once. -/
def adcCorrect (g : Nat) (o x : Int) : Int := roundDiv (x * g + o * 2 ^ 22) (2 ^ 30)

/-- A converter entry (G, O) of the active bank. -/
def Dev.calGO (d : Dev) (a : Nat) : Nat × Int := (d.calLE d.calA a 4, signed32 (d.calLE d.calA (a + 4) 4))

/-- The setting of level DAC `i` of a pin (VIH to VCH) for a code, in the span and comparator mode in force (R366). -/
def Dev.levelDac (d : Dev) (g i mode code : Nat) : Nat :=
  let sp := d.get (pinBase g) .PIN_STAT_SPAN_NOW
  let e := d.calGO (calCh g + (i * 2 + sp) * 8)
  let th := fun (cmp : Nat) => signed32 (d.calLE d.calA (calCh g + 0x60 + (cmp * 8 + mode * 2 + sp) * 4) 4)
  dacCorrect 0x40000 code e.1 e.2 (if i = 3 then th 0 else if i = 4 then th 1 else 0)

/-- The index of a PMU entry (R381): V2, V9, then I2U to I32M. -/
def pmuEntry (mode span irange : Nat) (current : Bool) : Nat := if current ∨ mode = 2 then 2 + irange else span

/-- The setting of the PMU force DAC for a code (R366). -/
def Dev.pmuDac (d : Dev) (g code : Nat) : Nat :=
  let b := pinBase g
  let m := d.get b .PMU_STAT_MODE_NOW
  let r := pmuEntry m (d.get b .PMU_STAT_SPAN_NOW) (d.get b .PMU_STAT_IRANGE_NOW) false
  let e := d.calGO (calCh g + 0xA0 + r * 16)
  dacCorrect (if r = 1 then 0x40000 else 0x80000) code e.1 e.2 0

/-- A PMU conversion corrected (R366): `current` says that it measured the current. -/
def Dev.pmuAdc (d : Dev) (g : Nat) (current : Bool) (raw : Int) : Int :=
  let b := pinBase g
  let r := pmuEntry 0 (d.get b .PMU_STAT_SPAN_NOW) (d.get b .PMU_STAT_IRANGE_NOW) current
  let e := d.calGO (calCh g + 0xA0 + r * 16 + 8)
  adcCorrect e.1 e.2 raw

/-- The offset of the entries of device-power channel `k`. -/
def calDps (k : Nat) : Nat := k / 2 * calSize + 0x300 + k % 2 * 0x40

/-- The setting of a device-power force DAC (R366). -/
def Dev.dpsDac (d : Dev) (k code : Nat) : Nat :=
  let e := d.calGO (calDps k)
  dacCorrect 0x80000 code e.1 e.2 0

/-- A device-power conversion corrected: entry 1 is the voltage, 2 to 5 the current ranges (R381). -/
def Dev.dpsAdc (d : Dev) (k i : Nat) (raw : Int) : Int :=
  let e := d.calGO (calDps k + i * 8)
  adcCorrect e.1 e.2 raw

/-- The delay from tip to comparator, in fine units (R80, R236): calibrated for FAST, with the nominal extra delay of the
comparator mode in force (R367). -/
def Dev.pRcv (d : Dev) (g : Nat) : Int :=
  signed32 (d.calLE d.calA (calCh g + 0x130) 4) +
    (match (d.pin g).cmp with
     | .balanced => (Config.modeDelay 1 : Int)
     | .monitor => (Config.modeDelay 2 : Int)
     | .sentinel => (Config.modeDelay 3 : Int)
     | .off | .fast => 0)

/-- The offset of interpolator B, in units of 2^−8 fine unit (R367). -/
def Dev.beta (d : Dev) (g : Nat) : Int := signed32 (d.calLE d.calA (calCh g + 0x134) 4)

/-- The calibrated drive delay of an edge and direction (R80, R367). -/
def Dev.pDrv (d : Dev) (g k dir : Nat) : Int := signed32 (d.calLE d.calA (calCh g + 0x110 + (k * 2 + dir) * 4) 4)

/-- A bin width of a TDC table (R251). -/
def Dev.binWidth (d : Dev) (g i : Nat) : Nat := d.calLE d.calA (g / 32 * calSize + 0x8000 + g % 32 * 0x800 + 2 * i) 2

/-- The fine position that a raw code gives through a table of nominal widths (R251). -/
def nominalPos (r : Nat) : Nat := (2 * 128 * r + 128 + 64) / 128

/-- The fine position that a raw code gives through an interpolator's table (R238): halves round up. -/
def Dev.finePos (d : Dev) (g : Nat) (interp : Bool) (r : Nat) : Nat :=
  let w := fun i => d.binWidth g ((if interp then 512 else 0) + i)
  let s := (List.range r).foldl (fun a i => a + w i) 0
  (2 * s + w r + 64) / 128

/-- The amplitude of an entry with gain and flatness applied (R268, R368); where the product is no whole number its rounding
is a free value. -/
def Dev.acAmp (d : Dev) (w amp ftw : Nat) : Nat :=
  let a := w / 4 * calSize + 0x100 + w % 4 * 0x80
  let gain := d.calLE d.calA a 4
  -- frequency in units of 20 MHz × 2^-48 × 80: f / 20 MHz = ftw * 80 / 2^48
  let x := ftw * 80
  let i := Nat.min (x / 2 ^ 48) 31
  let fr := x - i * 2 ^ 48
  let f0 := d.calLE d.calA (a + 4 + 2 * i) 2
  let f1 := d.calLE d.calA (a + 6 + 2 * i) 2
  let num : Nat := (f0 * (2 ^ 48 - fr) + f1 * fr) * gain * amp
  let den := 2 ^ (15 + 48 + 30)
  (roundFree 1 num den).toNat

/-- A table with the entries of `[lo, hi)` replaced by another table's. -/
def tabMerge (t u : Tab Byte) (lo hi : Nat) : Tab Byte :=
  t.filter (fun e => decide (e.1 < lo)) ++ u.filter (fun e => decide (lo ≤ e.1) && decide (e.1 < hi)) ++
    t.filter (fun e => decide (hi ≤ e.1))

/-- Set a byte of the staged table (R377). -/
def Dev.setCalByte (d : Dev) (a v : Nat) : Dev :=
  { d with calS := Tab.set (calDflt d.fuse.dsn) d.calS a (BitVec.ofNat 8 v) }

/-- Set bytes of the staged table at rising addresses. -/
def Dev.setCalLE (d : Dev) (a v : Nat) : Nat → Dev
  | 0 => d
  | n + 1 => (d.setCalByte a (v % 256)).setCalLE (a + 1) (v / 256) n

/-! ### What belongs to a kind (R365, R381) -/

/-- The kind whose entries hold a region offset. -/
def calKind (o : Nat) : Option Nat :=
  if 0x100 ≤ o ∧ o < 0x300 then (if (o - 0x100) % 0x80 < 70 then some 6 else none)
  else if 0x300 ≤ o ∧ o < 0x380 then (if (o - 0x300) % 0x40 < 48 then some 7 else none)
  else if 0x2000 ≤ o ∧ o < 0x8000 then
    let r := (o - 0x2000) % 0x300
    if r < 0x60 then some 3 else if r < 0xA0 then some 4 else if r < 0x110 then some 1 else if r < 0x13C then some 5 else none
  else if 0x8000 ≤ o ∧ o < calSize then some 2
  else none

/-- The CH_VALID byte of a channel (R381). -/
def calIsValid (o : Nat) : Bool := decide (0x2000 ≤ o) && decide (o < 0x8000) && (o - 0x2000) % 0x300 == 0x140

/-- A byte that the layout defines; all others are reserved (R381). -/
def calDefined (o : Nat) : Bool :=
  (calKind o).isSome || calIsValid o || decide (o < 3) || (decide (8 ≤ o) && decide (o < 16)) ||
    (decide (0x12 ≤ o) && decide (o ≤ 0x20))

/-- The bits of a byte that the layout defines: bits 6 and 7 of VALID, bits 1 to 5 of a CH_VALID, all of any other (R381). -/
def calBits (o : Nat) : Nat := if o = 0x20 then 0xC0 else if calIsValid o then 0x3E else 0xFF

/-- The kinds that a difference of a byte concerns: `x` is the exclusive or of its two values. -/
def calKindsAt (o x : Nat) : List Nat :=
  match calKind o with
  | some k => [k]
  | none =>
    if calIsValid o then [1, 2, 3, 4, 5].filter (fun k => bitOf x k)
    else if o = 0x20 then [6, 7].filter (fun k => bitOf x k)
    else if 0x12 ≤ o ∧ o < 0x20 then [(o - 0x10) / 2]
    else []

/-- The kinds whose staged entries differ from the active bank of cluster `n` (R377). -/
def Dev.calDiff (d : Dev) (n : Nat) : List Nat :=
  let keys := ((d.calS.map (·.1)) ++ (d.calA.map (·.1))).filter (fun a => a / calSize == n)
  keys.foldl (fun l a =>
    let x := Nat.xor (d.calByte d.calS a) (d.calByte d.calA a)
    if x = 0 then l else l ++ (calKindsAt (a % calSize) x).filter (fun k => !l.contains k)) []

/-- Bits k of a list of kinds, from bit 0 for kind 1. -/
def kindBits (l : List Nat) : Nat := l.foldl (fun a k => setBits a (k - 1) 1 1) 0

/-! ### Due kinds (R371) -/

/-- CAL_DUE_MAP follows the cluster's due and requested kinds. -/
def Dev.calDueMap (d : Dev) (n : Nat) : Dev :=
  d.setBitN calB .CAL_DUE_MAP_CLUSTER n (d.get (calcBase n) .CAL_CL_DUE_DUE != 0 || d.get (calcBase n) .CAL_CL_REQ_KIND != 0)

/-- A kind becomes due. -/
def Dev.calSetDue (d : Dev) (n k : Nat) : Dev :=
  if 1 ≤ k ∧ k ≤ 7 then (d.setBitN (calcBase n) .CAL_CL_DUE_DUE (k - 1) true).calDueMap n else d

/-- Fine units in a second. -/
def secFine : Nat := 1638400000000

/-- A drift or age trigger of a kind is enabled. -/
def Dev.calAuto (d : Dev) (n k : Nat) : Bool := d.bitN (calcBase n) .CAL_CL_CTRL_AUTO (k - 1)

/-- A temperature of a cluster's own sensor (R371): drift triggers, and every kind due once when the sensor breaks. -/
def Dev.calDrift (d : Dev) (n : Nat) (t : Int) (broken : Bool) : Dev :=
  let b := calcBase n
  let bad := d.bit b .CAL_CL_DUE_TSENS_BAD
  let d := d.setb b .CAL_CL_DUE_TSENS_BAD broken
  if broken then (if bad then d else d.forAll [1, 2, 3, 4, 5, 6, 7] (fun d k => d.calSetDue n k))
  else
    let th := Nat.max 1 (d.get calB .CAL_DT_THRESH_CENTI_C)
    d.forAll [1, 2, 3, 4, 5, 6, 7] (fun d k =>
      let ref : Int := match (d.clu n).failT.find? (fun e => e.1 == k) with
        | some e => (BitVec.ofNat 16 e.2).toInt
        | none => d.sget (b + 0x10 * k) .CAL_K_TEMP_CENTI_C
      if d.calAuto n k ∧ (t - ref).natAbs > th then d.calSetDue n k else d)

/-- The age trigger of a kind at an age of its last run (R371); after a failed run the time since that run counts. -/
def Dev.calAged (d : Dev) (n k age : Nat) : Dev :=
  let m := d.get calB .CAL_MAX_AGE_SECONDS
  let a := match (d.clu n).failAt.find? (fun e => e.1 == k) with
    | some e => (d.time - e.2) / secFine
    | none => age
  if m ≠ 0 ∧ m ≤ a ∧ d.calAuto n k = true then d.calSetDue n k else d

/-- The triggers of a cluster as its settings, temperatures and ages stand (R371). -/
def Dev.calJudge (d : Dev) (n : Nat) : Dev :=
  let d := if d.bit (thmB + 4 * n) .THM_TEMP_BROKEN then d else d.calDrift n (d.sget (thmB + 4 * n) .THM_TEMP_CENTI_C) false
  d.forAll [1, 2, 3, 4, 5, 6, 7] (fun d k => d.calAged n k (d.get (calcBase n + 0x10 * k) .CAL_K_AGE_SECONDS))

end Sys2Proof.Machine
end

