-- ==== Sys2Proof/Machine/Rec.lean ====
section
/-! DEFINITION. Records and their way into a cluster's output buffer (R304 to R309), the annotation records (R26, R306,
R307), wake requests (R403, R405, R406) and routine requests (R134, R135): what every other unit may cause. -/

namespace Sys2Proof.Machine

/-! ### Records -/

/-- RES registers of ring `k`. -/
def ringBase (k : Nat) : Nat := resB + k * 0x20

/-- RES registers of mailbox `m`. -/
def mbBase (m : Nat) : Nat := resB + m * 0x60

/-- Bit `n` and ring field of byte `b` of a routing word (RES_ROUTE, RES_CL_ANNOT): the ring, if enabled. -/
def routeByte (w b : Nat) : Option Nat := if bitOf w (8 * b + 7) then some (w / 2 ^ (8 * b) % 64) else none

/-- The mailbox bound to a context (R309). -/
def Dev.mbOf (d : Dev) (c : Nat) : Option Nat :=
  (List.range 8).find? (fun m => d.bit (mbBase m) .RES_MB_CFG_EN && d.get (mbBase m) .RES_MB_CFG_CTX == c)

/-- Where a record of a context goes (R309); `none`: it is discarded. -/
def Dev.destOf (d : Dev) (c : Nat) (annot : Bool) : Option Dest :=
  let ring := fun (k : Nat) => if d.bit (ringBase k) .RES_RING_CFG_LANE == annot then some (Dest.ring k) else none
  if annot then
    match routeByte (d.word (resB + 0xC0 + c / 32 / 4 * 4)) (c / 32 % 4) with
    | some k => ring k
    | none => none
  else match d.mbOf c with
    | some m => some (.mb m)
    | none => match routeByte (d.word (resB + 0xC00 + c / 4 * 4)) (c % 4) with
      | some k => ring k
      | none => none

/-- A record is discarded (R309). -/
def Dev.discard (d : Dev) (k : Nat) : Dev :=
  if k = 0 then d else (d.satAdd resB .RES_DISCARD_CNT_COUNT k).irq .res resB 0

/-- Records in the output buffer of cluster `n`. -/
def Dev.bufLevel (d : Dev) (n : Nat) : Nat := (d.bufs.filter (fun r => r.cl == n)).length

/-- A record enters its cluster's output buffer, or is discarded (R309, R318). -/
def Dev.produce (d : Dev) (c : Nat) (annot : Bool) (words : List Word) : Dev :=
  match d.destOf c annot with
  | none => d.discard 1
  | some dest =>
    let r : BRec := { cl := c / 32, ctx := c, run := (d.cx c).run, annot := annot, dest := dest, words := words }
    let d := { d with bufs := d.bufs ++ [r] }
    d.put resB .RES_BUF_MAX_RECORDS (Nat.max (d.get resB .RES_BUF_MAX_RECORDS) (d.bufLevel (c / 32)))

/-- The records of a context in one lane or both that are produced and not delivered: Q_c (R316). -/
def Dev.undelivered (d : Dev) (c : Nat) : Nat :=
  (d.bufs.filter (fun r => r.ctx == c)).length +
    (List.range 8).foldl (fun a m => a + ((d.mb m).filter (fun r => r.ctx == c)).length) 0

/-- A number as little-endian words. -/
def wordsOf (v : Nat) : Nat → List Word
  | 0 => []
  | n + 1 => BitVec.ofNat 32 v :: wordsOf (v / 2 ^ 32) n

/-- Six payload words from the words given, zero-filled. -/
def payload6 (ws : List Nat) : List Word := (List.range 6).map (fun i => BitVec.ofNat 32 (ws.getD i 0))

/-- The low and high words of a 64-bit value. -/
def lo32 (v : Nat) : Nat := v % 2 ^ 32
def hi32 (v : Nat) : Nat := v / 2 ^ 32 % 2 ^ 32

/-- Write an annotation record of a context's run (R306, R307). -/
def Dev.annot (d : Dev) (c kind : Nat) (ws : List Nat) : Dev :=
  let x := d.cx c
  let h : List Word := [BitVec.ofNat 32 x.aseq, BitVec.ofNat 32 (c * 2 ^ 22 + x.run % 2 ^ 14 * 256 + kind)]
  (d.setCx c { x with aseq := (x.aseq + 1) % 2 ^ 32 }).produce c true (h ++ payload6 ws)

/-- The program vector index of a context (R114). -/
def Dev.vidx (d : Dev) (c : Nat) : Nat := d.get (ctxBase c) .CTX_VIDX_INDEX

/-- The first edge of a vector clock of period `tv` at or after a system time: edges lie at whole multiples of the period (R386). -/
def edgeAt (tv t : Nat) : Nat := (t + (Nat.max 1 tv - 1)) / Nat.max 1 tv * Nat.max 1 tv

/-- Vector 0 as a start that takes effect at `t` schedules it (R22, R104, R386). -/
def vectorZero (tv t : Nat) : Nat := edgeAt tv (t + Config.startDelay tv)

/-- The run-level counters of a new run. -/
def Ctx.opens (x : Ctx) : Ctx := { x with run := x.runNext % 16384, runNext := (x.runNext + 1) % 16384, seq := 0, aseq := 0, crc := 0xFFFFFFFF, isOpen := true, endSt := none }

/-- The run of a context that has entered RUNNING opens with RUN_START, which carries vector 0 as its start at `t` scheduled it (R306, R307). A start that
is executed late opens its run when it starts, or before, with the first mark that is written (DEDUCED: notes/assumptions/84.md). -/
def Dev.runOpen (d : Dev) (c t : Nat) : Dev :=
  if (d.cx c).isOpen then d
  else
    let d := d.setCx c (d.cx c).opens
    match (d.cx c).hdr with
    | some h => d.annot c 1 [lo32 (vectorZero h.tv t), hi32 (vectorZero h.tv t), lo32 h.base, hi32 h.base, d.get (ctxBase c) .CTX_CFG_POLICY + h.mux * 2]
    | none => d

/-- The run of a context whose start waits late is open. -/
def Dev.runLate (d : Dev) (c : Nat) : Dev :=
  match (d.cx c).late with
  | some e => if d.ctxActive c then d.runOpen c e else d
  | none => d

/-- A determinism-break mark (R26): only for a context that is RUNNING or HOLDING. -/
def Dev.dbreak (d : Dev) (c cause : Nat) : Dev :=
  if d.ctxActive c then
    let d := d.runLate c
    let x := d.cx c
    let v := d.vidx c
    d.annot c 5 [cause, x.seq, (~~~x.crc).toNat, 0, lo32 v, hi32 v]
  else d

/-- An EXT_STROBE mark and its interrupt (R190). -/
def Dev.extStrobe (d : Dev) (c t cl : Nat) : Dev :=
  let d := d.runLate c
  let v := d.vidx c
  (d.annot c 6 [lo32 t, hi32 t, lo32 v, hi32 v, cl]).irq .wfg (wfgBase cl) 30

/-- An EXT_WAVE mark (R267): the event's time, cluster, generator and case. -/
def Dev.extWave (d : Dev) (c t w case : Nat) : Dev :=
  let d := d.runLate c
  let v := d.vidx c
  d.annot c 7 [lo32 t, hi32 t, lo32 v, hi32 v, w / 4 + w % 4 * 256 + case * 65536]

/-! ### Routines -/

/-- A routine is requested of the engine of cluster `n` (R135). -/
def Dev.queueRtn (d : Dev) (n : Nat) (r : Rtn) : Dev :=
  d.setEng n { d.eng n with queue := (d.eng n).queue ++ [r] }

/-- An input on its way to a context's acquisition, with its effective vector (R276, R277). -/
def Dev.acqPush (d : Dev) (c v : Nat) (x : Inp) : Dev := d.setCx c { d.cx c with inbox := (d.cx c).inbox ++ [(v, x)] }

/-! ### Wakes -/

/-- Wake counts in PWR_STAT and the cluster's bits follow the queue. -/
def Dev.wakeCounts (d : Dev) : Dev :=
  (d.put pwrB .PWR_STAT_QUEUED d.pow.queue.length).put pwrB .PWR_STAT_INPROG d.pow.prog.length

/-- The tolerance of cluster `n` in fine units: 1 ns is 1,638.4 fine units. -/
def Dev.tolFine (d : Dev) (n : Nat) : Nat := d.get (pwrB + 0x10 * n) .PWR_CL_TOL_NS * 16384 / 10

/-- A wake with a later request for the same cluster merged into it (R405): the request time stays; the wake goes at least as far, and takes
a promise and a place in the queue that either has. -/
def Wake.merge (w : Wake) (promise : Option Nat) (low : Bool) (aim : Nat) : Wake :=
  { w with promise := w.promise.or promise, low := w.low && low, aim := Nat.min w.aim aim }

/-- A wake request enters the queue, or is merged into the one that is there or in progress (R405, R406). -/
def Dev.wakePush (d : Dev) (n : Nat) (promise low : Bool) (aim : Nat) : Dev :=
  let tol := d.tolFine n
  let mrg := fun (w : Wake) => if w.cl = n then w.merge (if promise then some (w.t + tol) else none) low aim else w
  if d.pow.queue.any (fun w => w.cl == n) || d.pow.prog.any (fun w => w.cl == n) then
    { d with pow := { d.pow with queue := d.pow.queue.map mrg, prog := d.pow.prog.map mrg } }
  else
    let w : Wake := { cl := n, dorm := d.clState n == 3, t := d.time, promise := if promise then some (d.time + tol) else none, low := low, prio := d.get (pwrB + 0x10 * n) .PWR_CL_CFG_PRIO, aim := aim }
    let d := { d with pow := { d.pow with queue := d.pow.queue ++ [w] } }
    (d.setb (pwrB + 0x10 * n) .PWR_CL_STAT_QUEUED true).wakeCounts

/-- The channels that CTX_SITE names, in slot order (R101). -/
def Dev.siteRegs (d : Dev) (c : Nat) : List (Option Nat) :=
  (List.range 128).map (fun s =>
    let y := d.word (ctxBase c + 0x40 + s / 4 * 4) / 256 ^ (s % 4) % 256
    if y / 128 = 1 then some (c / 128 * 128 + y % 128) else none)

/-- A wake request of cluster `n` (R403): it queues while the cluster is in NAP or DORMANT. From IDLE the cluster is in RUN at once, or
waits for its PMUs to reconnect when a DORMANT entry had begun (R400, R402). `aim` is the state the wake ends in. -/
def Dev.wakeReqTo (d : Dev) (n : Nat) (promise low : Bool) (aim : Nat) : Dev :=
  let st := d.clState n
  if !d.present n || !(st == 1 || st == 2 || st == 3) || st ≤ aim then d
  else if st = 1 ∧ (d.clu n).pmuBack = [] then d.put (pwrB + 0x10 * n) .PWR_CL_STAT_STATE 0
  else d.wakePush n promise low aim

/-- A wake request to RUN with the latency promise of R406. -/
def Dev.wakeReq (d : Dev) (n : Nat) : Dev := d.wakeReqTo n true false 0

/-- A wake request to RUN without a promise (R403). -/
def Dev.wakeReqFree (d : Dev) (n : Nat) : Dev := d.wakeReqTo n false false 0

/-- A request for a routine: it queues, and an IDLE cluster returns to RUN for it (R135, R400). -/
def Dev.reqRtn (d : Dev) (n : Nat) (r : Rtn) : Dev :=
  let d := d.queueRtn n r
  if d.clState n = 1 then d.wakeReqFree n else d

end Sys2Proof.Machine
end

