-- ==== Sys2Proof/Machine/Pin.lean ====
section
/-! DEFINITION. The pin channel (03_pin_channel.md): level codes, slewing, the span sequence, enable and park, the
comparator and its blanking, clamps. The meanings of its rows; the strobe's work on a pin is `pinStrobe`. -/

namespace Sys2Proof.Machine

/-- A code applied as the nearer of two limits (R57, R184, R221). -/
def clipCode (lo hi c : Nat) : Nat := if c < lo then lo else if hi < c then hi else c

/-- One step of a slew limiter; STEP 0 goes to the target directly (R60, R191). -/
def toward (step now tgt : Nat) : Nat :=
  if step = 0 then tgt
  else if now < tgt then (if tgt ≤ now + step then tgt else now + step)
  else (if now ≤ tgt + step then tgt else now - step)

/-- The six level registers of a pin, VIH to VCH, as written. -/
def Dev.lvlCodes (d : Dev) (g : Nat) : List Nat :=
  (List.range 6).map (fun i => d.get (pinBase g + 4 * i) .PIN_VIH_CODE)

/-- The six codes at the DACs now. -/
def Dev.lvlNow (d : Dev) (g : Nat) : List Nat :=
  (List.range 6).map (fun i => d.get (pinBase g + 4 * i) .PIN_VIH_NOW_CODE)

/-- Set the six codes at the DACs. -/
def Dev.setLvlNow (d : Dev) (g : Nat) (cs : List Nat) : Dev :=
  (cs.zipIdx).foldl (fun d ci => d.put (pinBase g + 4 * ci.2) .PIN_VIH_NOW_CODE ci.1) d

/-- All six DACs at 0 V (R56). -/
def zeroLevels : List Nat := [0x40000, 0x40000, 0x40000, 0x40000, 0x40000, 0x40000]

/-- A usable level code (R57). -/
def clipLevel (c : Nat) : Nat := clipCode 0x0CCCD 0xF3333 c

/-- The context that runs on a pin, when the pin is in service (R64). -/
def Dev.service (d : Dev) (g : Nat) : Option Nat :=
  match (d.pin g).owner with
  | some c => if d.ctxActive c then some c else none
  | none => none

/-- The driver state of PIN_CTRL.STATIC and NAP_STATE. -/
def drvOfCode : Nat → Drv
  | 1 => .l | 2 => .h | 3 => .t | _ => .z

/-- The comparator mode of PIN_CMP.MODE (R70). -/
def cmpOfCode : Nat → CmpMode
  | 0 => .fast | 1 => .balanced | 2 => .monitor | _ => .sentinel

/-- The comparator mode of SLEEP_MODE; in DORMANT, MONITOR acts as SENTINEL (R76). -/
def sleepMode (code : Nat) (dormant : Bool) : CmpMode :=
  if code = 1 then (if dormant then .sentinel else .monitor) else if code = 2 then .sentinel else .off

/-- A device-power guard holds the pin's driver at Z (R232). -/
def Dev.guarded (d : Dev) (g : Nat) : Bool :=
  (List.range 8).any (fun i =>
    let k := g / 128 * 8 + i
    (d.dp k).guard && (d.get (dpsBase k + 4 * (g % 128 / 32)) .DPS_GUARD_PINS / 2 ^ (g % 32) % 2 == 1))

/-- The guard of a device-power channel acts while GUARD_EN is 1 and its sensed output below DPS_UV, with PG_IRQ_STAT.GUARD when it starts (R232). -/
def Dev.guardSync (d : Dev) (k : Nat) : Dev :=
  let p := d.dp k
  let g := p.below && d.bit (dpsBase k) .DPS_CFG_GUARD_EN
  let d := d.setDp k { p with guard := g }
  if g && !p.guard then d.irq .dps (dpsBase k) 2 else d

/-- What the driver of a pin does now: its state, overridden by a guard (R232). -/
def Dev.drvNow (d : Dev) (g : Nat) : Drv := if d.guarded g then .z else (d.pin g).drv

/-- The comparator outputs are held: settling, span sequence, blank (R61, R70, R74). -/
def Dev.cmpHeld (d : Dev) (g : Nat) : Bool :=
  d.bit (pinBase g) .PIN_CMP_STAT_SETTLING || d.bit (pinBase g) .PIN_STAT_SPAN_BUSY || (d.pin g).blank

/-- An open window that is not suspended sees the outputs as they stand (R82, R84, R85). -/
def Dev.winSee (d : Dev) (g : Nat) : Dev :=
  let p := d.pin g
  match p.win with
  | some w => d.setPin g { p with win := some { w with failed := w.failed || !(d.bit (pinBase g) (if w.high then .PIN_CMP_STAT_CH else .PIN_CMP_STAT_CL)) } }
  | none => d

/-- Windows of the pin are suspended: its context emits the hold vector (R85, R108). -/
def Dev.winHeld (d : Dev) (g : Nat) : Bool :=
  match d.service g with
  | some c => decide ((d.cx c).gk = .hold) || decide ((d.cx c).gk = .gap)
  | none => true

/-- Set the comparator outputs, and let an open window see them. -/
def Dev.setCmpOut (d : Dev) (g : Nat) (ch cl : Bool) : Dev :=
  let d := (d.setb (pinBase g) .PIN_CMP_STAT_CH ch).setb (pinBase g) .PIN_CMP_STAT_CL cl
  if d.winHeld g then d else d.winSee g

/-- Let the outputs take the pin's present state, unless they are held; a comparator that is OFF reads (0, 0) (R69). -/
def Dev.releaseCmp (d : Dev) (g : Nat) : Dev :=
  if d.cmpHeld g then d
  else if (d.pin g).cmp = .off then d.setCmpOut g false false
  else d.setCmpOut g (d.pin g).rawCH (d.pin g).rawCL

/-- A level code as a voltage, in units of 2^-20 mV, so that it is exact in both spans (R56). -/
def levelQ (span code : Nat) : Int := if span = 0 then 5000 * code - 1250 * 2 ^ 20 else 10000 * code - 2500 * 2 ^ 20

/-- The voltage of level `i` of a pin now, VIH to VCH, in units of 2^-20 mV. -/
def Dev.lvlQ (d : Dev) (g i : Nat) : Int := levelQ (d.get (pinBase g) .PIN_STAT_SPAN_NOW) ((d.lvlNow g).getD i 0)

/-- The hysteresis in force, in mV (R71, R94): none in service, else that of PIN_CMP.HYST. -/
def Dev.hystMv (d : Dev) (g : Nat) : Nat :=
  if (d.service g).isSome && !(d.pin g).safe then 0 else [0, 10, 25, 50].getD (d.pin g).hyst 0

/-- The state that comparator CH (`high`) or CL takes when the pin is at voltage `v` (R72): above VOH + h/2 sets CH, below VOH − h/2 clears it;
below VOL − h/2 sets CL, above VOL + h/2 clears it; between the two it stays. -/
def Dev.cmpAt (d : Dev) (g : Nat) (high : Bool) (v : Int) : Bool :=
  let half : Int := d.hystMv g * 2 ^ 19
  if high then
    (if d.lvlQ g 3 + half < v then true else if v < d.lvlQ g 3 - half then false else (d.pin g).rawCH)
  else
    (if v < d.lvlQ g 4 - half then true else if d.lvlQ g 4 + half < v then false else (d.pin g).rawCL)

/-- The levels of the clamps, low and high (R65): VIL − (LO_MARGIN + 1) × 100 mV, not below −2.4 V, and VCH. -/
def Dev.clampQ (d : Dev) (g : Nat) : Int × Int :=
  let lo := d.lvlQ g 1 - ((d.pin g).margin + 1) * 100 * 2 ^ 20
  (if lo < -2400 * 2 ^ 20 then -2400 * 2 ^ 20 else lo, d.lvlQ g 5)

/-- A channel that is not enabled is on no bus line, and draws none behind a DORMANT cluster (R271). -/
def Dev.unroute (d : Dev) (g : Nat) : Dev :=
  let drop := fun (m : Nat) => if bitOf m (g % 32) then m - 2 ^ (g % 32) else m
  d.forAll ((List.range 4).map (fun x => 4 * (g / 32) + x)) (fun d w =>
    d.setGen w { d.gen w with route := drop (d.gen w).route, kept := drop (d.gen w).kept })

/-- Change the comparator mode in force: OFF reads (0, 0) at once, any other mode settles with its outputs held (R70). -/
def Dev.setCmpMode (d : Dev) (g : Nat) (m : CmpMode) : Dev :=
  if (d.pin g).cmp = m then d
  else
    let d := d.setPin g { d.pin g with cmp := m }
    if m = .off then (d.setb (pinBase g) .PIN_CMP_STAT_SETTLING false).setCmpOut g false false
    else d.setb (pinBase g) .PIN_CMP_STAT_SETTLING true

/-- The swing of the levels applied at a strobe, and its class (R67). SWING is in whole mV; where the swing is not a
whole number of mV its rounding is a free value. -/
def Dev.updSwing (d : Dev) (g : Nat) (codes : List Nat) (span : Nat) : Dev :=
  let three := [codes.getD 0 0, codes.getD 1 0, codes.getD 2 0]
  let hi := three.foldl Nat.max 0
  let lo := three.foldl Nat.min 0xFFFFF
  let num := (hi - lo) * 5000 * (if span = 0 then 1 else 2)
  let cls := if num ≤ 1200 * 2 ^ 20 then 0 else if num ≤ 3300 * 2 ^ 20 then 1 else 2
  ((d.put (pinBase g) .PIN_SWING_SWING (roundFree 0 num (2 ^ 20)).toNat).put (pinBase g) .PIN_SWING_CLASS cls)

/-- Make codes the slew targets of a pin: clipped, with CODE_SAT for a code outside the usable range (R57); the limiter
off steps directly (R60). -/
def Dev.aimLevels (d : Dev) (g : Nat) (codes : List Nat) : Dev :=
  let t := codes.map clipLevel
  let d := if t = codes then d else d.setb (pinBase g) .PIN_STAT_CODE_SAT true
  let d := d.setPin g { d.pin g with tgt := t }
  if (d.pin g).step = 0 then d.setLvlNow g t else d

/-- Step 1 of the span sequence (R61): outputs held, all six DACs slew to 0 V. -/
def Dev.spanStart (d : Dev) (g : Nat) (ena : Bool) : Dev :=
  let b := pinBase g
  let d := (d.setb b .PIN_STAT_SPAN_BUSY true).setb b .PIN_STAT_SPAN_PEND false
  let d := d.setPin g { d.pin g with phase := .spanToZero, enaSpan := ena, spanTgt := d.get b .PIN_LVL_CFG_SPAN }
  d.aimLevels g zeroLevels

/-- What a load strobe does to a pin (R58, R61 to R63, R89), and whether it changed a setting or code in force. The span sequence of an enable
runs at its strobe whoever owns the channel (DEDUCED: notes/assumptions/79.md). -/
def Dev.pinStrobe (d : Dev) (g : Nat) (s : Stb) : Dev × Bool :=
  let b := pinBase g
  let p := d.pin g
  if !(d.bit b .PG_CTRL_EN) || p.safe || p.phase = .disSlew || d.rst.extest then (d, false)
  else if d.bit b .PIN_STAT_PARKED then
    -- enabling, step 2
    let d := d.setb b .PIN_STAT_PARKED false
    let d := d.setPin g { d.pin g with mode := cmpOfCode (d.get b .PIN_CMP_MODE), step := d.get b .PIN_LVL_STEP_STEP }
    if d.get b .PIN_LVL_CFG_SPAN ≠ d.get b .PIN_STAT_SPAN_NOW then (d.spanStart g true, true)
    else
      let d := d.setPin g { d.pin g with phase := .enaSlew }
      let d := d.aimLevels g (d.lvlCodes g)
      (d.updSwing g (d.pin g).tgt (d.get b .PIN_STAT_SPAN_NOW), true)
  else if p.phase = .spanToZero ∨ p.phase = .spanFromZero then
    -- deferred to the end of the span sequence
    let own := s.ctxs ++ (match p.defer with | some o => o.ctxs | none => [])
    (d.setPin g { p with defer := some { s with ctxs := own } }, false)
  else
    let m := cmpOfCode (d.get b .PIN_CMP_MODE)
    let chM := decide (p.phase ≠ .enaSlew ∧ p.mode ≠ m)
    let d := d.setPin g { p with mode := m }
    let d := if p.phase ≠ .enaSlew ∧ d.clState (g / 32) < 2 then d.setCmpMode g m else d
    if d.get b .PIN_LVL_CFG_SPAN ≠ d.get b .PIN_STAT_SPAN_NOW then
      match p.owner with
      | some _ => (d.setb b .PIN_STAT_SPAN_PEND true, chM)
      | none => (d.spanStart g (decide (p.phase = .enaSlew)), true)
    else
      let d := d.setb b .PIN_STAT_SPAN_PEND false
      let t := (d.lvlCodes g).map clipLevel
      let ch := decide (t ≠ p.tgt)
      let d := d.aimLevels g (d.lvlCodes g)
      (d.updSwing g (d.pin g).tgt (d.get b .PIN_STAT_SPAN_NOW), chM || ch)

/-- The driver of a pin that is enabled, settled and not in service takes STATIC (R87, R92). -/
def Dev.driveStatic (d : Dev) (g : Nat) : Dev :=
  d.setPin g { d.pin g with drv := drvOfCode (d.get (pinBase g) .PIN_CTRL_STATIC) }

/-- The pin is enabled and past step 3 of R89, so its fields of R59 act at once. -/
def Dev.pinLive (d : Dev) (g : Nat) : Bool :=
  d.bit (pinBase g) .PG_CTRL_EN && !(d.bit (pinBase g) .PIN_STAT_PARKED) && !(d.pin g).safe &&
    decide ((d.pin g).phase ≠ .enaSlew) && decide ((d.pin g).phase ≠ .disSlew) && !(d.pin g).enaSpan

/-- Step 1 of R90: driver Z, comparator OFF, clamps off, pull on; then the DACs slew to 0 V. -/
def Dev.pinDisable (d : Dev) (g : Nat) : Dev :=
  let b := pinBase g
  let d := d.setCmpMode g .off
  let d := (d.setb b .PIN_STAT_SPAN_BUSY false).setb b .PIN_STAT_SPAN_PEND false
  let d := d.setPin g { d.pin g with drv := .z, clamp := false, pull := true, phase := .disSlew, enaSpan := false, defer := none, blank := false }
  ((d.aimLevels g zeroLevels).releaseCmp g).unroute g

/-- The safe state on a pin (R92, R93): driver Z, pull on, levels frozen, EN cleared, a span sequence abandoned. -/
def Dev.pinSafe (d : Dev) (g : Nat) : Dev :=
  let b := pinBase g
  let p := d.pin g
  let d := (d.setb b .PG_CTRL_EN false).setb b .PIN_STAT_SPAN_BUSY false
  let d := d.setb b .PIN_STAT_SPAN_PEND false
  let d := d.setPin g { p with drv := .z, pull := true, safe := true, phase := .idle, enaSpan := false, defer := none, tgt := d.lvlNow g, blank := false }
  d.releaseCmp g

/-- The release of the safe state on a pin (R93): step 1 of R90 at once, then steps 2 and 3. -/
def Dev.pinRelease (d : Dev) (g : Nat) : Dev :=
  if (d.pin g).safe then (d.setPin g { d.pin g with safe := false }).pinDisable g else d

/-! ### Meanings -/

/-- LEVEL_SLEW_STEP (R60): one limiter period of a pin. -/
def levelSlewStep (d : Dev) (g : Nat) : Dev :=
  d.setLvlNow g (List.zipWith (toward (d.pin g).step) (d.lvlNow g) (d.pin g).tgt)

/-- SPAN_SWITCH (R61 step 4): the span switches; the codes held now, read in the new span, become the targets. -/
def spanSwitch (d : Dev) (g : Nat) : Dev :=
  let p := d.pin g
  if p.phase = .spanToZero ∧ d.lvlNow g = zeroLevels then
    let d := d.put (pinBase g) .PIN_STAT_SPAN_NOW p.spanTgt
    let d := d.setPin g { p with phase := .spanFromZero }
    let d := d.aimLevels g (d.lvlCodes g)
    d.updSwing g (d.pin g).tgt p.spanTgt
  else d

/-- A pin as its cluster enters NAP or DORMANT, or wakes from DORMANT to NAP (R76, R92). -/
def Dev.pinSleepTo (d : Dev) (g : Nat) (dormant : Bool) : Dev :=
  let b := pinBase g
  let d := d.setCmpMode g (sleepMode (d.get b .PIN_CMP_SLEEP_MODE) dormant)
  let p := d.pin g
  if dormant then d.setPin g { p with drv := .z, clamp := false }
  else d.setPin g { p with drv := drvOfCode (d.get b .PIN_CTRL_NAP_STATE), clamp := d.bit b .PIN_CTRL_CLAMP_EN }

/-- ENABLE_SETTLED (R89 step 3): clamps, pull, comparator and driver take their settings; in NAP and DORMANT those of R92. A pin whose owner
runs already keeps its driver as it is until the next drive action (DESIGN CHOICE: notes/assumptions/78.md). -/
def enableSettled (d : Dev) (g : Nat) : Dev :=
  let b := pinBase g
  let p := d.pin g
  if p.phase = .enaSlew ∧ d.lvlNow g = p.tgt then
    let d := d.setPin g { p with phase := .idle, clamp := d.bit b .PIN_CTRL_CLAMP_EN, pull := d.bit b .PIN_CTRL_PULL, hyst := d.get b .PIN_CMP_HYST,
                                 margin := d.get b .PIN_CLAMP_LO_MARGIN, step := d.get b .PIN_LVL_STEP_STEP }
    if d.clState (g / 32) = 2 then d.pinSleepTo g false
    else if d.clState (g / 32) = 3 then d.pinSleepTo g true
    else
      let d := d.setCmpMode g p.mode
      match d.service g with
      | some _ => d
      | none => d.driveStatic g
  else d

/-- CHANNEL_ENABLE (R89 step 1): EN written 1; discarded and logged as LOCKED while a safe state holds (R93). The PMU
leaves FORCED_OFF (R204). -/
def channelEnable (d : Dev) (g : Nat) : Dev :=
  if (d.pin g).safe then d.logErr true .locked (pinBase g + 8)
  else
    let d := d.setb (pinBase g) .PG_CTRL_EN true
    if d.get (pinBase g) .PMU_STAT_SEQ = 7 then d.put (pinBase g) .PMU_STAT_SEQ 0 else d

/-- COMPARATOR_SETTLED (R70): the settling time ends and the outputs are released. -/
def comparatorSettled (d : Dev) (g : Nat) : Dev :=
  if d.bit (pinBase g) .PIN_CMP_STAT_SETTLING then
    (d.setb (pinBase g) .PIN_CMP_STAT_SETTLING false).releaseCmp g
  else d

/-- One clamp latches its conduction. -/
def Dev.clampLatch (d : Dev) (g : Nat) (f : Fld) : Dev := (d.setb (pinBase g) f true).irq .pin (pinBase g) 7

/-- CLAMP_CONDUCTION (R65): the pin is driven to `v` (in 2^-20 mV) with more than 1 mA; a clamp that is on and whose level is passed conducts. -/
def clampConduction (d : Dev) (g : Nat) (v : Int) : Dev :=
  if (d.pin g).clamp then
    let q := d.clampQ g
    let d := if q.2 < v then d.clampLatch g .PIN_STAT_CLAMP_HI else d
    if v < q.1 then d.clampLatch g .PIN_STAT_CLAMP_LO else d
  else d

/-! ### Blanking (R59, R71, R73, R74) -/

/-- The pins of a range that a blanking timer blanks: in service, with its number in PIN_CMP.BLANK as in force (R71). -/
def Dev.blankPins (d : Dev) (r b : Nat) : List Nat :=
  ((List.range 128).map (fun i => 128 * r + i)).filter (fun g => (d.service g).isSome && (d.pin g).bsel == b + 1)

/-- Is the pin to be blanked now: in service, and a window of its timer is open. -/
def Dev.blankWant (d : Dev) (g : Nat) : Bool :=
  let s := (d.pin g).bsel
  (d.service g).isSome && !(d.pin g).safe && decide (1 ≤ s ∧ s ≤ 4) && d.blankOpen.contains (4 * (g / 128) + (s - 1))

/-- Blank the pin or end its blank, as `blankWant` says; the outputs take the pin's present state at the end of a blank (R74). -/
def Dev.blankSync (d : Dev) (g : Nat) : Dev :=
  let w := d.blankWant g
  if (d.pin g).blank = w then d
  else
    let d := d.setPin g { d.pin g with blank := w }
    if w then d else d.releaseCmp g

/-- A vector-clock period starts for a pin in service: PIN_CMP.BLANK comes into force (R59). -/
def Dev.blankLatch (d : Dev) (g : Nat) : Dev :=
  let v := d.get (pinBase g) .PIN_CMP_BLANK
  (if (d.pin g).bsel = v then d else d.setPin g { d.pin g with bsel := v }).blankSync g

/-- BLANK_WINDOW (R73, R74): a timer starts a window, for ONESHOT only after an event of its source, or ends one. Windows that overlap merge: the
blank ends with the last. An event during a ONESHOT window restarts it: the blank then goes on to the end of the restarted window, and an
end that comes before that start is the old window's and does nothing (DESIGN CHOICE: notes/assumptions/80.md). -/
def blankWindow (d : Dev) (r b : Nat) (start : Bool) : Dev :=
  let base := blankBase r + 16 * b
  let mode := d.get base .SEQ_BLANK_CFG_MODE
  let key := 4 * r + b
  if start then
    if d.get base .SEQ_BLANK_WIDTH_WIDTH ≠ 0 ∧ (mode = 1 ∨ (mode = 2 ∧ d.blankArm.contains key)) then
      let opened := if mode = 2 ∧ d.blankOpen.contains key then d.blankOpen else d.blankOpen ++ [key]
      let d := { d with blankArm := d.blankArm.filter (· ≠ key), blankOpen := opened }
      (d.blankPins r b).foldl (fun d g => d.setPin g { d.pin g with blank := true }) d
    else d
  else if mode = 2 ∧ d.blankArm.contains key then d
  else
    let d := { d with blankOpen := d.blankOpen.erase key }
    if d.blankOpen.contains key then d
    else (d.blankPins r b).foldl (fun d g => (d.setPin g { d.pin g with blank := false }).releaseCmp g) d

/-- An event of a ONESHOT source arms the range's timers that select it (R73, R96). -/
def Dev.blankEvent (d : Dev) (r src : Nat) : Dev :=
  (List.range 4).foldl (fun d b =>
    let base := blankBase r + 16 * b
    if d.get base .SEQ_BLANK_CFG_MODE = 2 ∧ d.get base .SEQ_BLANK_CFG_SRC = src ∧ ¬ d.blankArm.contains (4 * r + b)
    then { d with blankArm := d.blankArm ++ [4 * r + b] } else d) d

end Sys2Proof.Machine
end

