-- ==== Sys2Proof/Machine/Sine.lean ====
section
/-! DEFINITION. The sine as exact arithmetic, for the bounds of R211 and the table of R268. -/

namespace Sys2Proof.Machine

/-- sin x at 2^60, for x in the first quadrant at 2^60: the power series to x^17 in nested form. -/
def sinFix (x : Nat) : Nat :=
  let y := x * x / 2 ^ 60
  x * [6, 20, 42, 72, 110, 156, 210, 272].foldr (fun k acc => 2 ^ 60 - y * acc / (k * 2 ^ 60)) (2 ^ 60) / 2 ^ 60

/-- π/2 at 2^60. -/
def halfPi : Nat := 1811004864519280711

/-- The angle of `r` in a quadrant of `n` steps, at 2^60. -/
def quadAngle (r n : Nat) : Nat := r * halfPi / n

/-- sin(2π·a / 4n) at 2^60, for `a` in a circle of `4n` steps: the quadrants by symmetry. -/
def sinCircle (a n : Nat) : Int :=
  let q := a / n % 4
  let r := a % n
  let s := sinFix (quadAngle (if q % 2 = 1 then n - r else r) n)
  if q < 2 then s else -(s : Int)

/-- An integer held to the values within 2 of amp·sin(2π·acc / 2^32) (R211). -/
def sineBound (amp acc : Nat) (e : Int) : Int :=
  let x := amp * sinCircle (acc % 2 ^ 32) (2 ^ 30)
  let lo := -((-x) / 2 ^ 60) - 2
  let hi := x / 2 ^ 60 + 2
  if e < lo then lo else if hi < e then hi else e

/-- The quarter-wave table of 4,096 entries with linear interpolation over 16 bits (R268), at 2^76: the sine of phase `p` of a circle of 2^30,
the top 30 bits of φ. -/
def quarterSine (p : Nat) : Int :=
  let q := p / 2 ^ 28 % 4
  let m := if q % 2 = 1 then 2 ^ 28 - p % 2 ^ 28 else p % 2 ^ 28
  let i := m / 2 ^ 16
  let f := m % 2 ^ 16
  let s : Nat := sinFix (quadAngle i 4096) * (2 ^ 16 - f) + sinFix (quadAngle (i + 1) 4096) * f
  if q < 2 then s else -(s : Int)

/-- An integer held to round(AMP × sine) (R268): the nearest integer to AMP times the table's sine; nearer than 2^-6 to the middle of two it may be
either, since the width of the table's entries is stated nowhere (DESIGN CHOICE: notes/assumptions/106.md). -/
def waveBound (amp φ : Nat) (e : Int) : Int :=
  let x := amp * quarterSine (φ / 2 ^ 18 % 2 ^ 30)
  let lo := (x + 2 ^ 75 - 2 ^ 70) / 2 ^ 76
  let hi := (x + 2 ^ 75 + 2 ^ 70) / 2 ^ 76
  if e < lo then lo else if hi < e then hi else e

end Sys2Proof.Machine
end

