-- ==== Sys2Proof/Machine/Pmu.lean ====
section
/-! DEFINITION. Per-pin force and measure (07_force_measure.md): settings in force, the sequences of R193 to R198 and R500,
slewing, the sine, conversions and averages, the alarm. -/

namespace Sys2Proof.Machine

/-- The safe code of a mode and span (R182, R183). -/
def pmuSafe (mode span : Nat) : Nat := if mode = 2 then 0x80000 else if span = 0 then 0x80000 else 0x40000

/-- A force code applied in a mode and span (R182 to R184). -/
def pmuClip (mode span c : Nat) : Nat :=
  if mode = 2 ∨ span = 0 then clipCode 0x1999A 0xE6666 c else clipCode 0x0CCCD 0xF3333 c

/-- A clamp code applied: current codes in FV, voltage codes of the span in FI (R184, R185). -/
def clampClip (mode span c : Nat) : Nat :=
  if mode = 1 ∨ span = 0 then clipCode 0x1999A 0xE6666 c else clipCode 0x0CCCD 0xF3333 c

/-- PMU_CTRL.MODE with its reserved codes acting as OFF (R180). -/
def Dev.pmuMode (d : Dev) (g : Nat) : Nat :=
  let m := d.get (pinBase g) .PMU_CTRL_MODE
  if m < 4 then m else 0

/-- PMU_CTRL.IRANGE with its reserved codes acting as I2U (R183). -/
def Dev.pmuRange (d : Dev) (g : Nat) : Nat :=
  let m := d.get (pinBase g) .PMU_CTRL_IRANGE
  if m < 5 then m else 0

/-- MODE_NOW, the mode in force. -/
def Dev.pmuNow (d : Dev) (g : Nat) : Nat := d.get (pinBase g) .PMU_STAT_MODE_NOW

/-- The owner of a channel is HOLDING (R192). -/
def Dev.ownerHolding (d : Dev) (g : Nat) : Bool :=
  match (d.pin g).owner with
  | some c => d.ctxState c = 4
  | none => false

/-- Set the bits of PMU_STAT[6:0]; the channel's WFG_PMU_EVT bit and PMU_EVT follow (R217). -/
def Dev.pmuEvt (d : Dev) (g : Nat) (f : Fld) : Dev :=
  let b := pinBase g
  let old := d.get b ⟨0x21C, 0, 7⟩
  let d := d.setb b f true
  if old = 0 ∧ d.get (wfgBase (g / 32)) .WFG_PMU_EVT_EN_CH / 2 ^ (g % 32) % 2 = 1
  then d.irq .wfg (wfgBase (g / 32)) 31 else d

/-- Set the code at the PMU DAC; SLEWING shows whether the limiter still moves it. -/
def Dev.setPmuNow (d : Dev) (g c : Nat) : Dev :=
  let p := d.pmu g
  let d := d.setPmu g { p with centre := c }
  let d := if d.bit (pinBase g) .PMU_STAT_SINE_ON then d else d.put (pinBase g) .PMU_FORCE_NOW_CODE c
  d.setb (pinBase g) .PMU_STAT_SLEWING (c ≠ p.tgt)

/-- Start a move of the force code to a target (R191); with the limiter off it changes directly, but not while the limiter is stopped (R192). -/
def Dev.pmuAim (d : Dev) (g t : Nat) : Dev :=
  let d := d.setPmu g { d.pmu g with tgt := t }
  if d.get (pinBase g) .PMU_SLEW_STEP_STEP = 0 ∧ d.ownerHolding g = false then d.setPmuNow g t else d.setPmuNow g (d.pmu g).centre

/-- The force code of the settings as a target in a mode and span; a code outside the usable codes sets CODE_SAT (R184). -/
def Dev.pmuAimForce (d : Dev) (g mode span : Nat) : Dev :=
  let c := (d.pmu g).set.force
  let t := pmuClip mode span c
  let d := if t = c then d else d.pmuEvt g .PMU_STAT_CODE_SAT
  d.pmuAim g t

/-- Apply the clamp codes and MEAS of the settings (R185, R193): CLAMP_HI below CLAMP_LO is applied as equal to CLAMP_LO. -/
def Dev.pmuClamps (d : Dev) (g mode span : Nat) : Dev :=
  let s := (d.pmu g).set
  let hi := clampClip mode span s.clHi
  let lo := clampClip mode span s.clLo
  let d := if (mode = 1 ∨ mode = 2) ∧ (s.clHi ≠ hi ∨ s.clLo ≠ lo) then d.pmuEvt g .PMU_STAT_CODE_SAT else d
  d.setPmu g { d.pmu g with clLo := lo, clHi := if hi < lo then lo else hi, meas := s.meas }

/-- The settings as the registers hold them. -/
def Dev.pmuSet (d : Dev) (g : Nat) : PmuSet :=
  let b := pinBase g
  { mode := d.pmuMode g, span := d.get b .PMU_CTRL_SPAN, range := d.pmuRange g, meas := d.get b .PMU_CTRL_MEAS, force := d.get b .PMU_FORCE_CODE,
    clHi := d.get b .PMU_CLAMP_HI_CODE, clLo := d.get b .PMU_CLAMP_LO_CODE, sine := d.bit b .PMU_CTRL_SINE, ftw := d.get b .PMU_SINE_FTW_VALUE,
    amp := d.get b .PMU_SINE_AMP_AMP, phase := d.get b .PMU_SINE_PHASE_VALUE }

/-- The switch step of a sequence uses the force, clamp and MEAS values as written by then (R198). -/
def Dev.pmuTake (d : Dev) (g : Nat) : Dev :=
  let r := d.pmuSet g
  d.setPmu g { d.pmu g with set := { (d.pmu g).set with meas := r.meas, force := r.force, clHi := r.clHi, clLo := r.clLo } }

/-- The sine is running (R212). -/
def Dev.sineOn (d : Dev) (g : Nat) : Bool := d.bit (pinBase g) .PMU_STAT_SINE_ON

/-- The frequency word with its cap (R211). -/
def PmuSet.word (s : PmuSet) : Nat := Nat.min s.ftw 0x06666666

/-- The sine is over: the output holds CENTRE (R212), and a zero transit that waited for it goes on (R195). -/
def Dev.sineOver (d : Dev) (g : Nat) : Dev :=
  let d := d.setb (pinBase g) .PMU_STAT_SINE_ON false
  let p := d.pmu g
  let d := (d.setPmu g { p with sineEnd := false, zWait := false }).setPmuNow g p.centre
  if p.zWait then d.pmuAim g (pmuSafe (d.pmuNow g) (d.get (pinBase g) .PMU_STAT_SPAN_NOW)) else d

/-- Stop the sine: at its next zero crossing, or at once with FTW 0 (R212). -/
def Dev.sineStop (d : Dev) (g : Nat) : Dev :=
  let on := d.sineOn g
  let d := d.setPmu g { d.pmu g with sineReq := false, sineEnd := on }
  if on ∧ (d.pmu g).set.ftw = 0 then d.sineOver g else d

/-- The sine starts if SINE = 1 in FV or FI (R194 to R195, R212, R500): at once, or after the crossing that ends the one that still runs. -/
def Dev.sineMaybe (d : Dev) (g : Nat) : Dev :=
  let m := d.pmuNow g
  let p := d.pmu g
  if p.set.sine ∧ (m = 1 ∨ m = 2) ∧ (d.sineOn g = false ∨ p.sineEnd = true) then d.setPmu g { p with sineReq := true } else d

/-- Step 1 of a disconnect or a release (R196): from the present state, the sine stops and FV or FI slews to the safe value. A disconnect
that ends in park loses a deferred strobe, and the settings of one during enabling (R202). -/
def Dev.pmuOff (d : Dev) (g : Nat) (q : PmuSeq) (park : Bool) : Dev :=
  let b := pinBase g
  let d := d.sineStop g
  let d := d.put b .PMU_STAT_SEQ (if q = .release then 5 else 6)
  let p := d.pmu g
  let p := { p with seq := q, sw := false, forces := false, park := park, back := false, zWait := false }
  let d := d.setPmu g (if park then { p with defer := none, atEna := none } else p)
  let d := if park then d.setb b .PMU_STAT_PEND false else d
  let m := d.pmuNow g
  if m = 1 ∨ m = 2 then d.pmuAim g (pmuSafe m (d.get b .PMU_STAT_SPAN_NOW)) else d.pmuAim g (d.pmu g).centre

/-- What a PMU that stops at once keeps of its internal state; its settings in force are those of OFF. -/
def Pmu.stopped (p : Pmu) : Pmu :=
  { p with seq := .none, sw := false, forces := false, measSw := false, park := false, back := false, zWait := false, defer := none, sineReq := false,
           sineEnd := false, set := { p.set with mode := 0 } }

/-- Park of the PMU (R200). -/
def Dev.pmuPark (d : Dev) (g : Nat) : Dev :=
  let b := pinBase g
  let d := (d.put b .PMU_STAT_SPAN_NOW 1).put b .PMU_STAT_IRANGE_NOW 3
  let d := (d.put b .PMU_STAT_MODE_NOW 0).setb b .PMU_STAT_CONN false
  let d := (d.setb b .PMU_STAT_SINE_ON false).setb b .PMU_STAT_PEND false
  let d := d.setPmu g { (d.pmu g).stopped with set := {}, tgt := 0x40000 }
  d.setPmuNow g 0x40000

/-- Amplifier off and switch open at once (R203, R210): safe state and alarm disconnect; SEQ reads FORCED_OFF. -/
def Dev.pmuForceOff (d : Dev) (g : Nat) : Dev :=
  let b := pinBase g
  let d := (d.put b .PMU_STAT_SEQ 7).setb b .PMU_STAT_CONN false
  let d := (d.put b .PMU_STAT_MODE_NOW 0).setb b .PMU_STAT_SINE_ON false
  let d := d.setb b .PMU_STAT_PEND false
  let d := d.setb b .PMU_ADC_RSTAT_BUSY false
  let p := d.pmu g
  let d := d.setPmu g { p.stopped with atEna := none, tgt := p.centre, host := {}, free := {}, sched := {} }
  d.setPmuNow g (d.pmu g).centre

/-- Run the first row of R193 that matches with the settings `s`, and whether anything changed against those applied before (R190). A channel that
stays OFF leaves FORCED_OFF for OFF (DESIGN CHOICE: notes/assumptions/102.md). -/
def Dev.pmuRunWith (d : Dev) (g : Nat) (s : PmuSet) : Dev × Bool :=
  let b := pinBase g
  let p := d.pmu g
  let m := s.mode
  let m0 := d.pmuNow g
  let sp0 := d.get b .PMU_STAT_SPAN_NOW
  let ir0 := d.get b .PMU_STAT_IRANGE_NOW
  let d := d.setPmu g { p with set := s, amp := if d.sineOn g then p.amp else s.amp }
  let run := fun (d : Dev) (q : PmuSeq) => d.setPmu g { d.pmu g with seq := q, sw := false, forces := false }
  let act :=
    if m = 0 then
      if m0 = 0 then (if d.get b .PMU_STAT_SEQ = 7 then d.put b .PMU_STAT_SEQ 0 else d)
      else d.pmuOff g .disconnect false
    else if m0 = 0 ∨ (m0 = 3 ∧ m ≠ 3) then
      -- connect or engage: SPAN, IRANGE, MEAS set in step 1
      let d := run d (if m0 = 0 then .connect else .engage)
      let d := (d.put b .PMU_STAT_SEQ 1).put b .PMU_STAT_SPAN_NOW s.span
      let d := d.put b .PMU_STAT_IRANGE_NOW s.range
      d.pmuClamps g m s.span
    else if m ≠ 3 ∧ (m ≠ m0 ∨ s.span ≠ sp0 ∨ (m = 2 ∧ s.range ≠ ir0)) then
      let d := ((run d .zero).sineStop g).put b .PMU_STAT_SEQ 3
      if d.sineOn g then d.setPmu g { d.pmu g with zWait := true } else d.pmuAim g (pmuSafe m0 sp0)
    else if m = 3 ∧ m0 ≠ 3 then d.pmuOff g .release false
    else if s.range ≠ ir0 ∨ s.span ≠ sp0 then
      let d := ((run d .range).sineStop g).put b .PMU_STAT_SEQ 4
      d.pmuClamps g m s.span
    else
      let mc := decide (s.meas ≠ p.meas) || p.measSw
      let d := d.pmuClamps g m sp0
      let d := d.setPmu g { d.pmu g with measSw := mc }
      let d := if m = 1 ∨ m = 2 then d.pmuAimForce g m sp0 else d
      if s.sine && !mc then d.sineMaybe g else d.sineStop g
  (act, decide (p.set ≠ s))

/-- The sequence of R193 with the settings that the registers hold now. -/
def Dev.pmuRun (d : Dev) (g : Nat) : Dev × Bool := d.pmuRunWith g (d.pmuSet g)

/-- What a load strobe does to a PMU (R187, R193, R198, R201, R210). -/
def Dev.pmuStrobe (d : Dev) (g : Nat) (s : Stb) : Dev × Bool :=
  let b := pinBase g
  let p := d.pmu g
  if !(d.bit b .PG_CTRL_EN) || (d.pin g).safe || (d.pin g).phase = .disSlew then (d, false)
  else if d.bit b .PMU_STAT_ALARM_DISC then (d, false)
  else if (d.pin g).phase = .enaSlew ∨ (d.pin g).enaSpan then (d.setPmu g { p with atEna := some (d.pmuSet g) }, false)
  else if p.seq ≠ .none then
    let own := s.ctxs ++ (match p.defer with | some o => o.ctxs | none => [])
    let d := d.setPmu g { p with defer := some { s with ctxs := own } }
    ((d.setb b .PMU_STAT_PEND true).pmuEvt g .PMU_STAT_STB_DEFER, false)
  else d.pmuRun g

/-- The settings of a strobe during enabling act once the channel is in operation (R89 step 3, R201) and no sequence runs any more (R198). -/
def Dev.pmuEnabled (d : Dev) (g : Nat) : Dev :=
  match (d.pmu g).atEna with
  | some s =>
    if d.bit (pinBase g) .PG_CTRL_EN ∧ (d.pin g).phase = .idle ∧ (d.pin g).enaSpan = false ∧ (d.pmu g).seq = .none then
      ((d.setPmu g { d.pmu g with atEna := none }).pmuRunWith g s).1
    else d
  | none => d

/-- A sample as PMU registers hold it: 20 bits sign-extended to 32 (R10). -/
def sampleWord (x : Int) : Nat := (x % 2 ^ 32).toNat

/-- The INVALID value (R199). -/
def invalidSample : Int := -0x80000

/-- A conversion as it enters an average: overlapping a switch gives INVALID, beyond full scale saturates (R199). -/
def Avg.add (a : Avg) (x : Int) (inv : Bool) : Avg :=
  if inv then { a with n := a.n + 1, inv := true }
  else { a with n := a.n + 1, hi := a.hi || decide (x > 0x7FFFF), lo := a.lo || decide (x < -0x7FFFF), sum := a.sum + (if x > 0x7FFFF then 0x7FFFF else if x < -0x7FFFF then -0x7FFFF else x) }

/-- The mean of `2^k` conversions, rounded to the nearest with halves away from zero (R206). -/
def meanRound (sum : Int) (k : Nat) : Int :=
  let n : Int := 2 ^ k
  if 0 ≤ sum then (2 * sum + n) / (2 * n) else -((2 * (-sum) + n) / (2 * n))

/-- The output of a complete average (R206): INVALID first, then saturated high, then low, else the mean. -/
def Avg.out (a : Avg) (k : Nat) : Int :=
  if a.inv then invalidSample else if a.hi then 0x7FFFF else if a.lo then -0x7FFFF else meanRound a.sum k

end Sys2Proof.Machine
end

