-- ==== Sys2Proof/Machine/TdcArm.lean ====
section
/-! DEFINITION. Arming a TDC (R239 to R241) and the end of a code-density slice (R249, R252). -/

namespace Sys2Proof.Machine

/-- The channels of a cluster. -/
def clPins (n : Nat) : List Nat := (List.range 32).map (fun i => 32 * n + i)

/-- TDC_CFG.MODE with its reserved code acting as OFF (R239). -/
def Dev.tdcMode (d : Dev) (g : Nat) : Nat :=
  let m := d.get (pinBase g) .TDC_CFG_MODE
  if m = 3 then 0 else m

/-- TDC_CFG.FUNC with its reserved code acting as STAMP (R239). -/
def Dev.tdcFunc (d : Dev) (g : Nat) : Nat :=
  let m := d.get (pinBase g) .TDC_CFG_FUNC
  if m = 3 then 0 else m

/-- TDC_STAT.STATE: 0 OFF, 1 IDLE, 2 ARMED, 3 OPEN, 4 CAL. -/
def Dev.tdcState (d : Dev) (g : Nat) : Nat := d.get (pinBase g) .TDC_STAT_STATE

/-- A measurement is ARMED or OPEN. -/
def Dev.tdcBusy (d : Dev) (g : Nat) : Bool := d.tdcState g == 2 || d.tdcState g == 3

/-- TIMEOUT in force (R254). -/
def Dev.tdcLimit (d : Dev) (g : Nat) : Nat :=
  let t := d.get (pinBase g) .TDC_TIMEOUT_TIME
  if t < 0x667 then 0x667 else if 2 ^ 50 < t then 2 ^ 50 else t

/-- Arm a measurement of a TDC that has none (R240, R241). -/
def Dev.tdcArmFresh (d : Dev) (g ta : Nat) (ctx : Option Nat) (byMark : Bool) : Dev :=
  let b := pinBase g
  let f := d.tdcFunc g
  let st := f == 1 && byMark && bitOf (d.get b .TDC_CFG_START_SRC) 4
  let d := d.setTdc g { d.tdc g with ta := ta, func := f, lim := d.tdcLimit g, nxt := none, start := if st then some ta else none, stops := 0, n := 0, runs := [], nextB := false, deadM := false, seq := 0, ctx := ctx }
  let d := if ctx.isNone then d.put b .TDC_RES_STAT_STATUS 0 else d
  d.put b .TDC_STAT_STATE (if f = 1 ∧ ¬ st then 2 else 3)

/-- A GO is refused: the mode is not HOST, or ARM is not GO (R240). -/
def Dev.tdcRefused (d : Dev) (g : Nat) : Bool :=
  let arm := d.get (pinBase g) .TDC_CFG_ARM
  d.tdcMode g != 1 || arm == 1 || arm == 2

/-- The TDCs of a cluster return to their comparators; a GO that waited is served (R249, R252). -/
def Dev.tdcCdEnd (d : Dev) (n : Nat) : Dev :=
  let d := d.put (tdccBase n) .PG_STAT_STATE 0
  d.forAll (clPins n) (fun d g =>
    if d.tdcState g = 4 then
      let d := d.put (pinBase g) .TDC_STAT_STATE (if d.tdcMode g = 0 then 0 else 1)
      let w := (d.tdc g).goWait
      let d := d.setTdc g { d.tdc g with goWait := false }
      if w ∧ ¬ d.tdcRefused g then d.tdcArmFresh g (tickUp d.time) none false else d
    else d)

end Sys2Proof.Machine
end

