-- ==== Sys2Proof/Machine/Safe.lean ====
section
/-! DEFINITION. Device-power channels as strobes and safe states act on them (08_device_power_channels.md), the stop of a
generator (R263, R272), the buffers of the raster engine (R331, R336), and the safe state of a cluster (R426). -/

namespace Sys2Proof.Machine

/-! ### Device-power channels -/

/-- PG_STAT.STATE of a device-power channel (R234): 0 PARKED, 1 OFF, 2 RAMP_UP, 3 ON, 4 RAMP_DOWN, 5 DISCHARGE, 6 TRIPPED,
7 SAFE. -/
def Dev.dpsState (d : Dev) (k : Nat) : Nat := d.get (dpsBase k) .PG_STAT_STATE

/-- DPS_STAT.UV is 1 while the channel is ON and its sensed output below DPS_UV, with PG_IRQ_STAT.UV on each 0 → 1 change (R223). -/
def Dev.dpsUvSync (d : Dev) (k : Nat) : Dev :=
  let b := dpsBase k
  let uv := (d.dp k).below && d.dpsState k == 3
  let was := d.bit b .DPS_STAT_UV
  let d := d.setb b .DPS_STAT_UV uv
  if uv && !was then d.irq .dps b 1 else d

/-- Set the state of a device-power channel. -/
def Dev.setDpsState (d : Dev) (k st : Nat) : Dev := (d.put (dpsBase k) .PG_STAT_STATE st).dpsUvSync k

/-- The leader a channel names, when it is ganged (R228). -/
def Dev.dpsLeader (d : Dev) (k : Nat) : Option Nat :=
  if d.bit (dpsBase k) .DPS_GANG_EN then some (k / 8 * 8 + d.get (dpsBase k) .DPS_GANG_LEADER) else none

/-- A ganged member whose leader does not have GANG.EN (R228). -/
def Dev.dpsOrphan (d : Dev) (k : Nat) : Bool :=
  match d.dpsLeader k with
  | some l => !(d.bit (dpsBase l) .DPS_GANG_EN)
  | none => false

/-- The channels of a gang, or the channel alone (R228, R229). -/
def Dev.dpsGang (d : Dev) (k : Nat) : List Nat :=
  match d.dpsLeader k with
  | some l => ((List.range 8).map (fun i => k / 8 * 8 + i)).filter (fun j => j == k || d.dpsLeader j == some l)
  | none => [k]

/-- The channel whose settings a channel uses: its leader's, or its own (R228). -/
def Dev.dpsSrc (d : Dev) (k : Nat) : Nat := (d.dpsLeader k).getD k

/-- The owner of a channel; OWNER must name a context of the channel's range (R227). -/
def Dev.dpsOwner (d : Dev) (k : Nat) : Option Nat :=
  let b := dpsBase k
  if d.bit b .DPS_CFG_OWN_EN ∧ d.get b .DPS_CFG_OWNER / 128 = k / 8 then some (d.get b .DPS_CFG_OWNER) else none

/-- The owner of a channel is HOLDING (R227). -/
def Dev.dpsHolding (d : Dev) (k : Nat) : Bool :=
  match d.dpsOwner k with
  | some c => d.ctxState c == 4
  | none => false

/-- A code applied, with CODE_SAT for one outside the usable codes (R221). -/
def Dev.dpsClip (d : Dev) (k hi c : Nat) : Dev × Nat :=
  let t := clipCode 0x80000 hi c
  (if t = c then d else d.setb (dpsBase k) .DPS_STAT_CODE_SAT true, t)

/-- The end of the turn-off slew (R226 steps 2 and 3): the loop opens, so it limits no more (R222). -/
def Dev.dpsReached (d : Dev) (k : Nat) : Dev :=
  if d.dpsState k = 4 ∧ d.get (dpsBase k) .DPS_FORCE_NOW_CODE = 0x80000 then
    ((d.setDp k { d.dp k with loop := false, q3 := true }).setb (dpsBase k) .DPS_STAT_LIMITING false).setDpsState k 5
  else d

/-- Make a code the slew target; with the limiter off and the loop closed the code changes directly (R225), but not while the limiter is stopped
(R227). -/
def Dev.dpsAim (d : Dev) (k t : Nat) : Dev :=
  let d := d.setDp k { d.dp k with tgt := t }
  if d.get (dpsBase (d.dpsSrc k)) .DPS_SLEW_STEP_STEP = 0 ∧ (d.dp k).loop = true ∧ d.dpsHolding k = false
  then (d.put (dpsBase k) .DPS_FORCE_NOW_CODE t).dpsReached k else d

/-- Turn-off from step 1 (R226). -/
def Dev.dpsTurnOff (d : Dev) (k : Nat) : Dev := ((d.setDpsState k 4).dpsAim k 0x80000).dpsReached k

/-- The settings as the registers hold them, those of the leader for a ganged channel (R228). -/
def Dev.dpsSet (d : Dev) (k : Nat) : DpsSet :=
  let s := dpsBase (d.dpsSrc k)
  { out := d.bit s .DPS_CTRL_OUT, sense := d.bit s .DPS_CTRL_SENSE, irange := d.get s .DPS_CTRL_IRANGE, force := d.get s .DPS_FORCE_CODE,
    ilim := d.get s .DPS_ILIM_CODE }

/-- Apply the current limit, range and sense of the channel's settings (R221, R225). -/
def Dev.dpsSettings (d : Dev) (k : Nat) : Dev :=
  let s := (d.dp k).set
  let r := d.dpsClip k 0xE6666 s.ilim
  let d := r.1.setDp k { r.1.dp k with ilim := r.2, irange := s.irange }
  d.setb (dpsBase k) .DPS_STAT_LOCAL (!(s.sense && !(d.dp k).sOpen))

/-- Turn-on, step 1 (R226). The sensed output is a free value among the usable codes. -/
def Dev.dpsTurnOn (d : Dev) (k : Nat) : Dev :=
  let d := d.setDp k { d.dp k with q3 := false, loop := false, sOpen := false }
  let d := (d.setDpsState k 2).dpsSettings k
  let f := d.takeFree 0x70001
  let d := f.1.put (dpsBase k) .DPS_FORCE_NOW_CODE (0x80000 + f.2)
  let r := d.dpsClip k 0xF0000 (d.dp k).set.force
  r.1.setDp k { r.1.dp k with tgt := r.2 }

/-- What a load strobe does to a device-power channel (R223, R225 to R228), and whether it changed a setting. While TRIPPED is set the settings
stay pending. -/
def Dev.dpsStrobe (d : Dev) (k : Nat) (s : Stb) : Dev × Bool :=
  let b := dpsBase k
  let st := d.dpsState k
  let p := d.dp k
  if !(d.bit b .PG_CTRL_EN) ∨ st = 0 ∨ st = 7 ∨ d.rst.extest = true then (d, false)
  else if d.dpsOrphan k then (d, false)
  else if st = 2 ∨ st = 4 ∨ st = 5 then
    let own := s.ctxs ++ (match p.defer with | some o => o.ctxs | none => [])
    ((d.setDp k { p with defer := some { s with ctxs := own } }).setb b .PG_STAT_BUSY true, false)
  else if d.bit b .DPS_STAT_TRIPPED then (d, false)
  else
    let n := d.dpsSet k
    let d := d.setDp k { p with set := n }
    let act :=
      if st = 3 then
        let d := d.dpsSettings k
        if n.out then
          let r := d.dpsClip k 0xF0000 n.force
          r.1.dpsAim k r.2
        else d.dpsTurnOff k
      else if n.out then d.dpsTurnOn k
      else d.dpsSettings k
    (act, decide (p.set ≠ n))

/-- The output is off at once (R231): gate removed, discharge on, a sequence and the measurements abandoned. -/
def Dev.dpsOffNow (d : Dev) (k st : Nat) : Dev :=
  let p := d.dp k
  let d := d.setDp k { p with set := { p.set with out := false }, loop := false, q3 := true, defer := none, hostBusy := false, host := {}, hostI := {}, free := {}, freeI := {}, sched := {}, schedI := {} }
  let d := (d.setb (dpsBase k) .PG_STAT_BUSY false).setb (dpsBase k) .DPS_STAT_LIMITING false
  d.setDpsState k st

/-- A trip of a channel: the whole gang is disabled (R222, R223, R229). A member that is parked or in a safe state is off already and keeps its
condition (R231; DEDUCED: notes/assumptions/104.md). -/
def Dev.dpsTrip (d : Dev) (k : Nat) : Dev :=
  d.forAll (d.dpsGang k) (fun d j =>
    if d.dpsState j = 0 ∨ d.dpsState j = 7 then d else
    ((d.dpsOffNow j 6).setb (dpsBase j) .DPS_STAT_TRIPPED true).irq .dps (dpsBase j) 0)

/-- The safe state of cluster `n` on a device-power channel (R231): EN cleared, STATE SAFE. -/
def Dev.dpsSafe (d : Dev) (n k : Nat) : Dev :=
  let d := (d.dpsOffNow k 7).setb (dpsBase k) .PG_CTRL_EN false
  d.setDp k { d.dp k with safeOf := n :: (d.dp k).safeOf.filter (fun m => m != n) }

/-- A write of EN = 1 takes the channel out of its parked condition (R231; DEDUCED: notes/assumptions/12.md). -/
def Dev.dpsEnable (d : Dev) (k : Nat) : Dev :=
  let d := d.setb (dpsBase k) .PG_CTRL_EN true
  if d.dpsState k = 0 ∨ d.dpsState k = 7 then d.setDpsState k 1 else d

/-- Clearing EN runs turn-off from step 1 and parks the channel (R231); a strobe deferred for a sequence that it breaks off is dropped. -/
def Dev.dpsDisable (d : Dev) (k : Nat) : Dev :=
  let d := d.setb (dpsBase k) .PG_CTRL_EN false
  let st := d.dpsState k
  if st = 2 ∨ st = 3 then ((d.setDp k { d.dp k with defer := none }).setb (dpsBase k) .PG_STAT_BUSY false).dpsTurnOff k
  else if st = 1 ∨ st = 6 then d.setDpsState k 0
  else d

/-! ### Generators -/

/-- Generator `w` is generator `w % 4` of cluster `w / 4`: the base its WFG fields are read at. -/
def genBase (w : Nat) : Nat := wfgBase (w / 4) + w % 4 * 0x40

/-- WFG_STAT.STATE (R274): 0 IDLE, 1 RUNNING, 2 HOLDING, 3 STOPPED. -/
def Dev.genState (d : Dev) (w : Nat) : Nat := d.get (genBase w) .WFG_STAT_STATE

/-- RUNNING or HOLDING. -/
def Dev.genActive (d : Dev) (w : Nat) : Bool := d.genState w == 1 || d.genState w == 2

/-- The outputs of cluster `n` are forced: by a class S reaction or by a thermal safe state (R417, R427). -/
def Dev.forced (d : Dev) (n : Nat) : Bool := d.bitN fltB .FLT_SAFE_MAP_CLUSTER n || bitOf d.thm.safe n

/-- The generator enters STOPPED (R274): its requests are discarded and it outputs WFG_HOLD. -/
def Dev.genStop (d : Dev) (w cause : Nat) : Dev :=
  let b := genBase w
  let g := d.gen w
  let d := ((d.put b .WFG_STAT_STATE 3).put b .WFG_STAT_CAUSE cause).setb b .WFG_STAT_JUMP_PEND false
  let d := d.setGen w { g with seg := none, lat := none, jump := none, stop := false, startW := none, gran := 0, code := d.sget b .WFG_HOLD_SAMPLE / 16 }
  d.irq .wfg (wfgBase (w / 4)) (w % 4)

/-- The safe state on a generator (R272): STOPPED with cause SAFE, output code 0, bus switches open. -/
def Dev.genSafe (d : Dev) (w : Nat) : Dev :=
  let d := d.genStop w 4
  d.setGen w { d.gen w with code := 0, route := 0, kept := 0 }

/-- The AC source is off and the bus switches are open: DORMANT, which keeps the routing for the wake, and HIBERNATE (R272). -/
def Dev.genOff (d : Dev) (w : Nat) (keep : Bool) : Dev :=
  let g := d.gen w
  d.setGen w { g with code := 0, route := 0, kept := if keep then Nat.lor g.kept g.route else 0 }

/-- The AC source of a generator that does not play outputs WFG_HOLD (R272, R274): not while it is forced, nor in DORMANT and HIBERNATE. -/
def Dev.genHoldOut (d : Dev) (w : Nat) : Dev :=
  if d.genState w = 1 ∨ d.forced (w / 4) ∨ 3 ≤ d.clState (w / 4) then d
  else d.setGen w { d.gen w with code := d.sget (genBase w) .WFG_HOLD_SAMPLE / 16 }

/-! ### Raster buffers -/

/-- Push an entry on a raster FIFO of 16; one that finds it full is lost and counted (R333). -/
def rasPush (l : List RasEnt) (e : RasEnt) : List RasEnt × Bool := if l.length < 16 then (l ++ [e], true) else (l, false)

/-- Post a release event: layer, tag, frame, skipped (R331). -/
def Dev.rasRelease (d : Dev) (layer tag frame : Nat) (skipped : Bool) : Dev :=
  let e := 2 ^ 63 + (if skipped then 2 ^ 62 else 0) + layer * 2 ^ 61 + tag * 2 ^ 32 + frame % 2 ^ 32
  let r := rasPush d.ras.rels e
  let d := { d with ras := { d.ras with rels := r.1 } }
  let d := if r.2 then d else d.satInc rasB .RAS_LOST_CNT_COUNT
  d.irq .ras rasB 1

/-- Release every front and pending buffer with F = RAS_FRAME_CNT + 1 (R336). -/
def Dev.rasReleaseAll (d : Dev) : Dev :=
  let f := d.get rasB .RAS_FRAME_CNT_COUNT + 1
  let d := d.forAll [0, 1] (fun d i =>
    let fr := d.ras.front.getD i []
    let d := if fr = [] then d else d.rasRelease i (fr.getD 3 0 / 2 ^ 16) f false
    let d := (d.ras.skips.filter (fun s => s.1 == i)).foldl (fun d s => d.rasRelease i s.2 f true) d
    match d.ras.pend.getD i none with
    | some p => d.rasRelease i (p.getD 3 0 / 2 ^ 16) f true
    | none => d)
  let d := { d with ras := { d.ras with front := [[], []], pend := [none, none], skips := [], inFrame := false, closing := false } }
  d.forAll [0, 1] (fun d i => (d.setb (rasB + 0x80 * i) .RAS_L_FRONT_PENDING false).put (rasB + 0x80 * i) .RAS_L_FRONT_TAG 0)

/-- The safe state on the raster engine (R336). -/
def Dev.rasSafe (d : Dev) : Dev :=
  if d.rasOn ∧ d.get rasB .PG_STAT_STATE ≠ 4 then d.rasReleaseAll.put rasB .PG_STAT_STATE 4 else d

/-! ### Clusters -/

/-! ### Staged tables (R377, R378) -/

/-- CAL_APPLY waits in the queue of the engine. -/
def Dev.calQueued (d : Dev) (n : Nat) : Bool := (d.eng n).queue.any (fun r => r.slot == 0x28)

/-- CAL_APPLY runs (R378). -/
def Dev.calPreparing (d : Dev) (n : Nat) : Bool :=
  match (d.eng n).run with
  | some u => u.rtn.slot == 0x28 && u.tail.isNone
  | none => false

/-- CAL_APPLY is requested while something is pending that is not prepared (R378). -/
def Dev.calRequest (d : Dev) (n : Nat) : Dev :=
  if d.get (calcBase n) .CAL_CL_PEND_PEND = 0 ∨ d.bit (calcBase n) .CAL_CL_PEND_PREPARED = true ∨ d.calQueued n = true then d
  else d.reqRtn n { slot := 0x28, ctx := 32 * n }

/-- The staged table of a cluster has changed: PEND and the temperatures of the last runs follow, PREPARED clears, and CAL_APPLY is requested
(R377, R378, R381); one that runs already will find the change at its end. -/
def Dev.calStaged (d : Dev) (n : Nat) : Dev :=
  let b := calcBase n
  let d := (d.put b .CAL_CL_PEND_PEND (kindBits (d.calDiff n))).setb b .CAL_CL_PEND_PREPARED false
  let d := d.forAll [1, 2, 3, 4, 5, 6, 7] (fun d k => d.put (b + 0x10 * k) .CAL_K_TEMP_CENTI_C (d.calLE d.calS (n * calSize + 0x10 + 2 * k) 2))
  if d.calPreparing n then d else d.calRequest n

/-- A calibration slice of a cluster is cut short (R375, R376): nothing written, the kind stays due. -/
def Dev.calAbandon (d : Dev) (n : Nat) : Dev :=
  let b := calcBase n
  let k := (d.clu n).slice
  if k = 0 then d
  else
    let d := d.setClu n { d.clu n with slice := 0, gap := none, calEnd := none }
    let d := (((d.put b .CAL_CL_STAT_RESULT 4).put b .CAL_CL_STAT_CAUSE 0).put b .CAL_CL_STAT_LAST k).put b .CAL_CL_STAT_RUNNING 0
    let d := (d.put b .CAL_CL_SKIP_CH 0).irq .calc b 0
    let d := d.setBitN calB .CAL_RUN_MAP_CLUSTER n false
    let d := (d.satInc calB .CAL_ABANDON_CNT_COUNT).put b .PG_STAT_STATE 0
    if k = 2 then d.tdcCdEnd n else d

/-- A self-test slice of a cluster is cut short (R441): it ends with the steps completed by then. -/
def Dev.bstCut (d : Dev) (n : Nat) : Dev :=
  match (d.clu n).bst with
  | some s => d.setClu n { d.clu n with bst := some { s with cut := true } }
  | none => d

/-- Force the outputs of cluster `n` (R92, R203, R231, R272, R426): pins, PMUs, device power, generators, slices. -/
def Dev.forceCluster (d : Dev) (n : Nat) : Dev :=
  let d := d.forAll ((List.range 32).map (fun i => 32 * n + i)) (fun d g => (d.pinSafe g).pmuForceOff g)
  let d := d.forAll [2 * n, 2 * n + 1] (fun d k => d.forAll (d.dpsGang k) (fun d k => d.dpsSafe n k))
  let d := d.forAll [4 * n, 4 * n + 1, 4 * n + 2, 4 * n + 3] Dev.genSafe
  let d := if d.rasOnCluster n then d.rasSafe else d
  (d.calAbandon n).bstCut n

/-- The release of a cluster's outputs (R93, R204, R231): pins park; AC sources output WFG_HOLD again; the other outputs stay off. -/
def Dev.releaseCluster (d : Dev) (n : Nat) : Dev :=
  let d := d.forAll (List.range 64) (fun d k => if (d.dp k).safeOf.contains n then d.setDp k { d.dp k with safeOf := (d.dp k).safeOf.filter (fun m => m != n) } else d)
  let d := d.forAll ((List.range 32).map (fun i => 32 * n + i)) (fun d g => (d.pinRelease g).pmuPark g)
  d.forAll [4 * n, 4 * n + 1, 4 * n + 2, 4 * n + 3] Dev.genHoldOut

/-- A safe state that forced the channel holds, of its own cluster or, for a ganged channel, of another (R93, R229). -/
def Dev.dpsHeldSafe (d : Dev) (k : Nat) : Bool := (d.dp k).safeOf.any d.forced

end Sys2Proof.Machine
end

