-- ==== Sys2Proof/Machine/Fault.lean ====
section
/-! DEFINITION. The fault collector (18_faults.md): sources, classes, scopes, reactions, the record, shadows, FAULT_N,
injection; and the thermal safe state, which reacts in the same way (R417). -/

namespace Sys2Proof.Machine

/-- A source word (R421). -/
def srcWord (type unit bit : Nat) : Nat := type * 2 ^ 16 + unit * 2 ^ 6 + bit

def srcType (s : Nat) : Nat := s / 2 ^ 16 % 256
def srcUnit (s : Nat) : Nat := s / 2 ^ 6 % 1024
def srcBit (s : Nat) : Nat := s % 32

/-- The class of a source: 0 L, 1 C, 2 S; the reserved code acts as S (R422). -/
def Dev.srcClass (d : Dev) (s : Nat) : Nat :=
  let c := d.get (fltB + 8 * srcType s) .FLT_CLASS_CLASS / 4 ^ srcBit s % 4
  if c = 3 then 2 else c

/-- The cluster a source lies in; `none` for a global page (R423). -/
def srcCluster (s : Nat) : Option Nat :=
  let t := srcType s
  if t = 0x28 then some (srcUnit s / 32)
  else if t = 0x11 then some (srcUnit s / 2)
  else if 0x20 ≤ t ∧ t < 0x28 then some (srcUnit s)
  else none

/-- The context that owns a generator (R265). -/
def Dev.genOwner (d : Dev) (w : Nat) : Option Nat := (d.gen w).own

/-- The contexts of a list that own their site, by their state or by an arm that is not complete (R147): the others are unaffected by a reaction
(R425). -/
def Dev.owning (d : Dev) (l : List Nat) : List Nat := l.filter (fun c => d.ctxOwning c || (d.cx c).site != [])

/-- The contexts with a channel, generator or device-power channel in some of the clusters (R422, R417). -/
def Dev.ctxTouching (d : Dev) (cls : List Nat) : List Nat :=
  d.owning (d.allCtx.filter (fun c => (d.cx c).site.any (fun g => cls.contains (g / 32))
    || cls.any (fun n => (List.range 4).any (fun x => (d.gen (4 * n + x)).own == some c)
        || (List.range 2).any (fun i => d.dpsOwner (2 * n + i) == some c))))

/-- The C scope of a source (R423); `own` lists the contexts of an *own* scope, or of the range of a PLL. -/
def Dev.cScope (d : Dev) (s : Nat) (own : List Nat) : List Nat :=
  let t := srcType s
  let u := srcUnit s
  let b := srcBit s
  if (t = 0x04 ∧ (b = 0 ∨ b = 3)) ∨ (t = 0x0B ∧ (b = 1 ∨ b = 2)) then d.owning d.allCtx
  else if t = 0x04 ∧ b = 4 then d.owning own
  else if t = 0x0C ∨ t = 0x20 ∨ t = 0x23 then d.owning own
  else if t = 0x11 ∧ b ≠ 2 then d.owning ((d.dpsOwner u).toList)
  else if t = 0x25 then d.owning ((d.genOwner (4 * u + b % 4)).toList)
  else if t = 0x26 then d.owning (d.allCtx.filter (fun c => c / 128 == u / 4))
  else if t = 0x28 then d.owning (((d.pin u).owner).toList)
  else []

/-- Does a device-scope shadow or the shadow of the source's cluster make the detection consequential (R433). -/
def Dev.consequential (d : Dev) (s : Nat) : Bool :=
  d.bit fltB .FLT_STAT_DEV_SHADOW ||
    (match srcCluster s with | some n => d.bitN fltB .FLT_SHADOW_MAP_CLUSTER n | none => false)

/-- System time as FLT_FIRST_TIME records it: 0 while MTB is not running (R428). -/
def Dev.mtbTime (d : Dev) : Nat := if d.bit clkB .CLK_STAT_MTB_LOCK then d.time else 0

/-- Log a detection (R428 to R430, R433). The AON cycle count is a free value: no command tells AON time. -/
def Dev.fltLog (d : Dev) (s cls : Nat) (inj notReady : Bool) : Dev :=
  if d.consequential s then
    let d := d.satInc fltB .FLT_CONSEQ_COUNT
    let d := if d.bit fltB .FLT_CONSEQ_SET then d
      else (d.setb fltB .FLT_CONSEQ_SET true).setWord (fltB + 0x58) (cls * 2 ^ 26 + s)
    d.irq .flt fltB 2
  else if d.bit fltB .FLT_FIRST_VALID then
    ((d.setb fltB .FLT_OVF_SET true).satInc fltB .FLT_OVF_COUNT).irq .flt fltB 1
  else
    let w := 2 ^ 31 + (if inj then 2 ^ 29 else 0) + (if notReady then 2 ^ 28 else 0) + cls * 2 ^ 26 + s
    let f := d.takeFree (2 ^ 32)
    let d := (f.1.setWord (fltB + 0x40) w).setWord (fltB + 0x44) f.2
    (d.put fltB .FLT_FIRST_TIME_TIME d.mtbTime).irq .flt fltB 0

/-- The clusters that hold the contexts of a list: their own cluster (R432). -/
def clustersOf (cs : List Nat) : List Nat := (cs.map (· / 32)).eraseDups

/-- Open or extend a shadow (R432): over clusters, or device-wide; it waits for the contexts given. -/
def Dev.openShadow (d : Dev) (dev : Bool) (cls ctxs : List Nat) : Dev :=
  let add := fun (d : Dev) (k : Nat) =>
    let w := Tab.get (fun _ => []) d.flt.waits k
    { d with flt := { d.flt with waits := Tab.set (fun _ => []) d.flt.waits k (w ++ ctxs.filter (fun c => !w.contains c)) } }
  if dev then (add d 32).setb fltB .FLT_STAT_DEV_SHADOW true
  else d.forAll cls (fun d n => (add d n).setBitN fltB .FLT_SHADOW_MAP_CLUSTER n true)

/-- SHADOW_END (R432): FLT_SHADOW.US has passed since the reaction ended; a shadow whose contexts have not all entered FAULTED
stays open. -/
def Dev.shadowEnd (d : Dev) (k : Nat) : Dev :=
  let w := (Tab.get (fun _ => []) d.flt.waits k).filter d.ctxOwning
  if w ≠ [] then { d with flt := { d.flt with waits := Tab.set (fun _ => []) d.flt.waits k w } }
  else
    let d := { d with flt := { d.flt with waits := Tab.erase d.flt.waits k } }
    if k = 32 then d.setb fltB .FLT_STAT_DEV_SHADOW false else d.setBitN fltB .FLT_SHADOW_MAP_CLUSTER k false

/-- REACT is queued for each context of a list (R425): the argument holds CAUSE, and 256 where the determinism-break mark has been written
already. The request wakes a cluster whose engine has stopped (R402). -/
def Dev.reactC (d : Dev) (ctxs : List Nat) (arg : Nat) : Dev :=
  d.forAll ctxs (fun d c => (d.reqRtn (c / 32) { slot := 0x27, ctx := c, arg := arg }).wakeReqFree (c / 32))

/-- A reaction that forces its clusters at once marks the contexts at that moment (R26, R417, R426). -/
def Dev.reactForced (d : Dev) (ctxs : List Nat) (mark cause : Nat) : Dev :=
  (d.forAll ctxs (fun d c => d.dbreak c mark)).reactC ctxs (256 + cause)

/-- The S scope of a source (R423): its cluster, or every present cluster. -/
def Dev.sScope (d : Dev) (s : Nat) : List Nat := match srcCluster s with | some n => [n] | none => d.clusters

/-- A class S reaction (R426): the clusters are forced, and their contexts react. -/
def Dev.reactS (d : Dev) (cls : List Nat) : Dev :=
  let ctxs := d.ctxTouching cls
  let d := d.forAll cls (fun d n => (d.forceCluster n).setBitN fltB .FLT_SAFE_MAP_CLUSTER n true)
  (d.irq .flt fltB 3).reactForced ctxs 1 0x17

/-- The channels, or the whole of a page kind, that a self-test part of a cluster occupies, as the TYPE of a source (R439). -/
def bstOccupies (s : BSlice) (type unit : Nat) : Bool :=
  match s.test with
  | 2 => type == 0x22
  | 3 => type == 0x23
  | 4 => type == 0x21
  | 5 => type == 0x26
  | 6 => type == 0x24 || (type == 0x28 && unit % 32 / 8 == s.part)
  | 7 => type == 0x25
  | 8 => type == 0x11
  | _ => false

/-- The cluster of a self-test slice that holds the page of a source (R436). -/
def Dev.srcSlice (d : Dev) (s : Nat) : Option Nat :=
  match srcCluster s with
  | some n => match (d.clu n).bst with
    | some b => if bstOccupies b (srcType s) (srcUnit s) then some n else none
    | none => none
  | none => none

/-- The page of a source (R421). -/
def srcPage (s : Nat) : Nat :=
  let t := srcType s
  let u := srcUnit s
  if t = 0x28 then pinBase u else if t = 0x11 then dpsBase u else if 0x20 ≤ t then clBase u + (t - 0x20) * 0x1000 else (t - 1) * 0x1000

/-- An open access to the page at `base` ends with GATE_ABORT (R392): logged, and all ones where it reads. -/
def Dev.gateAbort (d : Dev) (base : Nat) (h : HAcc) : Dev :=
  let d := ({ d with msp := { d.msp with accErr := true } }.logHif h.write .gateAbort h.addr).setWord (base + 0x28)
    (2 ^ 31 + ErrCause.gateAbort.code * 2 ^ 24 + h.addr % 0x1000)
  if h.write then d else match h.frame with
    | some n => { d with msp := { d.msp with rd := (0x5AA50000 + n) :: List.replicate n (2 ^ 32 - 1) } }
    | none => d.emit (.read h.port (if h.wide then 2 ^ 64 - 1 else 2 ^ 32 - 1))

/-- Some fault of the source forces the gate of its page; the pages that clock, power and collect are not gated (notes/assumptions/20.md). -/
def forcesGate (s : Nat) : Bool := Config.forcesGate s && !([4, 5, 6, 7, 8, 0x0E, 0x0F].contains (srcType s))

/-- A gate that a fault forces (R392): the open accesses to the block complete with GATE_ABORT, a deferral ends, and the clock stops. -/
def Dev.faultGate (d : Dev) (base : Nat) : Dev :=
  let mine := fun (h : HAcc) => decide (base + 0x40 ≤ h.addr) && decide (h.addr < base + 0x1000)
  let go := d.hif.held.filter mine
  let d := go.foldl (fun d h => d.gateAbort base h) { d with hif := { d.hif with held := d.hif.held.filter (fun h => !mine h) } }
  (d.setb base .PG_STAT_GATED true).setb base .PG_STAT_GATE_DEFER false

/-- A detection reaches the collector (R421 to R433). `own` gives the contexts of an *own* scope; `level` says that its
detector stays active until its condition ends. -/
def Dev.collectNow (d : Dev) (type unit bit : Nat) (own : List Nat) (level inj notReady : Bool) : Dev :=
  let s := srcWord type unit bit
  let cls := d.srcClass s
  let cons := d.fltLog s cls inj notReady
  let d := if level ∧ ¬ cons.flt.active.contains s then { cons with flt := { cons.flt with active := cons.flt.active ++ [s] } }
    else cons
  let d := if forcesGate s then d.faultGate (srcPage s) else d
  if cls = 0 then d
  else
    let dev := (srcCluster s).isNone
    if cls = 2 then
      let sc := d.sScope s
      let ctxs := d.ctxTouching sc
      (d.reactS sc).openShadow dev sc ctxs
    else
      let ctxs := d.cScope s own
      if ctxs = [] then d else (d.reactC ctxs 0x17).openShadow dev (clustersOf ctxs) ctxs

/-- A detection of a block in a self-test slice goes to BST_CL_DET alone (R436, R440), and for REF, which has no cluster, nowhere;
any other reaches the collector. -/
def Dev.collect (d : Dev) (type unit bit : Nat) (own : List Nat) (level inj notReady : Bool) : Dev :=
  if type = 0x09 ∧ d.bst.ref.isSome = true then d
  else match d.srcSlice (srcWord type unit bit) with
  | some n => d.setBitN (bstB + 0x20 * n) .BST_CL_DET_BITS bit true
  | none => d.collectNow type unit bit own level inj notReady

/-- A fault source whose detector follows a condition. -/
def Dev.faultSrc (d : Dev) (type unit bit : Nat) : Dev := d.collect type unit bit [] true false false

/-- A fault of a single event, with the contexts of its *own* scope (R429). -/
def Dev.faultEvt (d : Dev) (type unit bit : Nat) (own : List Nat) (inj : Bool) : Dev := d.collect type unit bit own false inj false

/-- The condition of a source has ended (R429). -/
def Dev.faultEnd (d : Dev) (type unit bit : Nat) : Dev :=
  { d with flt := { d.flt with active := d.flt.active.filter (· ≠ srcWord type unit bit) } }

/-- The sources whose end some command reports: clocks, thermal, sync link, power (the others: notes/assumptions/13.md). -/
def endReported (s : Nat) : Bool :=
  (srcType s == 0x04 && (srcBit s == 0 || srcBit s == 4)) || srcType s == 0x06 || srcType s == 0x0A || srcType s == 0x05

/-- The present state of a detector (R429): active until its end is reported; where no command reports it, active or not by a free value
(notes/assumptions/13.md). -/
def Dev.detecting (d : Dev) (s : Nat) : Bool := d.flt.active.contains s && (endReported s || Config.detecting s d.time d.free)

/-- FLT_SAFE_REL of cluster `n` (R427). A device-scope shadow is a shadow of every cluster (DEDUCED: notes/assumptions/13.md). -/
def Dev.safeRel (d : Dev) (n : Nat) : Dev :=
  if !(d.bitN fltB .FLT_SAFE_MAP_CLUSTER n) then d
  else
    let inScope := fun (s : Nat) => match srcCluster s with | some m => m == n | none => true
    if d.flt.active.any (fun s => d.detecting s && inScope s && d.srcClass s == 2) ∨ d.bitN fltB .FLT_SHADOW_MAP_CLUSTER n = true
        ∨ d.bit fltB .FLT_STAT_DEV_SHADOW = true ∨ d.clkState = 3 ∨ d.clkState = 4
    then d.setb fltB .FLT_STAT_REL_REFUSED true
    else
      let d := (d.setBitN fltB .FLT_SAFE_MAP_CLUSTER n false).irq .flt fltB 4
      if bitOf d.thm.safe n then d else d.releaseCluster n

/-- FAULT_N is low (R434): through every start-up until NORMAL, HIBERNATE among them (DEDUCED: notes/assumptions/112.md), and then by its enables. -/
def Dev.faultNLow (d : Dev) : Bool :=
  let en := d.get fltB .FLT_PIN_CFG_EN
  let st := d.clkState
  if st = 0 ∨ st = 1 then true
  else (bitOf en 0 && (d.get fltB .FLT_SAFE_MAP_CLUSTER != 0 || d.thm.safe != 0 || st == 3 || st == 4))
    || (bitOf en 1 && d.bit fltB .FLT_FIRST_VALID && d.get fltB .FLT_FIRST_CLASS == 2)
    || (bitOf en 2 && d.bit fltB .FLT_FIRST_VALID) || bitOf en 3

/-! ### Injection (R435) -/

/-- The checkers that their chapters mark injectable, as TYPE and BIT. -/
def injectable (type bit : Nat) : Bool :=
  [(0x04, 0), (0x05, 0), (0x06, 0), (0x0A, 4), (0x0B, 0), (0x0C, 0), (0x0D, 0), (0x11, 3), (0x20, 5), (0x22, 0), (0x23, 0),
   (0x23, 1), (0x24, 0), (0x25, 0), (0x25, 1), (0x25, 2), (0x25, 3), (0x26, 0), (0x28, 2), (0x28, 17)].contains (type, bit)

/-- The checker of a source is armed. -/
def Dev.armed (d : Dev) (type unit bit : Nat) : Bool :=
  let s := d.get fltB .FLT_INJ_SEL_SOURCE
  d.bit fltB .FLT_INJ_CTRL_ARM && srcType s == type && srcBit s == bit &&
    (d.bit fltB .FLT_INJ_SEL_ALL || srcUnit s == unit)

/-- A checker evaluates: does an injection make it fail; with CONT = 0 the arm is taken. -/
def Dev.evalInj (d : Dev) (type unit bit : Nat) : Dev × Bool :=
  if d.armed type unit bit then
    (if d.bit fltB .FLT_INJ_CTRL_CONT then d else d.setb fltB .FLT_INJ_CTRL_ARM false, true)
  else (d, false)

/-- What a write of FLT_INJ_CTRL does once its key has matched (R435). -/
def Dev.injArm (d : Dev) : Dev :=
  let s := d.get fltB .FLT_INJ_SEL_SOURCE
  if d.bit fltB .FLT_INJ_CTRL_ARM ∧ ¬ injectable (srcType s) (srcBit s) then
    (d.setb fltB .FLT_INJ_CTRL_ARM false).setb fltB .FLT_STAT_INJ_REFUSED true
  else d

/-! ### Thermal safe state (R417) -/

/-- A thermal safe state of clusters: outputs forced, contexts react with cause THERMAL. -/
def Dev.thermalSafe (d : Dev) (cls : List Nat) : Dev :=
  let cls := cls.filter (fun n => !bitOf d.thm.safe n)
  let ctxs := d.ctxTouching cls
  let d := d.forAll cls (fun d n =>
    let d := d.forceCluster n
    { d with thm := { d.thm with safe := d.thm.safe + 2 ^ n } })
  d.reactForced ctxs 2 0x18

end Sys2Proof.Machine
end

