-- ==== Sys2Proof/Machine/PmuRows.lean ====
section
/-! DEFINITION. The meanings of the rows of the pin and PMU families that reach other units: sequences and their deferred
strobes (R61, R198), conversions (R205 to R210), comparator edges (R75), faults (R66, R215). -/

namespace Sys2Proof.Machine

/-- Judge a deferred strobe where it acts: a change on a channel of a running context that did not fire it marks it (R190). -/
def Dev.judgeStb (d : Dev) (g : Nat) (s : Stb) (changed : Bool) : Dev :=
  match d.service g with
  | some c => if changed ∧ ¬ s.ctxs.contains c then d.extStrobe c d.time (g / 32) else d
  | none => d

/-- SPAN_DONE (R61 step 6, R63): outputs released, SPAN_DONE set, deferred strobes act; an enable goes on (R89). -/
def spanDone (d : Dev) (g : Nat) : Dev :=
  let b := pinBase g
  let p := d.pin g
  if p.phase = .spanFromZero ∧ d.lvlNow g = p.tgt then
    let d := d.setb b .PIN_STAT_SPAN_BUSY false
    let d := d.setPin g { p with phase := if p.enaSpan then .enaSlew else .idle, enaSpan := false, defer := none }
    let d := (d.irq .pin b 4).releaseCmp g
    match p.defer with
    | some s =>
      let r := d.pinStrobe g { s with t := d.time }
      r.1.judgeStb g s r.2
    | none => d
  else d

/-- The amplifier forces in the new mode (R194 step 3, R500 step 3): the tracking reading in FV, 0 A in FI, nothing in FN. -/
def Dev.pmuForces (d : Dev) (g track : Nat) : Dev :=
  let s := (d.pmu g).set
  let d := d.put (pinBase g) .PMU_STAT_MODE_NOW s.mode
  if s.mode = 3 then d.pmuAim g (d.pmu g).centre
  else
    let c := if s.mode = 1 then pmuClip 1 s.span track else 0x80000
    (d.setPmu g { d.pmu g with tgt := c }).setPmuNow g c

/-- The last timed switch step of a sequence has passed. -/
def Dev.pmuSwDone (d : Dev) (g : Nat) : Dev := d.setPmu g { d.pmu g with sw := true }

/-- Start of the final slew of a connect or engage (R194 step 4, R500 step 3). -/
def Dev.pmuGoes (d : Dev) (g : Nat) : Dev :=
  let s := (d.pmu g).set
  if s.mode = 3 then d else d.pmuAimForce g s.mode s.span

/-- SPAN_NOW and IRANGE_NOW become those of the settings. -/
def Dev.pmuScales (d : Dev) (g : Nat) : Dev :=
  let s := (d.pmu g).set
  (d.put (pinBase g) .PMU_STAT_SPAN_NOW s.span).put (pinBase g) .PMU_STAT_IRANGE_NOW s.range

/-- The output has reached the safe value, with the sine over: what the switch step of a zero transit, a release and a disconnect waits for (R195,
R196). -/
def Dev.pmuAtSafe (d : Dev) (g : Nat) : Bool :=
  let p := d.pmu g
  decide (p.centre = p.tgt) && !d.sineOn g && !p.zWait

/-- PMU_SWITCH_STEP (R194 to R196, R500): the next timed switch step of the running sequence; `track` is the tracking reading. A connect has two: the
amplifier forces and the switch begins to close, then CONN. -/
def pmuSwitchStep (d : Dev) (g track : Nat) : Dev :=
  let b := pinBase g
  let p := d.pmu g
  if p.sw ∨ d.ownerHolding g = true then d
  else match p.seq with
  | .connect =>
    if p.forces then ((d.setb b .PMU_STAT_CONN true).pmuSwDone g).pmuGoes g
    else (d.setPmu g { p with forces := true }).pmuForces g track
  | .engage => ((d.pmuSwDone g).pmuForces g track).pmuGoes g
  | .zero =>
    if d.pmuAtSafe g then
      let d := ((d.pmuTake g).pmuScales g).put b .PMU_STAT_MODE_NOW p.set.mode
      let d := (d.pmuClamps g p.set.mode p.set.span).pmuSwDone g
      (d.setPmuNow g (pmuSafe p.set.mode p.set.span)).pmuAimForce g p.set.mode p.set.span
    else d
  | .release => if d.pmuAtSafe g then (((d.pmuTake g).pmuScales g).pmuClamps g 3 p.set.span).pmuSwDone g else d
  | .disconnect => if d.pmuAtSafe g then d.pmuSwDone g else d
  | _ => d

/-- PMU_SLEW_STEP (R191): one limiter period; stopped while the owner is HOLDING (R192). -/
def pmuSlewStep (d : Dev) (g : Nat) : Dev :=
  let p := d.pmu g
  if d.ownerHolding g ∨ p.seq = .range ∨ ((p.seq = .connect ∨ p.seq = .engage) ∧ ¬ p.sw) then d
  else d.setPmuNow g (toward (d.get (pinBase g) .PMU_SLEW_STEP_STEP) p.centre p.tgt)

/-- A deferred strobe of a PMU acts (R198). -/
def Dev.pmuUndefer (d : Dev) (g : Nat) : Dev :=
  match (d.pmu g).defer with
  | some s =>
    let d := (d.setPmu g { d.pmu g with defer := none }).setb (pinBase g) .PMU_STAT_PEND false
    let r := d.pmuStrobe g s
    r.1.judgeStb g s r.2
  | none => d

/-- A sequence ends connected: SEQ reads ON. -/
def Dev.pmuSeqOn (d : Dev) (g : Nat) : Dev := (d.setPmu g { d.pmu g with seq := .none, sw := false, forces := false }).put (pinBase g) .PMU_STAT_SEQ 2

/-- A disconnect has ended (R196 step 3): the channel parks, the retained settings reconnect, or a deferred strobe acts (R198, R202, R203). -/
def Dev.pmuOpened (d : Dev) (g : Nat) : Dev :=
  let b := pinBase g
  let p := d.pmu g
  let d := (d.setb b .PMU_STAT_CONN false).put b .PMU_STAT_SEQ 0
  let d := (d.put b .PMU_STAT_MODE_NOW 0).pmuScales g
  let d := d.setPmu g { d.pmu g with seq := .none, sw := false, back := false }
  if p.park then (d.pmuPark g).pmuEnabled g
  else if p.back ∧ p.defer = none then (d.pmuRunWith g p.set).1
  else d.pmuUndefer g

/-- PMU_SEQ_END (R194 to R198, R500): the 1 µs of a measure switch, or the running sequence, ends; a deferred strobe acts. A sequence that
starts within a measure switch outlasts it. -/
def pmuSeqEnd (d : Dev) (g : Nat) : Dev :=
  let p := d.pmu g
  if d.ownerHolding g then d
  else if p.measSw then
    let d := d.setPmu g { p with measSw := false }
    if p.seq = .none then d.sineMaybe g else d
  else match p.seq with
  | .none => d
  | .connect | .engage | .zero => if p.sw ∧ p.centre = p.tgt then ((d.pmuSeqOn g).sineMaybe g).pmuUndefer g else d
  | .range =>
    let d := (d.pmuScales g).pmuSeqOn g
    let d := if p.set.mode = 1 then d.pmuAimForce g 1 p.set.span else d
    (d.sineMaybe g).pmuUndefer g
  | .release => if p.sw then ((d.pmuSeqOn g).put (pinBase g) .PMU_STAT_MODE_NOW 3).pmuUndefer g else d
  | .disconnect => if p.sw then d.pmuOpened g else d

/-- PMU_ADC_GO (R206, R208): starts or restarts a HOST measurement, or sets REFUSED when MODE is not HOST. -/
def pmuAdcGo (d : Dev) (g : Nat) : Dev :=
  let b := pinBase g
  if d.get b .PMU_ADC_CFG_MODE ≠ 1 then d.setb b .PMU_ADC_RSTAT_REFUSED true
  else
    let d := (d.setb b .PMU_ADC_RSTAT_DONE false).setb b .PMU_ADC_RSTAT_BUSY true
    d.setPmu g { d.pmu g with host := {}, hostLog := d.get b .PMU_ADC_CFG_AVG }

/-- The alarm of R210 on a FREE output. An output while the alarm is not enabled is no violation, so it breaks a run. -/
def Dev.pmuAlarm (d : Dev) (g : Nat) (x : Int) : Dev :=
  let b := pinBase g
  if x = invalidSample then d
  else if d.bit b .PMU_ALARM_CFG_EN = false then d.setPmu g { d.pmu g with alarmN := 0 }
  else if d.sget b .PMU_ALARM_LO_LIMIT ≤ x ∧ x ≤ d.sget b .PMU_ALARM_HI_LIMIT then d.setPmu g { d.pmu g with alarmN := 0 }
  else
    let n := (d.pmu g).alarmN + 1
    let d := d.setPmu g { d.pmu g with alarmN := n }
    if n < Nat.max 1 (d.get b .PMU_ALARM_CFG_COUNT) then d
    else
      let d := d.pmuEvt g .PMU_STAT_ALARM
      let d := if d.bit b .PMU_ALARM_CFG_WAKE ∧ d.clState (g / 32) = 2 then d.wakeReq (g / 32) else d
      if d.bit b .PMU_ALARM_CFG_DISC then (d.pmuForceOff g).pmuEvt g .PMU_STAT_ALARM_DISC else d

/-- The program time of the next conversion of a schedule (R207). -/
def Sched.next (s : Sched) : Nat := s.anchor + (s.delay + s.k * s.period) * 1024

/-- One conversion of a CONTEXT schedule, taken or not (R181, R207): the schedule after it, and the output with its
program time when it completes a slot whose conversions were all taken. -/
def Sched.conv (s : Sched) (a : Avg) (x : Option (Int × Bool)) : Sched × Avg × Option (Int × Nat) :=
  let p := s.next
  let a' := match x with
    | some (v, inv) => a.add v inv
    | none => { a with n := a.n + 1 }
  let miss := s.miss || x.isNone
  if a'.n < 2 ^ s.avgLog then ({ s with k := s.k + 1, miss := miss }, a', none)
  else
    let done := decide (s.count ≠ 0 ∧ s.slots + 1 ≥ s.count)
    ({ s with k := s.k + 1, miss := false, slots := s.slots + 1, on := !done }, {},
      if miss then none else some (a'.out s.avgLog, p))

/-- Start the CONTEXT schedule of a channel's ADC at program time `p` with the values read now (R207, R209). -/
def Dev.pmuAnchor (d : Dev) (g p : Nat) : Dev :=
  let b := pinBase g
  let per := d.get b .PMU_ADC_PERIOD_PERIOD
  d.setPmu g { d.pmu g with sched := { on := true, anchor := p, delay := d.get b .PMU_ADC_DELAY_DELAY, period := if per < 1600 then 1600 else per, count := d.get b .PMU_ADC_COUNT_COUNT, avgLog := d.get b .PMU_ADC_CFG_AVG } }

/-- Where the next conversion of a schedule goes: the context and the channel's slot in it. While the context is HOLDING only a conversion whose
aperture, of length `ap`, had opened completes (R192); after the end of the run those taken by its last vector still arrive, until RUN_END (R207, R276). -/
def Dev.schedTo (d : Dev) (s : Sched) (owner : Option Nat) (slot ap : Nat) : Option (Nat × Nat) :=
  match s.stop with
  | some (c, slot, e) => if s.next < e ∧ (d.cx c).endSt.isSome then some (c, slot) else none
  | none =>
    match owner with
    | some c => if d.ctxState c = 3 ∨ (d.ctxState c = 4 ∧ s.next < d.vidx c * d.ctxTv c + ap) then some (c, slot) else none
    | none => none

/-- PMU_CONVERSION (R181, R199, R205 to R210): a conversion with raw value `raw` completes; `overlap` says that its aperture
overlapped a switch step. -/
def pmuConversion (d : Dev) (g : Nat) (raw : Int) (overlap : Bool) : Dev :=
  let b := pinBase g
  let p := d.pmu g
  let x := d.pmuAdc g (decide (p.meas = 1) && decide (d.pmuNow g ≠ 3)) raw
  let mode := d.get b .PMU_ADC_CFG_MODE
  let off := decide (d.pmuNow g = 0)
  let inv := overlap || p.measSw || decide (p.seq = .range)
  let cnt := fun (d : Dev) => d.satInc b .PMU_ADC_CNT_COUNT
  let ovr := fun (d : Dev) => if ¬ inv ∧ (x > 0x7FFFF ∨ x < -0x7FFFF) then d.pmuEvt g .PMU_STAT_ADC_OVR else d
  let st := d.clState (g / 32)
  if d.bit b .PMU_ADC_RSTAT_BUSY then
    -- a HOST measurement in progress; in DORMANT and HIBERNATE the ADC is off (R203)
    if off ∨ st = 3 ∨ st = 4 then d.setb b .PMU_ADC_RSTAT_BUSY false
    else
      let a := p.host.add x inv
      let d := ovr d
      if a.n < 2 ^ p.hostLog then d.setPmu g { d.pmu g with host := a }
      else
        let d := (d.setPmu g { d.pmu g with host := {} }).put b .PMU_ADC_RESULT_SAMPLE (sampleWord (a.out p.hostLog))
        cnt ((d.setb b .PMU_ADC_RSTAT_BUSY false).setb b .PMU_ADC_RSTAT_DONE true)
  else if st = 3 ∨ st = 4 then d
  else if mode = 2 then
    if off ∨ (st = 2 ∧ ¬ d.bit b .PMU_ADC_CFG_NAP_RUN) then d
    else
      let k := d.get b .PMU_ADC_CFG_AVG
      let a := p.free.add x inv
      let d := ovr d
      if a.n < 2 ^ k then d.setPmu g { d.pmu g with free := a }
      else
        let d := (d.setPmu g { d.pmu g with free := {} }).put b .PMU_ADC_LAST_SAMPLE (sampleWord (a.out k))
        (cnt d).pmuAlarm g (a.out k)
  else if mode = 3 ∧ p.sched.on then
    match d.schedTo p.sched (d.service g) (d.pin g).slot (usFine / 4) with
    | some (c, slot) =>
      let r := p.sched.conv p.sched.avg (if off then none else some (x, inv))
      let d := if off then d else ovr d
      let d := d.setPmu g { d.pmu g with sched := { r.1 with avg := r.2.1 } }
      match r.2.2 with
      | some (v, t) =>
        let d := cnt (d.put b .PMU_ADC_LAST_SAMPLE (sampleWord v))
        d.acqPush c ((t + usFine) / d.ctxTv c) { src := .pmu, slot := slot, val := v, ptime := t, inv := decide (v = invalidSample), sat := decide (v = 0x7FFFF ∨ v = -0x7FFFF) }
      | none => d
    | none => if p.sched.stop.isSome then d.setPmu g { p with sched := {} } else d
  else d

/-- The output code of the sine at accumulator `a` (R211): CENTRE + AMP × sin(2πA / 2^32), where the table and its interpolation are left open
within 2 codes; beyond the usable codes it saturates under R184. -/
def Dev.sineOut (d : Dev) (g a amp : Nat) : Dev :=
  let c := (d.pmu g).centre + sineBound amp a (Config.sine amp a)
  let c' := pmuClip (d.pmuNow g) (d.get (pinBase g) .PMU_STAT_SPAN_NOW) c.toNat
  let d := if c = c' then d else d.pmuEvt g .PMU_STAT_CODE_SAT
  d.put (pinBase g) .PMU_FORCE_NOW_CODE c'

/-- PMU_SINE_UPDATE (R211, R212): the 100 ns update of the local sine. -/
def pmuSineUpdate (d : Dev) (g : Nat) : Dev :=
  let p := d.pmu g
  let m := d.pmuNow g
  if d.ownerHolding g ∨ ¬ (m = 1 ∨ m = 2) then d
  else if d.sineOn g then
    let a := (p.acc + p.set.word) % 2 ^ 32
    let cross := decide (a / 2 ^ 31 ≠ p.acc / 2 ^ 31)
    if p.sineEnd ∧ (cross ∨ p.set.ftw = 0) then (d.setPmu g { p with acc := a }).sineOver g
    else
      let amp := if cross then p.set.amp else p.amp
      (d.setPmu g { p with acc := a, amp := amp }).sineOut g a amp
  else if p.sineReq ∧ p.centre = p.tgt then
    let d := d.setPmu g { p with acc := p.set.phase, amp := p.set.amp, sineReq := false, sineEnd := false }
    (d.setb (pinBase g) .PMU_STAT_SINE_ON true).sineOut g p.set.phase p.set.amp
  else d

/-- PMU_CLAMP_ACT (R185): the output reaches a clamp in FV or FI. -/
def pmuClampAct (d : Dev) (g : Nat) (high : Bool) : Dev :=
  if d.pmuNow g = 1 ∨ d.pmuNow g = 2 then d.pmuEvt g (if high then .PMU_STAT_CLAMP_HI else .PMU_STAT_CLAMP_LO) else d

/-- PMU_FAULT_DETECT (R215, R217, R421): PMU_OC (0) or SW_MISMATCH (1). -/
def pmuFaultDetect (d : Dev) (g : Nat) (sw : Bool) : Dev :=
  let d := d.setb (pinBase g) (if sw then .PMU_FLT_SW_MISMATCH else .PMU_FLT_PMU_OC) true
  let d := (d.fltBit (wfgBase (g / 32)) 31).setBitN (wfgBase (g / 32)) .WFG_PMU_FLT_CH (g % 32) true
  d.faultSrc 0x28 g (if sw then 17 else 16)

/-- PIN_FAULT_DETECT (R66): DRV_OC (0), CLAMP_OC (1) or TG_PARITY (2). -/
def pinFaultDetect (d : Dev) (g bit : Nat) : Dev :=
  (d.fltBit (pinBase g) bit).faultSrc 0x28 g bit

/-- CHANNEL_DISABLE (R90, R91, R202): EN written 0. -/
def channelDisable (d : Dev) (g : Nat) : Dev :=
  let b := pinBase g
  let was := d.bit b .PG_CTRL_EN
  let d := d.setb b .PG_CTRL_EN false
  let d := if was && !(d.pin g).safe && (d.service g).isSome then d.setb b .PIN_STAT_PARKED_IN_USE true else d
  if (d.pin g).safe ∨ (d.pin g).phase = .disSlew then d
  else
    (d.pinDisable g).pmuOff g .disconnect true

/-- PARK_COMPLETE (R90 step 3): the slew to 0 V has completed; span L9, PARKED; an enable written meanwhile goes on. -/
def parkComplete (d : Dev) (g : Nat) : Dev :=
  let b := pinBase g
  let p := d.pin g
  if p.phase = .disSlew ∧ d.lvlNow g = zeroLevels then
    let d := (d.put b .PIN_STAT_SPAN_NOW 1).setb b .PIN_STAT_PARKED true
    let d := d.setPin g { p with phase := .idle, tgt := zeroLevels }
    if (d.pmu g).seq = .none then d.pmuPark g else d
  else d

/-- ENABLE_SETTLED with the PMU sequence that waited for it (R201). -/
def enableSettledAll (d : Dev) (g : Nat) : Dev := (enableSettled d g).pmuEnabled g

end Sys2Proof.Machine
end

