-- ==== Sys2Proof/Machine/Dps.lean ====
section
/-! DEFINITION. The meanings of the device-power rows (08_device_power_channels.md): slew, turn-on and turn-off, trips,
under-voltage and guard, measurement. -/

namespace Sys2Proof.Machine

/-- A deferred strobe of a device-power channel acts (R226, R190). -/
def Dev.dpsUndefer (d : Dev) (k : Nat) : Dev :=
  match (d.dp k).defer with
  | some s =>
    let d := (d.setDp k { d.dp k with defer := none }).setb (dpsBase k) .PG_STAT_BUSY false
    let r := d.dpsStrobe k s
    match d.dpsOwner k with
    | some c => if r.2 ∧ d.ctxActive c = true ∧ ¬ s.ctxs.contains c then r.1.extStrobe c d.time (k / 2) else r.1
    | none => r.1
  | none => d

/-- The failure of a channel's external stage (R223). -/
def Dev.stageFault (d : Dev) (k : Nat) (inj : Bool) : Dev := (d.fltBit (dpsBase k) 3).collect 0x11 k 3 [] true inj false

/-- The stage monitor of a channel whose loop is closed, with an injection armed for it (R234, R435). -/
def Dev.stageMon (d : Dev) (k : Nat) : Dev :=
  if (d.dp k).loop = true then
    let i := d.evalInj 0x11 k 3
    if i.2 then i.1.stageFault k true else d
  else d

/-- DPS_SLEW_STEP (R225, R226, R227): the loop closes at its first step after a turn-on; then one limiter period. -/
def dpsSlewStep (d : Dev) (k : Nat) : Dev :=
  let b := dpsBase k
  let st := d.dpsState k
  if d.dpsHolding k ∨ ¬ (st = 2 ∨ st = 3 ∨ st = 4) then d
  else
    let s := d.get (dpsBase (d.dpsSrc k)) .DPS_SLEW_STEP_STEP
    if st = 2 ∧ (d.dp k).loop = false then
      let d := d.setDp k { d.dp k with loop := true }
      (d.dpsAim k (d.dp k).tgt).stageMon k
    else (d.put b .DPS_FORCE_NOW_CODE (toward s (d.get b .DPS_FORCE_NOW_CODE) (d.dp k).tgt)).dpsReached k

/-- RAMP_DONE (R226 turn-on step 3): the slew has ended and 20 µs have passed. -/
def rampDone (d : Dev) (k : Nat) : Dev :=
  let b := dpsBase k
  if d.dpsState k = 2 ∧ (d.dp k).loop = true ∧ d.get b .DPS_FORCE_NOW_CODE = (d.dp k).tgt ∧ ¬ d.dpsHolding k then
    ((d.setDpsState k 3).irq .dps b 4).dpsUndefer k
  else d

/-- DPS_DISCHARGE_DONE (R226 turn-off step 4, R231): below 100 mV, a sensed level that no hold delays; OFF, or parked when the channel is disabled.
A deferred strobe acts, or finds the channel disabled. -/
def dpsDischargeDone (d : Dev) (k : Nat) : Dev :=
  if d.dpsState k = 5 then
    if d.bit (dpsBase k) .PG_CTRL_EN then (d.setDpsState k 1).dpsUndefer k
    else ((d.setDp k { d.dp k with set := {} }).setDpsState k 0).dpsUndefer k
  else d

/-- ILIM_TRIP (R222): limiting ends (0), starts (1), or has lasted DPS_TRIP.TIME µs (2) and trips the channel. -/
def ilimTrip (d : Dev) (k ph : Nat) : Dev :=
  let b := dpsBase k
  if ph = 0 then d.setb b .DPS_STAT_LIMITING false
  else if (d.dp k).loop = false then d
  else if ph = 1 then d.setb b .DPS_STAT_LIMITING true
  else if d.bit b .DPS_STAT_LIMITING then ((d.dpsTrip k).fltBit b 0).faultSrc 0x11 k 0
  else d

/-- OV (R223): the sensed output exceeds DPS_OV for 1 µs. -/
def dpsOv (d : Dev) (k : Nat) : Dev :=
  if (d.dp k).loop = true then ((d.dpsTrip k).fltBit (dpsBase k) 1).faultSrc 0x11 k 1 else d

/-- UV (R223, R232): the sensed output crosses DPS_UV. -/
def dpsUv (d : Dev) (k : Nat) (below : Bool) : Dev := ((d.setDp k { d.dp k with below := below }).guardSync k).dpsUvSync k

/-- SENSE_OPEN (R219): remote sense differs by more than 300 mV for 10 µs while ON. -/
def senseOpen (d : Dev) (k : Nat) : Dev :=
  let b := dpsBase k
  if d.dpsState k = 3 ∧ d.bit b .DPS_STAT_LOCAL = false then
    let d := d.setDp k { d.dp k with sOpen := true }
    ((d.setb b .DPS_STAT_LOCAL true).fltBit b 2).faultSrc 0x11 k 2
  else d

/-- STAGE_FAIL (R223): the gate at its limit for 20 µs with the output 500 mV off target. -/
def stageFail (d : Dev) (k : Nat) : Dev :=
  if (d.dp k).loop = true then
    let i := d.evalInj 0x11 k 3
    i.1.stageFault k i.2
  else d

/-- A voltage and current pair, written to the last-sample registers; the leader's group current follows (R228). -/
def Dev.dpsPair (d : Dev) (k : Nat) (v i : Int) : Dev :=
  let b := dpsBase k
  let d := (d.put b .DPS_V_LAST_SAMPLE (sampleWord v)).put b .DPS_I_LAST_SAMPLE (sampleWord i)
  let d := d.irq .dps b 3
  match d.dpsLeader k with
  | some l =>
    -- S × 20 × Ifs = Σ member S × 2.5 × Ifs, so S is the sum over 8; a remainder is rounded by a free value
    let sum := (d.dpsGang k).foldl (fun a j => a + d.sget (dpsBase j) .DPS_I_LAST_SAMPLE) 0
    d.put (dpsBase l) .DPS_I_GROUP_SAMPLE (sampleWord (roundFree 2 sum 8))
  | none => d

/-- DPS_MEAS_GO (R224, R208): starts or restarts a HOST measurement; with another MODE it does nothing (no refusal bit). -/
def dpsMeasGo (d : Dev) (k : Nat) : Dev :=
  if d.get (dpsBase k) .DPS_MEAS_CFG_MODE = 1 then
    d.setDp k { d.dp k with host := {}, hostI := {}, hostBusy := true, hostLog := d.get (dpsBase k) .DPS_MEAS_CFG_AVG }
  else d

/-- Start the CONTEXT schedule at program time `p` (R207, R224). -/
def Dev.dpsAnchor (d : Dev) (k p : Nat) : Dev :=
  let b := dpsBase k
  let per := d.get b .DPS_MEAS_PERIOD_PERIOD
  d.setDp k { d.dp k with sched := { on := true, anchor := p, delay := d.get b .DPS_MEAS_DELAY_DELAY, period := if per < 16000 then 16000 else per, count := d.get b .DPS_MEAS_COUNT_COUNT, avgLog := d.get b .DPS_MEAS_CFG_AVG }, schedI := {} }

/-- The inputs that a pair gives the acquisition of its owner (R224, R276). -/
def Dev.dpsInputs (d : Dev) (c slot t : Nat) (v i : Int) : Dev :=
  let x := fun (src : Src) (y : Int) => ({ src := src, slot := slot, val := y, ptime := t, inv := decide (y = invalidSample), sat := decide (y = 0x7FFFF ∨ y = -0x7FFFF) } : Inp)
  let e := (t + usFine) / d.ctxTv c
  (d.acqPush c e (x .dpsV v)).acqPush c e (x .dpsI i)

/-- DPS_CONVERSION (R224): voltage and current converted together; `overlap` says that a range switch overlapped. Parked, tripped and safe channels
take no conversion (R231): a HOST measurement ends without an output, a slot of a schedule counts without one (R181). -/
def dpsConversion (d : Dev) (k : Nat) (rawV rawI : Int) (overlap : Bool) : Dev :=
  let b := dpsBase k
  let p := d.dp k
  let v := d.dpsAdc k 1 rawV
  let i := d.dpsAdc k (2 + p.irange) rawI
  let st := d.dpsState k
  let mode := d.get b .DPS_MEAS_CFG_MODE
  let nap := d.clState (k / 2) == 2
  let off := decide (st = 0 ∨ st = 6 ∨ st = 7)
  if d.clState (k / 2) > 2 then d
  else if p.hostBusy then
    let a := p.host.add v overlap
    let ai := p.hostI.add i overlap
    if off then d.setDp k { p with host := {}, hostI := {}, hostBusy := false }
    else if a.n < 2 ^ p.hostLog then d.setDp k { p with host := a, hostI := ai }
    else (d.setDp k { p with host := {}, hostI := {}, hostBusy := false }).dpsPair k (a.out p.hostLog) (ai.out p.hostLog)
  else if mode = 2 ∧ off = false ∧ ¬ (nap ∧ d.bit b .DPS_MEAS_CFG_NAP_RUN = false) then
    let n := d.get b .DPS_MEAS_CFG_AVG
    let a := p.free.add v overlap
    let ai := p.freeI.add i overlap
    if a.n < 2 ^ n then d.setDp k { p with free := a, freeI := ai }
    else (d.setDp k { p with free := {}, freeI := {} }).dpsPair k (a.out n) (ai.out n)
  else if mode = 3 ∧ p.sched.on then
    match d.schedTo p.sched (d.dpsOwner k) (k % 8) (10 * usFine) with
    | some (c, slot) =>
      let r := p.sched.conv p.sched.avg (if off then none else some (v, overlap))
      let ri := p.sched.conv p.schedI (if off then none else some (i, overlap))
      let d := d.setDp k { p with sched := { r.1 with avg := r.2.1 }, schedI := ri.2.1 }
      match r.2.2, ri.2.2 with
      | some (v, t), some (i, _) => (d.dpsPair k v i).dpsInputs c slot t v i
      | _, _ => d
    | none => if p.sched.stop.isSome then d.setDp k { p with sched := {}, schedI := {} } else d
  else d

end Sys2Proof.Machine
end

