-- ==== Sys2Proof/Machine/Wfg.lean ====
section
/-! DEFINITION. Waveform generators (10_waveform_synthesis.md): requests, latches, boundaries, owned generators, routing.
Generator `w` is generator `w % 4` of cluster `w / 4`. -/

namespace Sys2Proof.Machine

/-- The base the WFG_E fields of an entry are read at. -/
def entryBase (w e : Nat) : Nat := wfgBase (w / 4) + w % 4 * 0x200 + e * 0x20

/-- The vector period in force of a range, in fine units. -/
def Dev.rangeTv (d : Dev) (r : Nat) : Nat := d.get (clkB + 8 * r) .CLK_VP_STAT_PERIOD_NOW

/-- The ticks from `t` to the end of the hold granule that context `c` emits (R266). -/
def Dev.holdRest (d : Dev) (c t : Nat) : Nat :=
  let x := d.cx c
  if d.ctxState c = 4 ∧ x.gk = .hold then (x.s + 64 * d.ctxTv c + 1023 - t) / 1024 else 0

/-- The hold granule of the owner in force goes on at `t`. -/
def Dev.ownHeld (d : Dev) (own : Option Nat) (t : Nat) : Nat := match own with | some c => d.holdRest c t | none => 0

/-- A generator that plays gets another owner, or none (R257, R266): without one n = c, its displacement is gone and it is not HOLDING; a hold of the
old owner counts as far as it went, and one of the new owner holds it. -/
def Dev.genOwned (d : Dev) (w : Nat) (own : Option Nat) : Dev :=
  let b := genBase w
  let g := d.gen w
  let d := d.setGen w { g with own := own }
  if g.own = own ∨ ¬ d.genActive w then d
  else
    let disp := d.get b .WFG_DISP_D - (if d.genState w = 2 then d.ownHeld g.own d.time else 0)
    if own = none then ((d.setGen w { g with own := own, n0 := g.n0 + disp }).put b .WFG_DISP_D 0).put b .WFG_STAT_STATE 1
    else
      let rest := d.ownHeld own d.time
      (d.put b .WFG_DISP_D (disp + rest)).put b .WFG_STAT_STATE (if rest = 0 then 1 else 2)

/-- Re-evaluate the owner of a generator (R265). -/
def Dev.genOwn (d : Dev) (w : Nat) : Dev :=
  let b := genBase w
  let r := w / 16
  if ¬ d.bit b .WFG_CTRL_OWN_EN then d.genOwned w none
  else if d.get b .WFG_CTRL_OWNER / 128 = r ∧ d.rangeTv r % 16 = 0 then d.genOwned w (some (d.get b .WFG_CTRL_OWNER))
  else (d.genOwned w none).setb b .WFG_STAT_OWN_REFUSED true

/-- A calibration or self-test slice of the WFG block runs in the cluster: start requests wait (R272, R439). -/
def Dev.wfgSlice (d : Dev) (n : Nat) : Bool :=
  (d.clu n).slice == 6 || (match (d.clu n).bst with | some s => s.test == 7 | none => false)

/-- The contexts RUNNING or HOLDING with a site channel routed from a generator. -/
def Dev.genCtxs (d : Dev) (w : Nat) : List Nat :=
  d.allCtx.filter (fun c => d.ctxActive c &&
    (d.cx c).site.any (fun g => g / 32 == w / 4 && bitOf (d.gen w).route (g % 32)))

/-- EXT_WAVE for a request that reaches an owned generator from a source other than its owner's (R267, first case). -/
def Dev.genExt (d : Dev) (w t : Nat) (own : List Nat) : Dev :=
  match (d.gen w).own with
  | some c => if d.ctxActive c ∧ ¬ own.contains c then d.extWave c t w 0 else d
  | none => d

/-- Read an entry at the latch that selects it (R256, R259 to R261, R268, R272). -/
def Dev.genSelect (d : Dev) (w e : Nat) (jump : Bool) : Dev × GNext :=
  let b := entryBase w e
  let par := d.evalInj 0x25 (w / 4) (w % 4)
  let d := par.1
  if par.2 then ((d.fltBit (wfgBase (w / 4)) (w % 4)).faultEvt 0x25 (w / 4) (w % 4) [] true, .stop 6)
  else
    let len := d.get b .WFG_E_LEN_LEN
    if len < 4 then (d, .stop 3)
    else
      let f := d.get b .WFG_E_FTW_FTW
      let d := if 0x666666666666 < f then d.setb (genBase w) .WFG_STAT_FTW_SAT true else d
      let f := Nat.min f 0x666666666666
      (d, .seg { entry := e, ftw := f, phase := d.get b .WFG_E_PHASE_PHASE, amp := d.acAmp w (d.get b .WFG_E_AMP_AMP) f, offset := d.sget b .WFG_E_OFFSET_OFFSET, len := len, next := d.get b .WFG_E_NEXT_NEXT, stop := d.bit b .WFG_E_NEXT_STOP } jump)

/-- A segment begins with its sample 0 at time base `n` (R259, R274). -/
def Dev.genBegin (d : Dev) (w : Nat) (s : Seg) (n : Nat) : Dev :=
  let b := genBase w
  let d := d.setGen w { d.gen w with seg := some s, gran := 0, n0 := n, lat := none }
  let d := (d.put b .WFG_STAT_ENTRY s.entry).put b .WFG_POS_GRAN 0
  d.satInc b .WFG_SEG_CNT_COUNT

/-- A jump request reaches a generator (R263). -/
def Dev.genJump (d : Dev) (w e t : Nat) (own : List Nat) : Dev :=
  let d := d.genExt w t own
  if d.genActive w then
    (d.setGen w { d.gen w with jump := some e }).setb (genBase w) .WFG_STAT_JUMP_PEND true
  else d

/-- A stop request reaches a generator (R263); one of the end of its owner that waits stays the cause (R266). -/
def Dev.genStopReq (d : Dev) (w t : Nat) : Dev :=
  let d := d.genExt w t []
  if d.genActive w then
    let g := d.gen w
    (d.setGen w { g with stop := true, stopC := if g.stop ∧ g.stopC = 5 then 5 else 1 }).setb (genBase w) .WFG_STAT_JUMP_PEND true
  else d

/-- A start request reaches a generator at a tick-aligned system time (R262, R263, R266, R269); `late` is the delay of a
late owner start in ticks. While the outputs of the cluster are forced a start is discarded, as one that was pending is (R264, R272; DEDUCED:
notes/assumptions/106.md). -/
def Dev.genStart (d : Dev) (w t late : Nat) (own : List Nat) : Dev :=
  let d := d.genOwn w
  let b := genBase w
  if d.forced (w / 4) then d
  else if d.genActive w then d.genJump w (d.get b .WFG_CTRL_FIRST) t own
  else if d.wfgSlice (w / 4) then d.setGen w { d.gen w with startW := some { own := own, late := late } }
  else
    let d := d.genExt w t own
    let disp := if (d.gen w).own.isSome then late else 0
    let rest := d.ownHeld (d.gen w).own t
    let d := (d.put b .WFG_DISP_D (disp + rest)).put b .WFG_START_TIME_TIME t
    let d := d.setGen w { d.gen w with jump := none, stop := false, startW := none, e1 := 0, e2 := 0, lfsr := 0xACE1 }
    let r := d.genSelect w (d.get b .WFG_CTRL_FIRST) false
    match r.2 with
    | .seg s _ =>
      let d := r.1.forAll (r.1.genCtxs w) (fun d c => if (d.gen w).own = some c then d else d.extWave c t w 2)
      let d := (d.put b .WFG_STAT_STATE (if rest = 0 then 1 else 2)).put b .WFG_STAT_CAUSE 0
      d.genBegin w s (t / 1024 - disp)
    | .stop c => r.1.genStop w c
    | .cont => r.1

/-- WFG_START.GO (R262). -/
def wfgStartGo (d : Dev) (w : Nat) : Dev := d.genStart w (tickUp d.time) 0 []

/-- WFG_STOP.GO (R262). -/
def wfgStopGo (d : Dev) (w : Nat) : Dev := d.genStopReq w (tickUp d.time)

/-- WFG_JUMP.GO (R262): the target is the register's as it reads now. -/
def wfgJumpGo (d : Dev) (w : Nat) : Dev := d.genJump w (d.get (genBase w) .WFG_JUMP_TARGET) (tickUp d.time) []

/-- A load strobe at a generator (R262): STB_ACT START or JUMP. -/
def Dev.genStrobe (d : Dev) (w t : Nat) (own : List Nat) : Dev :=
  let b := genBase w
  let a := d.get b .WFG_CTRL_STB_ACT
  if a = 1 then d.genStart w (tickUp t) 0 own
  else if a = 2 then d.genJump w (d.get b .WFG_JUMP_TARGET) (tickUp t) own
  else d

/-- Route changes apply at a load strobe (R271): the lowest-numbered generator wins a channel. Answers the local channels
whose bus switch changed. -/
def Dev.routeStrobe (d : Dev) (n t : Nat) : Dev × List Nat :=
  let en := (List.range 32).filter (fun i => d.bit (pinBase (32 * n + i)) .PG_CTRL_EN)
  (List.range 4).foldl (fun (acc : Dev × List Nat) x =>
    let d := acc.1
    let w := 4 * n + x
    let want := d.get (genBase w) .WFG_ROUTE_CH
    let lower := (List.range x).foldl (fun a y => Nat.lor a (d.get (genBase (4 * n + y)) .WFG_ROUTE_CH)) 0
    let d := if Nat.land want lower = 0 then d else d.setb (genBase w) .WFG_STAT_ROUTE_CONFLICT true
    let new := en.foldl (fun a i => if bitOf want i && !bitOf lower i then a + 2 ^ i else a) 0
    let old := (d.gen w).route
    let diff := (List.range 32).filter (fun i => bitOf new i != bitOf old i)
    let d := if new = old then d else d.setGen w { d.gen w with route := new }
    let d := d.forAll diff (fun d i => d.setPin (32 * n + i) { d.pin (32 * n + i) with busT := some t })
    -- EXT_WAVE: a generator that a context does not own is routed onto a channel of its site (R267, third case)
    let hit := d.allCtx.filter (fun c => d.ctxActive c && decide ((d.gen w).own ≠ some c) && (d.cx c).site.any (fun g =>
      g / 32 == n && bitOf new (g % 32) && !bitOf old (g % 32)))
    let d := d.forAll hit (fun d c => d.extWave c t w 2)
    (d, acc.2 ++ diff)) (d, [])

/-- A rising edge of trigger input `i` (R262): jumps at the first tick at least 24 ns after it. -/
def Dev.wfgTrig (d : Dev) (i : Nat) : Dev :=
  d.forAll (List.range 128) (fun d w =>
    if d.bit (genBase w) (if i = 0 then .WFG_CTRL_TRIG0_JUMP else .WFG_CTRL_TRIG1_JUMP) = true
    then d.genJump w (d.get (genBase w) .WFG_JUMP_TARGET) (tickUp (d.time + 39322)) [] else d)

/-- An MSL trigger at its effect time (R262). -/
def Dev.wfgMslTrig (d : Dev) (num t : Nat) : Dev :=
  d.forAll (List.range 128) (fun d w =>
    let b := genBase w
    if d.bit b .WFG_CTRL_MSL_JUMP = true ∧ d.get b .WFG_CTRL_MSL_SEL = num
    then d.genJump w (d.get b .WFG_JUMP_TARGET) (tickUp t) [] else d)

/-- The generators of the range of a context. -/
def rangeGens (c : Nat) : List Nat := (List.range 16).map (fun i => c / 128 * 16 + i)

/-- A context enters RUNNING with S(0) (R262, R266, R267): its generators with OWNER_START start, and one that plays already is displaced by the delay
of a late start; a RUNNING generator that it does not own and that is routed to its site gives an EXT_WAVE mark. -/
def Dev.wfgOwnerStart (d : Dev) (c s0 late : Nat) : Dev :=
  let foreign := (d.cx c).site.foldl (fun l g =>
    ((List.range 4).map (fun x => 4 * (g / 32) + x)).foldl (fun l w =>
      if d.genState w == 1 && decide ((d.gen w).own ≠ some c) && bitOf (d.gen w).route (g % 32) && !l.contains w
      then l ++ [w] else l) l) ([] : List Nat)
  let d := d.forAll foreign (fun d w => d.extWave c s0 w 1)
  d.forAll (rangeGens c) (fun d w =>
    let d := d.genOwn w
    let b := genBase w
    let g := d.gen w
    let d := if g.own = some c ∧ d.genActive w = true then (d.put b .WFG_DISP_D (d.get b .WFG_DISP_D + late)).setGen w { g with n0 := g.n0 - late } else d
    if (d.gen w).own = some c ∧ d.bit (genBase w) .WFG_CTRL_OWNER_START = true
    then d.genStart w (tickUp s0) late [c] else d)

/-- The owner emits a hold granule of `ticks` ticks (R266): the generator is HOLDING and its displacement grows. -/
def Dev.wfgHold (d : Dev) (c ticks : Nat) : Dev :=
  d.forAll (rangeGens c) (fun d w =>
    if (d.gen w).own = some c ∧ d.genActive w = true then
      let b := genBase w
      let d := (d.put b .WFG_STAT_STATE 2).put b .WFG_DISP_D (d.get b .WFG_DISP_D + ticks)
      d.setGen w { d.gen w with code := d.sget b .WFG_HOLD_SAMPLE / 16 }
    else d)

/-- The first program vector after a hold (R266). -/
def Dev.wfgResume (d : Dev) (c : Nat) : Dev :=
  d.forAll (rangeGens c) (fun d w =>
    if (d.gen w).own = some c ∧ d.genState w = 2 then d.put (genBase w) .WFG_STAT_STATE 1 else d)

/-- The owner leaves RUNNING and HOLDING (R266): its generators stop at the next boundary with cause OWNER_END. -/
def Dev.wfgOwnerEnd (d : Dev) (c : Nat) : Dev :=
  d.forAll (rangeGens c) (fun d w =>
    if (d.gen w).own = some c ∧ d.genActive w = true then
      (d.put (genBase w) .WFG_STAT_STATE 1).setGen w { d.gen w with stop := true, stopC := 5 }
    else d)

/-- The slices of a cluster have ended: a start that waited is served (R272). -/
def Dev.wfgSliceEnd (d : Dev) (n : Nat) : Dev :=
  d.forAll (List.range 4) (fun d x =>
    let w := 4 * n + x
    match (d.gen w).startW with
    | some q => (d.setGen w { d.gen w with startW := none }).genStart w (tickUp d.time) q.late q.own
    | none => d)

/-- Clip to the 20-bit sample word (R268). -/
def clipSample (x : Int) : Int := if x < -0x80000 then -0x80000 else if x > 0x7FFFF then 0x7FFFF else x

/-- Clip to the 16-bit DAC code. -/
def clipDac (x : Int) : Int := if x < -0x8000 then -0x8000 else if x > 0x7FFF then 0x7FFF else x

/-- The sample word of a segment at time base `n` before clipping (R257, R268). -/
def sampleAt (s : Seg) (n : Nat) : Int :=
  let φ := (s.phase * 2 ^ 32 + s.ftw * n) % 2 ^ 48
  s.offset + waveBound s.amp φ (Config.wave s.amp φ)

/-- One sample through the quantiser (R269): the DAC code, the shaper's errors and the LFSR. -/
def ditherStep (mode : Nat) (g : Gen) (w : Int) : Gen :=
  if mode = 0 then { g with code := w / 16 }
  else
    let tp := decide (mode ≥ 2)
    let l := if tp then Config.lfsrNext g.lfsr else g.lfsr
    let t := if tp then (let x := Config.dither g.lfsr; if x > 16 then 16 else if x < -16 then -16 else x) else 0
    let v := w + 2 * g.e1 - g.e2
    let q := (v + t) / 16
    { g with code := clipDac q, e1 := v - 16 * q, e2 := g.e1, lfsr := l }

/-- The 64 samples of the granule that plays (R257, R268, R269). -/
def Dev.genPlay (d : Dev) (w : Nat) (s : Seg) : Dev :=
  let mode := d.get (genBase w) .WFG_CTRL_DITHER
  let r := (List.range 64).foldl (fun (acc : Gen × Bool) i =>
    let x := sampleAt s (acc.1.n0 + i)
    (ditherStep mode acc.1 (clipSample x), acc.2 || decide (clipSample x ≠ x))) (d.gen w, false)
  let d := d.setGen w { r.1 with n0 := r.1.n0 + 64 }
  if r.2 then d.setb (genBase w) .WFG_STAT_SAT true else d

/-! ### The bus line at a pin (R270, R271) -/

/-- The generator on whose bus line a channel is. -/
def Dev.busLine (d : Dev) (g : Nat) : Option Nat :=
  ((List.range 4).map (fun x => 4 * (g / 32) + x)).find? (fun w => bitOf (d.gen w).route (g % 32))

/-- V_ac of a pin, in units of 2^-20 mV: the word at the DAC × 2.0 V / 2^20; 0 for 200 ns from a change of its bus switch. -/
def Dev.vAc (d : Dev) (g : Nat) : Int :=
  match d.busLine g with
  | some w => if (match (d.pin g).busT with | some t => decide (d.time < t + 327680) | none => false) then 0 else 16 * (d.gen w).code * 2000
  | none => 0

/-- The level of a pin's driver in state T, in units of 2^-20 mV: VIT + V_ac, limited to −2.0 to +7.0 V (R94). -/
def Dev.vTerm (d : Dev) (g : Nat) : Int :=
  let v := d.lvlQ g 2 + d.vAc g
  if v < -2000 * 2 ^ 20 then -2000 * 2 ^ 20 else if 7000 * 2 ^ 20 < v then 7000 * 2 ^ 20 else v

/-- The open-circuit level of a pin's driver by its state (R64, R270): none in Z. -/
def Dev.driverLevel (d : Dev) (g : Nat) : Option Int :=
  match (d.pin g).drv with
  | .z => none
  | .l => some (d.lvlQ g 1)
  | .h => some (d.lvlQ g 0)
  | .t => some (d.vTerm g)

/-! ### Meanings -/

/-- WFG_LATCH (R260, R261, R263, R264): the successor at the next boundary is fixed and its entry read. -/
def Dev.wfgLatch (d : Dev) (w : Nat) : Dev :=
  let g := d.gen w
  match g.seg with
  | some s =>
    if d.genState w ≠ 1 ∨ g.lat.isSome then d
    else if g.stop then d.setGen w { g with lat := some (.stop g.stopC), jump := none }
    else
      let pick := fun (d : Dev) (e : Nat) (j : Bool) =>
        let r := d.genSelect w e j
        -- a parity error stops the generator at the latch that read the entry (R272)
        if r.2 = .stop 6 then r.1.genStop w 6 else r.1.setGen w { r.1.gen w with lat := some r.2 }
      match g.jump with
      | some e => pick (d.setGen w { g with jump := none }) e true
      | none =>
        if g.gran + 1 < s.len then d.setGen w { g with lat := some .cont }
        else if s.stop then d.setGen w { g with lat := some (.stop 2) }
        else pick d s.next false
  | none => d

/-- WFG_BOUNDARY (R260 to R264): the granule that plays completes, and what the latch fixed takes effect. -/
def Dev.wfgBoundary (d : Dev) (w : Nat) : Dev :=
  if d.genState w ≠ 1 then d
  else
    let d := d.wfgLatch w
    let g := d.gen w
    match g.seg, g.lat with
    | some s, some nx =>
      let d := d.genPlay w s
      let g := d.gen w
      let b := genBase w
      if g.stop ∧ g.stopC = 5 then d.genStop w 5
      else match nx with
        | .cont => (d.setGen w { g with gran := g.gran + 1, lat := none }).put b .WFG_POS_GRAN (g.gran + 1)
        | .seg s' j =>
          let d := d.genBegin w s' g.n0
          if j then (d.setb b .WFG_STAT_JUMP_PEND ((d.gen w).jump.isSome || (d.gen w).stop)).irq .wfg (wfgBase (w / 4)) (4 + w % 4) else d
        | .stop c => d.genStop w c
    | _, _ => d

/-- AC_OVL (R274): the output current limit of an AC source is reached. -/
def Dev.acOvl (d : Dev) (w : Nat) : Dev :=
  (d.fltBit (wfgBase (w / 4)) (4 + w % 4)).faultSrc 0x25 (w / 4) (4 + w % 4)

end Sys2Proof.Machine
end

