-- ==== Sys2Proof/Machine/Clk.lean ====
section
/-! DEFINITION. Clocks (16_clocks.md): vector-clock periods and locks, source multiplexers, monitors without a reaction of their
own, start-up. -/

namespace Sys2Proof.Machine

/-- A vector period as it acts (R399). -/
def clampTv (v : Nat) : Nat := if v < 1024 then 1024 else if 32768 < v then 32768 else v

/-- CLK_VP registers of a range. -/
def vpBase (r : Nat) : Nat := clkB + 8 * r

/-- Bit `i` of CLK_PLL_LOCK.VCLK, and CLK_VP_STAT.LOCKED. -/
def Dev.setVpLock (d : Dev) (r : Nat) (on : Bool) : Dev :=
  (d.setb (vpBase r) .CLK_VP_STAT_LOCKED on).setBitN clkB .CLK_PLL_LOCK_VCLK r on

/-- The contexts of range `r` (R7). -/
def Dev.rangeCtx (d : Dev) (r : Nat) : List Nat := d.allCtx.filter (fun c => c / 128 == r)

/-- A write of CLK_VP_PERIOD of range `r` is refused (R387). -/
def Dev.vpBusy (d : Dev) (r : Nat) : Bool :=
  (d.rangeCtx r).any d.ctxOwning ||
    (d.rasOn && d.bit rasB .RAS_A_T_CLK_SRC && r == 2 * d.ras.group)

/-- The PLL of a range relocks toward PERIOD (R386, R387); one that is off takes it at its next wake. -/
def Dev.vpRelock (d : Dev) (r : Nat) : Dev :=
  if d.bit (vpBase r) .CLK_VP_STAT_OFF then d
  else
    let d := d.put (vpBase r) .CLK_VP_STAT_PERIOD_NOW (clampTv (d.get (vpBase r) .CLK_VP_PERIOD_PERIOD))
    (d.setVpLock r false).forAll ((List.range 16).map (fun i => 16 * r + i)) Dev.genOwn

/-- The PLL of a range starts (power-on, wake): it relocks at the period that is set. -/
def Dev.vpOn (d : Dev) (r : Nat) : Dev := (d.setb (vpBase r) .CLK_VP_STAT_OFF false).vpRelock r

/-- The PLL of a range stops (NAP). -/
def Dev.vpOff (d : Dev) (r : Nat) : Dev := (d.setb (vpBase r) .CLK_VP_STAT_OFF true).setVpLock r false

/-- CLK_MUX registers of multiplexer `m`. -/
def muxBase (m : Nat) : Nat := clkB + 0x10 * m

/-- Request a source of a multiplexer (R388). -/
def Dev.muxRequest (d : Dev) (m sel : Nat) : Dev :=
  let b := muxBase m
  let d := d.put b .CLK_SW_STAT_REQ sel
  if d.get b .CLK_SW_STAT_CUR = sel then d.put b .CLK_SW_STAT_STATE 0
  else (d.put b .CLK_SW_STAT_STATE 1).put b .CLK_SW_WAIT_AON_CYC 0

/-- Force a source (R389, R395). -/
def Dev.muxForced (d : Dev) (m sel : Nat) : Dev :=
  let b := muxBase m
  ((d.put b .CLK_SW_STAT_REQ sel).put b .CLK_SW_STAT_CUR sel).put b .CLK_SW_STAT_STATE 2

/-- A write of CLK_MUX_CTRL (R388, R389). Answers whether the domain has just been put in reset. Multiplexer 3 takes no host
write; multiplexer 2 only RST and FORCE, while RAS_CTRL.EN = 0. A SEL above 1 names no source and requests nothing. -/
def Dev.muxWrite (d : Dev) (m v : Nat) : Dev × Bool :=
  let b := muxBase m
  if m = 3 ∨ (m = 2 ∧ d.bit rasB .RAS_CTRL_EN = true) then (d, false)
  else
    let rst := bitOf v 16
    let was := d.bit b .CLK_MUX_CTRL_RST
    let d := d.setb b .CLK_MUX_CTRL_RST rst
    let sel := if m = 2 then d.get b .CLK_MUX_CTRL_SEL else v % 16
    let d := d.put b .CLK_MUX_CTRL_SEL sel
    let d := if bitOf v 31 then
        (if rst then d.muxForced m sel else d.setb b .CLK_SW_STAT_FORCE_REFUSED true)
      else
        let d := if was ∧ ¬ rst ∧ d.get b .CLK_SW_STAT_STATE = 2 then d.put b .CLK_SW_STAT_STATE 0 else d
        if m < 2 ∧ sel < 2 ∧ d.get b .CLK_SW_STAT_REQ ≠ sel then d.muxRequest m sel else d
    (d, rst && !was)

/-- A bit of CLK_UNLOCK_MAP sets (R393, R399). -/
def Dev.unlockBit (d : Dev) (i : Nat) : Dev :=
  if d.bitN clkB .CLK_UNLOCK_MAP_PLL i then d else (d.setBitN clkB .CLK_UNLOCK_MAP_PLL i true).irq .clk clkB 0

/-! ### Meanings -/

/-- VCLK_LOCK (R386, R399): the PLL of a range that is on locks. -/
def Dev.vclkLock (d : Dev) (r : Nat) : Dev :=
  if d.bit (vpBase r) .CLK_VP_STAT_OFF ∨ d.bit (vpBase r) .CLK_VP_STAT_LOCKED = true then d
  else
    let d := (d.setVpLock r true).irq .clk clkB 3
    -- the condition of VCLK_UNLOCK ends when no range that is on is unlocked
    if (List.range 8).all (fun i => d.bit (vpBase i) .CLK_VP_STAT_OFF || d.bit (vpBase i) .CLK_VP_STAT_LOCKED)
    then d.faultEnd 0x04 0 4 else d

/-- VCLK_UNLOCK (R393): the PLL of a range that is on loses lock. -/
def Dev.vclkUnlock (d : Dev) (r : Nat) : Dev :=
  if ¬ d.bit (vpBase r) .CLK_VP_STAT_LOCKED then d
  else
    let d := (d.setVpLock r false).unlockBit (8 + r)
    (d.fltBit clkB 4).collect 0x04 0 4 (d.rangeCtx r) true false false

/-- The gate of the page that runs in the domain of a multiplexer stops its clock (R390): PWR for AVS, BST for BIST, RAS. The management partition is
never gated. -/
def Dev.muxGated (d : Dev) : Nat → Bool
  | 0 => d.bit pwrB .PG_STAT_GATED
  | 1 => d.bit bstB .PG_STAT_GATED
  | 2 => d.bit rasB .PG_STAT_GATED
  | _ => false

/-- MUX_SWITCH (R388): both clocks have shown a low phase, which a gated domain's does not (R398). -/
def Dev.muxSwitch (d : Dev) (m : Nat) : Dev :=
  let b := muxBase m
  if d.get b .CLK_SW_STAT_STATE = 1 ∧ d.muxGated m = false then
    (d.put b .CLK_SW_STAT_CUR (d.get b .CLK_SW_STAT_REQ)).put b .CLK_SW_STAT_STATE 0
  else d

/-- SW_STUCK (R399): a multiplexer has been PENDING for 1,024 AON cycles. -/
def Dev.swStuck (d : Dev) (m : Nat) : Dev :=
  let b := muxBase m
  if d.get b .CLK_SW_STAT_STATE = 1 then
    (d.put b .CLK_SW_WAIT_AON_CYC (Nat.max 1024 (d.get b .CLK_SW_WAIT_AON_CYC))).irq .clk clkB 1
  else d

/-- AON_FAIL (R393). -/
def Dev.aonFail (d : Dev) : Dev := (d.fltBit clkB 2).faultSrc 0x04 0 2

/-- The start-up has step 3 behind it: STATE is WAIT_REF while REF_OK is 0 (R394). -/
def Dev.waitRef (d : Dev) : Dev :=
  if d.bit clkB .CLK_STAT_REF_OK then d else d.put clkB .PG_STAT_STATE 1

/-- BKOSC_QUAL_CHECK (R394 step 3): the window check with its count. -/
def Dev.bkoscQual (d : Dev) (cnt : Nat) : Dev :=
  if d.clkState > 1 ∨ d.bit clkB .CLK_STAT_BKOSC_QUAL = true ∨ ¬ d.rst.bkosc ∨ d.rst.por ∨ d.rst.supply ∨ d.pow.stop then d
  else
    let d := d.put clkB .CLK_BKOSC_CNT_COUNT cnt
    if 5888 ≤ cnt ∧ cnt ≤ 6912 then
      ({ d with rst := { d.rst with qualN := 0 } }.setb clkB .CLK_STAT_BKOSC_QUAL true).waitRef
    else
      let n := d.rst.qualN + 1
      let d := { d with rst := { d.rst with qualN := n } }
      if n < 4 then d
      else
        let d := { d with rst := { d.rst with bkosc := false } }
        (((d.setb clkB .CLK_STAT_BKOSC_FAIL true).fltBit clkB 1).faultSrc 0x04 0 1).waitRef

/-- REF_OK (R394 step 4); in FALLBACK a return of REF sets REF_OK and changes nothing else (R395). -/
def Dev.refOk (d : Dev) : Dev :=
  let st := d.clkState
  if d.rst.por ∨ d.rst.supply ∨ d.pow.stop ∨ st = 2 ∨ st = 4 then d
  else
    let d := d.setb clkB .CLK_STAT_REF_OK true
    if st = 3 then d else (d.put clkB .PG_STAT_STATE 0).faultEnd 0x04 0 0

/-- MTB_LOCK (R394 step 5): MTB locks and system time starts at 0 (R348). -/
def Dev.mtbLock (d : Dev) : Dev :=
  if d.clkState > 1 ∨ d.pow.stop ∨ ¬ d.bit clkB .CLK_STAT_REF_OK ∨ d.bit clkB .CLK_STAT_MTB_LOCK = true then d
  else
    let d := (d.setb clkB .CLK_STAT_MTB_LOCK true).setBitN clkB .CLK_PLL_LOCK_PLL 0 true
    { d with time := 0 }

/-- CLOCK_NORMAL (R394 step 6, R469): FABRIC is locked, STATE becomes NORMAL, accesses are answered, and the vector PLLs of
the present ranges start. -/
def Dev.clockNormal (d : Dev) : Dev :=
  if d.clkState > 1 ∨ ¬ d.bit clkB .CLK_STAT_MTB_LOCK then d
  else
    let d := (d.put clkB .PG_STAT_STATE 2).put clkB .CLK_PLL_LOCK_PLL 0x3F
    let d := { d with hif := { d.hif with served := d.rst.busy.isNone } }
    d.forAll ((List.range 8).filter (fun r => (List.range 4).any (fun i => d.present (4 * r + i)))) Dev.vpOn

end Sys2Proof.Machine
end

