-- ==== Sys2Proof/Machine/Tdc.lean ====
section
/-! DEFINITION. Time measurement (09_time_measurement.md): events and stamps, arming, the three functions, delivery, the
regression, the code-density slice. -/

namespace Sys2Proof.Machine

/-- The span of a run of context `c` that system time `t` falls in (R244); none before its first vector. -/
def Dev.spanAt (d : Dev) (c t : Nat) : Option Span := (d.cx c).spans.find? (fun x => decide (x.s ≤ t))

/-- The time that an event at system time `t` has for a measurement of a context or of the host, the span it falls in, and whether that is a
hold (R244). -/
def Dev.tdcPlace (d : Dev) (ctx : Option Nat) (t : Nat) : Option (Nat × Nat × Bool) :=
  match ctx with
  | none => some (t, 0, false)
  | some c => (d.spanAt c t).map (fun x => (x.v * d.ctxTv c + (t - x.s), x.s, x.hold))

/-- A stamp or result is lost (R245). -/
def Dev.tdcLoss (d : Dev) (g : Nat) : Dev :=
  let b := pinBase g
  let d := (d.satInc b .TDC_LOST_CNT_COUNT).setb b .TDC_STAT_LOST true
  let d := d.setTdc g { d.tdc g with lost := true }
  let cb := tdccBase (g / 32)
  let old := d.bitN cb .TDC_LOST_MAP_CH (g % 32)
  let d := d.setBitN cb .TDC_LOST_MAP_CH (g % 32) true
  if old then d else d.irq .tdc cb 1

/-- A bit of TDC_FLT sets (R255). -/
def Dev.tdcFlt (d : Dev) (g : Nat) (f : Fld) (inj : Bool) : Dev :=
  let d := (d.setb (pinBase g) f true).fltBit (tdccBase (g / 32)) 0
  d.faultEvt 0x24 (g / 32) 0 [] inj

/-- The least-squares period of the runs (R247, R248), times 2^16; `none` where no run has two events. -/
def tdcPeriod (rs : List TdcRun) : Option Int :=
  let num : Int := rs.foldl (fun a r => a + 12 * (r.sku : Int) - 6 * ((r.n : Int) - 1) * r.su) 0
  let den : Nat := rs.foldl (fun a r => a + r.n * (r.n * r.n - 1)) 0
  if den = 0 then none else some (roundDiv (num * 65536) den)

/-- Take an event of span `sp` in the regression (R247, R248). -/
def tdcTake (t : Tdc) (p sp : Nat) : Tdc :=
  match t.runs with
  | r :: rs =>
    if r.sp = sp then
      let u := p - r.t0
      { t with n := t.n + 1, runs := { r with n := r.n + 1, su := r.su + u, sku := r.sku + r.n * u } :: rs }
    else { t with n := t.n + 1, runs := { t0 := p, sp := sp } :: r :: rs }
  | [] => { t with n := t.n + 1, runs := [{ t0 := p, sp := sp }] }

/-- The result of a measurement that closes at time `e` with a status (R241, R243). A FREQ measurement without an event, or without a run of two,
has no stated time or period: a value of the slot and the close time (R24). -/
def Tdc.result (t : Tdc) (slot status e : Nat) : TdcRes :=
  let mk := fun (st n v t0 : Nat) =>
    ({ status := st, n := n, value := v, t0 := t0, dead := t.deadM, ctx := t.ctx, slot := slot, close := e, freq := t.func == 2 } : TdcRes)
  if t.func = 0 then mk status t.n 0 t.ta
  else if t.func = 1 then mk status 0 0 (t.start.getD t.ta)
  else
    let t0 := match (t.runs.reverse.map (·.t0)).head? with
      | some x => x
      | none => Config.runFree slot e 1 % 2 ^ 64
    let v := match tdcPeriod t.runs with
      | some x => toBits 64 x
      | none => Config.runFree slot e 2 % 2 ^ 64
    mk (if t.n < 2 ∧ status = 1 then 4 else status) t.n v t0

/-- Close a measurement at time `e`: its result waits for TDC_RESULT. -/
def Dev.tdcClose (d : Dev) (g status e : Nat) : Dev :=
  let t := d.tdc g
  (d.setTdc g { t with res := t.res ++ [t.result (d.pin g).slot status e] }).put (pinBase g) .TDC_STAT_STATE 1

/-- The gate or timeout of a measurement ends (R241). -/
def Dev.tdcExpire (d : Dev) (g : Nat) : Dev :=
  let t := d.tdc g
  d.tdcClose g (if t.func = 1 then 2 else 1) (t.ta + t.lim)

/-- A measurement is stopped at time `e` with a status, unless its gate or timeout has ended by then. -/
def Dev.tdcCut (d : Dev) (g status e : Nat) : Dev :=
  if ¬ d.tdcBusy g then d
  else if (d.tdc g).ta + (d.tdc g).lim ≤ e then d.tdcExpire g
  else d.tdcClose g status e

/-- An INTERVAL closes at its stop (R242). -/
def Dev.tdcStop (d : Dev) (g p : Nat) : Dev :=
  let t := d.tdc g
  let t0 := t.start.getD t.ta
  let r : TdcRes := { status := 1, n := 1, value := p - t0, t0 := t0, dead := t.deadM, ctx := t.ctx, slot := (d.pin g).slot, close := p }
  (d.setTdc g { t with res := t.res ++ [r] }).put (pinBase g) .TDC_STAT_STATE 1

/-- Arm a measurement at a time (R240, R241); one that is ARMED or OPEN closes with CUT at the same time. -/
def Dev.tdcArm (d : Dev) (g ta : Nat) (ctx : Option Nat) (byMark : Bool) : Dev := (d.tdcCut g 3 ta).tdcArmFresh g ta ctx byMark

/-- A HOST arming that was due takes effect. -/
def Dev.tdcNext (d : Dev) (g : Nat) : Dev :=
  match (d.tdc g).nxt with
  | some ta => (d.setTdc g { d.tdc g with nxt := none }).tdcArm g ta none false
  | none => d

/-- A HOST arming at `ta`, which lies ahead: a measurement that is ARMED or OPEN takes its events up to then (R240). -/
def Dev.tdcHostArm (d : Dev) (g ta : Nat) : Dev :=
  let d := d.tdcNext g
  if d.tdcBusy g then d.setTdc g { d.tdc g with nxt := some ta } else d.tdcArmFresh g ta none false

/-- TDC_GO (R240, R249): arms a HOST measurement, waits for the end of a code-density slice, or is refused. -/
def tdcGo (d : Dev) (g : Nat) : Dev :=
  if d.tdcRefused g then d.setb (pinBase g) .TDC_STAT_REFUSED true
  else if d.tdcState g = 4 then d.setTdc g { d.tdc g with goWait := true }
  else d.tdcHostArm g (tickUp d.time)

/-- The pins with a written TDC_CFG. -/
def Dev.tdcPins (d : Dev) : List Nat :=
  d.regs.filterMap (fun e => match areaOf e.1 with
    | .page .pin b 0x300 => some ((b - 0x800000) / 0x40000 * 32 + (b - 0x800000) % 0x40000 / 0x1000 % 32)
    | _ => none)

/-- A rising edge of trigger input `i` (R240): the arm time is the first MTB tick at least 24 ns after it. -/
def Dev.tdcTrig (d : Dev) (i : Nat) : Dev :=
  d.forAll d.tdcPins (fun d g =>
    if d.tdcMode g = 1 ∧ d.get (pinBase g) .TDC_CFG_ARM = i + 1 ∧ d.tdcState g ≠ 4
    then d.tdcHostArm g (tickUp (d.time + 39322)) else d)

/-- The time a measurement of a TDC reads now: the program time that its context has reached, else system time. -/
def Dev.tdcNow (d : Dev) (g : Nat) : Nat :=
  match (d.tdc g).ctx with
  | some c => d.vidx c * d.ctxTv c
  | none => d.time

/-- A change of TDC_CFG, TDC_TIMEOUT or TDC_COUNT (R252, R239): what runs closes by the values that it was armed with. -/
def Dev.tdcChanged (d : Dev) (g : Nat) : Dev :=
  let d := d.tdcNext g
  let d := d.tdcCut g 5 (d.tdcNow g)
  if d.tdcState g = 4 then d else d.put (pinBase g) .TDC_STAT_STATE (if d.tdcMode g = 0 then 0 else 1)

/-- A stamp is delivered to the FIFO or lost (R245). -/
def Dev.tdcStamp (d : Dev) (g code p : Nat) (interp : Bool) : Dev :=
  let t := d.tdc g
  let d := d.setTdc g { t with seq := (t.seq + 1) % 2 ^ 24, stops := t.stops + 1 }
  let full : Bool := match t.ctx with
    | some _ => t.tok == 0
    | none => t.fifo.length ≥ 64
  if full then d.tdcLoss g
  else
    let e : TdcEnt := { time := p, event := code, interp := interp, dead := t.dead, lost := t.lost, seq := t.seq, ctx := t.ctx, slot := (d.pin g).slot }
    let tok := if t.ctx.isSome then t.tok - 1 else t.tok
    let d := d.setTdc g { d.tdc g with fifo := t.fifo ++ [e], n := t.n + 1, dead := false, lost := false, tok := tok }
    d.put (pinBase g) .TDC_STAT_LEVEL (t.fifo.length + 1)

/-- The event count at which STAMP and FREQ close, if any (R241). -/
def Dev.tdcCount (d : Dev) (g : Nat) : Option Nat :=
  let c := d.get (pinBase g) .TDC_COUNT_COUNT
  if d.tdcFunc g = 2 then some (if c = 0 ∨ 2 ^ 24 < c then 2 ^ 24 else c)
  else if c = 0 then none else some c

/-- An accepted event of span `sp` that the function selects as a stop while OPEN (R241, R242). -/
def Dev.tdcStopEvt (d : Dev) (g code p sp : Nat) (interp : Bool) : Dev :=
  let f := (d.tdc g).func
  if f = 1 then
    let n := (d.tdc g).stops + 1
    let d := d.setTdc g { d.tdc g with stops := n }
    if n = d.get (pinBase g) .TDC_CFG_NSTOP + 1 then d.tdcStop g p else d
  else
    let d := if f = 0 then d.tdcStamp g code p interp
      else d.setTdc g { tdcTake (d.tdc g) p sp with stops := (d.tdc g).stops + 1 }
    match d.tdcCount g with
    | some c => if c ≤ (d.tdc g).stops then d.tdcClose g 1 p else d
    | none => d

/-- The source bit of an event is selected by the active function in the present state (R235). -/
def Dev.tdcSel (d : Dev) (g code : Nat) : Bool × Bool :=
  let b := pinBase g
  let i := code - 1
  (d.tdcFunc g == 1 && bitOf (d.get b .TDC_CFG_START_SRC) i, bitOf (d.get b .TDC_CFG_STOP_SRC) i)

/-- A time lies in the gate or timeout of a measurement that is ARMED or OPEN (R235, R241). -/
def Tdc.inGate (t : Tdc) (p : Nat) : Bool := decide (t.ta ≤ p ∧ p ≤ t.ta + t.lim)

/-- An accepted event at measurement time `p` (R241, R242); answers whether it served as a start or a stop. -/
def Dev.tdcEvent (d : Dev) (g code p sp : Nat) (interp : Bool) : Dev × Bool :=
  let t := d.tdc g
  let sel := d.tdcSel g code
  if !t.inGate p then (d, false)
  else if d.tdcState g = 2 then
    if sel.1 then ((d.setTdc g { t with start := some p, stops := 0 }).put (pinBase g) .TDC_STAT_STATE 3, true) else (d, false)
  else if d.tdcState g = 3 ∧ sel.2 then (d.tdcStopEvt g code p sp interp, true)
  else (d, false)

/-- A MARK at system time `t` at the tip (R82, R235, R240, R242): a start or stop event, or in CONTEXT mode the arming of a measurement. -/
def Dev.tdcMark (d : Dev) (g t : Nat) : Dev :=
  let m := d.tdcMode g
  if d.tdcState g = 0 ∨ d.tdcState g = 4 ∨ d.clState (g / 32) ≥ 2 then d
  else if m = 1 then
    let d := if (d.tdc g).nxt.any (fun ta => decide (ta ≤ t)) then d.tdcNext g else d
    if d.tdcBusy g then (d.tdcEvent g 5 t 0 false).1 else d
  else match d.service g with
    | some c =>
      match d.tdcPlace (some c) t with
      | some (p, sp, hold) =>
        if hold then d.satInc (pinBase g) .TDC_HOLD_DROP_COUNT
        else
          let r := if d.tdcBusy g then d.tdcEvent g 5 p sp false else (d, false)
          if r.2 then r.1 else r.1.tdcArm g p (some c) true
      | none => d
    | none => d

/-- A MARK of a vector that is emitted: it acts when its time at the tip is passed, 20 ns and T_k after the vector's start (R80). -/
def Dev.tdcTip (d : Dev) (g t : Nat) : Dev := d.setTdc g { d.tdc g with tips := (d.tdc g).tips ++ [t] }

/-- The MARKs whose times satisfy `p`, oldest first, act. -/
def Dev.tdcTips (d : Dev) (g : Nat) (p : Nat → Bool) : Dev :=
  let t := d.tdc g
  if t.tips = [] then d
  else (t.tips.takeWhile p).foldl (fun d x => d.tdcMark g x) (d.setTdc g { t with tips := t.tips.dropWhile p })

/-- The stamp that a comparator event takes on the interpolator that is next (R236, R238, R251). -/
def Dev.tdcStampOf (d : Dev) (g tick raw : Nat) : Nat :=
  let nb := (d.tdc g).nextB
  let f := if d.armed 0x24 (g / 32) 0 then nominalPos raw else d.finePos g nb raw
  let off : Int := if nb then roundDiv (d.beta g) 256 else 0
  Int.toNat ((1024 * tick + f : Nat) - d.pRcv g + off)

/-- An accepted event uses its table, whose parity is checked (R251). -/
def Dev.tdcUse (d : Dev) (g : Nat) : Dev :=
  let par := d.evalInj 0x24 (g / 32) 0
  if par.2 then par.1.tdcFlt g .TDC_FLT_TABLE_PARITY true else par.1

/-- What has its time up to a stamp acts before the event that carries it: the MARKs, which come first in a fine unit, and a HOST arming (R237, R240). -/
def Dev.tdcUpTo (d : Dev) (g st : Nat) : Dev :=
  let d := d.tdcTips g (fun t => decide (t ≤ st))
  if (d.tdc g).nxt.any (fun ta => decide (ta ≤ st)) then d.tdcNext g else d

/-- A comparator event presented to a TDC (R235 to R238, R244): one outside the gate uses no interpolator and is not counted, one within 300 ps
of the last accepted is rejected. -/
def Dev.tdcCmp (d : Dev) (g code tick raw : Nat) : Dev :=
  let d := d.tdcUpTo g (d.tdcStampOf g tick raw)
  let t := d.tdc g
  let sel := d.tdcSel g code
  let st := d.tdcStampOf g tick raw
  if !(d.tdcBusy g) || !(sel.1 || sel.2) || d.clState (g / 32) ≥ 2 then d
  else match d.tdcPlace t.ctx st with
  | some (p, sp, hold) =>
    if hold then d.satInc (pinBase g) .TDC_HOLD_DROP_COUNT
    else if !t.inGate p then d
    else if t.last.any (fun l => decide (st < l + 492)) then
      let d := (d.satInc (pinBase g) .TDC_DEAD_CNT_COUNT).setb (pinBase g) .TDC_STAT_DEAD true
      d.setTdc g { d.tdc g with dead := true, deadM := true }
    else
      let d := (d.tdcUse g).satInc (pinBase g) .TDC_EDGE_CNT_COUNT
      let d := d.setTdc g { d.tdc g with nextB := !t.nextB, last := some st }
      (d.tdcEvent g code p sp t.nextB).1
  | none => d

/-- An owner starts: the token buckets of its TDCs are full (R245). -/
def Dev.tdcOwnerStart (d : Dev) (c : Nat) : Dev :=
  d.forAll (d.cx c).site (fun d g => d.setTdc g { d.tdc g with tok := 64, tips := [] })

/-- The MARKs of a site whose times at the tip lie before the next vector act (R244). -/
def Dev.tdcPass (d : Dev) (c : Nat) : Dev :=
  let s := (d.cx c).s
  d.forAll (d.cx c).site (fun d g => d.tdcTips g (fun t => decide (t < s)))

/-- An owner leaves RUNNING and HOLDING: its measurements close with CUT at the end of the last emitted vector (R244). -/
def Dev.tdcOwnerEnd (d : Dev) (c : Nat) : Dev :=
  let e := d.vidx c * d.ctxTv c
  (d.tdcPass c).forAll (d.cx c).site (fun d g =>
    let d := d.setTdc g { d.tdc g with tips := [] }
    if (d.tdc g).ctx = some c then d.tdcCut g 3 e else d)

/-- A cluster enters NAP or DORMANT (R252). -/
def Dev.tdcSleep (d : Dev) (n : Nat) (dormant : Bool) : Dev :=
  d.forAll ((List.range 32).map (fun i => 32 * n + i)) (fun d g =>
    let d := d.tdcNext g
    let d := if d.tdcMode g = 1 then d.tdcCut g 5 d.time else d
    if dormant ∧ (d.tdc g).fifo ≠ [] then (d.setTdc g { d.tdc g with fifo := [] }).put (pinBase g) .TDC_STAT_LEVEL 0 else d)

/-! ### Meanings -/

/-- PIN_COMPARATOR_EDGE (R72, R75, R69, R74): the voltage at a pin comes to `v` (in 2^-20 mV), and the comparator takes the state that its thresholds give;
while its outputs are held or it is OFF nothing else happens. -/
def Dev.pinComparatorEdge (d : Dev) (g : Nat) (high : Bool) (v : Int) (tick raw : Nat) : Dev :=
  let b := pinBase g
  let p := d.pin g
  let rise := d.cmpAt g high v
  let d := d.setPin g (if high then { p with rawCH := rise } else { p with rawCL := rise })
  if p.cmp = .off ∨ d.cmpHeld g then d
  else if d.bit b (if high then .PIN_CMP_STAT_CH else .PIN_CMP_STAT_CL) = rise then d
  else
    let ch := d.bit b .PIN_CMP_STAT_CH
    let cl := d.bit b .PIN_CMP_STAT_CL
    let d := d.setCmpOut g (if high then rise else ch) (if high then cl else rise)
    let k := (if high then 0 else 2) + (if rise then 0 else 1)
    let d := d.irq .pin b k
    let st := d.clState (g / 32)
    let d := if (st = 2 ∨ st = 3) ∧ bitOf (d.get b .PIN_CMP_EVT_WAKE) k then d.wakeReq (g / 32) else d
    d.tdcCmp g (k + 1) tick raw

/-- TDC_TIMEOUT (R241): a gate or timeout expires and the measurement closes at its end, behind the MARKs that lie in it. Where a HOST arming is
due before that end, the expiry is that of the new measurement. -/
def Dev.tdcTimeout (d : Dev) (g : Nat) : Dev :=
  let e := (d.tdc g).ta + (d.tdc g).lim
  let ctx := (d.tdc g).ctx
  let d := if d.tdcBusy g then d.tdcTips g (fun t => match d.tdcPlace ctx t with | some q => decide (q.1 ≤ e) | none => true) else d
  match (d.tdc g).nxt with
  | some ta => if d.tdcBusy g ∧ e ≤ ta then (d.tdcExpire g).tdcNext g else (d.tdcNext g).tdcExpire g
  | none => if d.tdcBusy g then d.tdcExpire g else d

/-- A result reaches the PIN page (R243): TDC_RES_STAT, TDC_RES_VALUE, TDC_RES_T0 and the pin's bit in TDC_DONE_MAP. -/
def Dev.tdcShow (d : Dev) (g : Nat) (r : TdcRes) : Dev :=
  let b := pinBase g
  let d := (d.put b .TDC_RES_STAT_STATUS r.status).setb b .TDC_RES_STAT_DEAD r.dead
  let d := (d.put b .TDC_RES_STAT_N r.n).put b .TDC_RES_VALUE_VALUE r.value
  let d := d.put b .TDC_RES_T0_TIME r.t0
  let cb := tdccBase (g / 32)
  let old := d.bitN cb .TDC_DONE_MAP_CH (g % 32)
  let d := d.setBitN cb .TDC_DONE_MAP_CH (g % 32) true
  if old then d else d.irq .tdc cb 0

/-- The result of the oldest closed measurement is written, or sent to the acquisition (R243, R245). -/
def Dev.tdcGive (d : Dev) (g : Nat) : Dev :=
  let t := d.tdc g
  match t.res with
  | [] => d
  | r :: rs =>
    let d := d.setTdc g { t with res := rs }
    match r.ctx with
    | none => d.tdcShow g r
    | some c =>
      if t.tok = 0 then d.tdcLoss g
      else
        let d := d.setTdc g { d.tdc g with tok := t.tok - 1, lost := false }
        d.acqPush c ((r.close + 2 * usFine) / d.ctxTv c)
          { src := .tdcRes, slot := r.slot, val := r.value, ptime := r.close, n := r.n, status := r.status, dead := r.dead, lost := t.lost, freq := r.freq, t0 := r.t0 }

/-- TDC_RESULT (R243, R245). -/
def Dev.tdcResult (d : Dev) (g : Nat) : Dev := (d.tdcNext g).tdcGive g

/-- TDC_TOKEN (R245): 65,536 fine units of program time pass. -/
def Dev.tdcToken (d : Dev) (g : Nat) : Dev :=
  match d.service g with
  | some c => if d.ctxState c = 4 then d else d.setTdc g { d.tdc g with tok := Nat.min 64 ((d.tdc g).tok + 1) }
  | none => d

/-- The FIFO of a pin hands its CONTEXT entries to the acquisition. -/
def Dev.tdcHand (d : Dev) (g : Nat) : Dev :=
  let t := d.tdc g
  let out := t.fifo.filter (fun e => e.ctx.isSome)
  if out = [] then d
  else
    let keep := t.fifo.filter (fun e => e.ctx.isNone)
    let d := (d.setTdc g { t with fifo := keep }).put (pinBase g) .TDC_STAT_LEVEL keep.length
    out.foldl (fun d e => match e.ctx with
      | some c =>
        (d.satInc (tdccBase (g / 32)) .TDC_STAMP_CNT_COUNT).acqPush c ((e.time + 2 * usFine) / d.ctxTv c)
          { src := .tdcStamp, slot := e.slot, val := e.time, ptime := e.time, dead := e.dead, lost := e.lost, seq := e.seq, code := e.event, interp := e.interp }
      | none => d) d

/-- TDC_DRAIN (R246): every FIFO of a cluster hands its CONTEXT entries to the acquisition. -/
def Dev.tdcDrain (d : Dev) (n : Nat) : Dev := d.forAll ((List.range 32).map (fun i => 32 * n + i)) Dev.tdcHand

/-- What the TDCs still hold of a context's run reaches its acquisition (R276). -/
def Dev.tdcHandAll (d : Dev) (c : Nat) : Dev :=
  d.forAll (d.tdcs.map Prod.fst) (fun d g =>
    let d := if (d.tdc g).fifo.any (fun e => e.ctx == some c) then d.tdcHand g else d
    d.forAll (List.range (d.tdc g).res.length) (fun d _ => if (d.tdc g).res.any (fun r => r.ctx == some c) then d.tdcGive g else d))

/-- A pop of TDC_POP (R254): the state after it and the entry word. -/
def Dev.tdcPop (d : Dev) (g : Nat) : Dev × Nat :=
  let b := pinBase g
  let t := d.tdc g
  match t.fifo, d.tdcMode g with
  | e :: es, 1 =>
    let w := 2 ^ 31 + (if e.lost then 2 ^ 30 else 0) + (if e.dead then 2 ^ 29 else 0) + (if e.interp then 2 ^ 28 else 0)
      + e.event * 2 ^ 24 + e.seq
    let d := (d.setTdc g { t with fifo := es, popSeq := e.seq }).put b .TDC_STAMP_TIME_TIME e.time
    (d.put b .TDC_STAT_LEVEL es.length, w)
  | _, _ => (d, t.popSeq)

/-- The key of a bin of the code-density histogram. -/
def histKey (g bin : Nat) : Nat := g * 1024 + bin

/-- A code-density slice begins (R249): the TDCs of the cluster leave their comparators, and the hits start from none. -/
def Dev.tdcCdBegin (d : Dev) (n : Nat) : Dev :=
  let d := d.put (tdccBase n) .PG_STAT_STATE 2
  let d := { d with hist := Tab.dropRange d.hist (histKey (32 * n) 0) (histKey (32 * n + 32) 0) }
  d.forAll (clPins n) (fun d g => d.put (pinBase g) .TDC_STAT_STATE 4)

/-- Hits of raw bins are counted, each given by 1024 × local channel + 512 × interpolator + bin. -/
def Dev.tdcCdHits (d : Dev) (n : Nat) (hits : List (Nat × Nat)) : Dev :=
  hits.foldl (fun d h =>
    let k := histKey (32 * n) h.1
    { d with hist := Tab.set (fun _ => 0) d.hist k (Tab.get (fun _ => 0) d.hist k + h.2) }) d

/-- The hits of an interpolator, by raw bin. -/
def Dev.histOf (d : Dev) (g : Nat) (interp : Bool) : List Nat :=
  (List.range 512).map (fun i => Tab.get (fun _ => 0) d.hist (histKey g ((if interp then 512 else 0) + i)))

/-- The widths of an interpolator (R250): floor(65,536 n / 524,288), and the remainder one unit at a time to the largest
fractional parts, lower bins first. -/
def cdWidths (ns : List Nat) : List Nat :=
  let base := ns.map (fun n => n / 8)
  let rem := 65536 - base.foldl (· + ·) 0
  let fr := ns.map (fun n => n % 8)
  -- bins by fractional part, largest first; `take` gives the bins that get a unit
  let order := ([7, 6, 5, 4, 3, 2, 1, 0].map (fun f => (fr.zipIdx).filterMap (fun p => if p.1 = f then some p.2 else none))).flatten
  let up := order.take rem
  (base.zipIdx).map (fun p => p.1 + (if up.contains p.2 then 1 else 0))

/-- A TDC's slice gives no table (R250): hits missing, a width above 512, or more than 16 empty bins. -/
def Dev.cdBad (d : Dev) (g : Nat) : Bool :=
  let hs := [d.histOf g false, d.histOf g true]
  !(hs.all (fun h => h.foldl (· + ·) 0 == 524288)) || hs.any (fun h => (h.filter (· = 0)).length > 16)
    || hs.any (fun h => (cdWidths h).any (fun x => x > 512))

/-- CD_DONE (R250): the slice ends. A TDC whose widths pass gets new staged widths; the others keep their table. -/
def Dev.cdDone (d : Dev) (n khz : Nat) : Dev :=
  let b := tdccBase n
  if d.get b .PG_STAT_STATE ≠ 2 then d
  else
    let d := d.forAll (clPins n) (fun d g =>
      let hs := [d.histOf g false, d.histOf g true]
      let d := if hs.any (fun h => (h.filter (· ≠ 0)).length < 256) then d.tdcFlt g .TDC_FLT_INTERP_STUCK false else d
      if d.cdBad g then d
      else (((hs.map cdWidths).flatten).zipIdx).foldl (fun d p =>
        d.setCalLE (n * calSize + 0x8000 + g % 32 * 0x800 + 2 * p.2) p.1 2) d)
    let tot := ((d.histOf (32 * n) false) ++ (d.histOf (32 * n) true)).foldl (· + ·) 0
    let d := (d.put b .TDC_CD_HITS_HITS tot).put b .TDC_RND_RATE_KHZ khz
    ((d.setb b .TDC_HIST_DATA_VALID true).tdcCdEnd n).irq .tdc b 2

end Sys2Proof.Machine
end

