-- ==== Sys2Proof/Machine/Pwr.lean ====
section
/-! DEFINITION. Power states, the wake governor, HBM self-refresh, HIBERNATE, DVFS and AVSBus (17_power_thermal.md). -/

namespace Sys2Proof.Machine

/-- PWR registers of cluster `n`. -/
def pwrCl (n : Nat) : Nat := pwrB + 0x10 * n

/-- Set PWR_CL_STAT.STATE. -/
def Dev.setClState (d : Dev) (n st : Nat) : Dev := d.put (pwrCl n) .PWR_CL_STAT_STATE st

/-! ### Target (R401) -/

/-- The rows of R401 that apply, as BLOCK shows them. -/
def Dev.pwrBlock (d : Dev) (n : Nat) : List Bool :=
  let cs := d.ctxOfCluster n
  [cs.any d.ctxActive,
   (d.clu n).slice != 0 || (d.clu n).bst.isSome,
   (List.range 4).any (fun x => d.genActive (4 * n + x)) || d.rasOnCluster n,
   cs.any (fun c => d.ctxState c == 2),
   (List.range 2).any (fun i => d.dpsState (2 * n + i) > 1),
   d.bufLevel n != 0,
   d.bit (pwrCl n) .PWR_CL_CFG_FORCE_RUN]

/-- BLOCK as bits. -/
def blockBits (l : List Bool) : Nat := (l.zipIdx).foldl (fun a p => if p.1 then a + 2 ^ p.2 else a) 0

/-- The target state of a cluster (R401): 0 RUN, 1 IDLE, 2 NAP, 3 DORMANT. -/
def Dev.pwrTarget (d : Dev) (n : Nat) : Nat :=
  let tol := d.get (pwrCl n) .PWR_CL_TOL_NS
  let deep := if 200000 ≤ tol then 3 else if 16000 ≤ tol then 2 else 1
  let lim := ((d.pwrBlock n).zip [0, 0, 1, 2, 2, 2, 0]).find? (fun p => p.1)
  match lim with
  | some p => Nat.min deep p.2
  | none => deep

/-- A present state that has become too deep gives a wake without a promise (R402); out of IDLE the cluster is in RUN at once (R400). -/
def Dev.tooDeep (d : Dev) (n : Nat) : Dev :=
  if 1 ≤ d.clState n ∧ d.clState n < 4 ∧ d.pwrTarget n < d.clState n then d.wakeReqTo n false true 0 else d

/-! ### Entry and wake of the pins (R92, R76) -/

/-- A pin as its cluster enters NAP or DORMANT. -/
def Dev.pinSleep (d : Dev) (g : Nat) (dormant : Bool) : Dev := if d.pinLive g then d.pinSleepTo g dormant else d

/-- A pin as its cluster returns to RUN. -/
def Dev.pinWake (d : Dev) (g : Nat) : Dev :=
  let b := pinBase g
  if ¬ d.pinLive g then d
  else
    let d := d.setCmpMode g (d.pin g).mode
    let d := d.setPin g { d.pin g with clamp := d.bit b .PIN_CTRL_CLAMP_EN }
    match d.service g with
    | some _ => d
    | none => d.driveStatic g

/-- The vector PLL of a range is off once its clusters are in NAP or deeper (R400). -/
def Dev.rangeSleep (d : Dev) (r : Nat) : Dev :=
  if (List.range 4).all (fun i => !d.present (4 * r + i) || d.clState (4 * r + i) ≥ 2) then d.vpOff r else d

/-- A cluster enters NAP (R400, R92, R252, R272). -/
def Dev.enterNap (d : Dev) (n : Nat) : Dev :=
  let d := (d.setClState n 2).forAll (clPins n) (fun d g => d.pinSleep g false)
  (d.tdcSleep n false).rangeSleep (n / 4)

/-- The connected PMUs of a cluster, and those with a sequence that runs. -/
def Dev.pmusOn (d : Dev) (n : Nat) : List Nat :=
  (clPins n).filter (fun g => d.bit (pinBase g) .PMU_STAT_CONN || decide ((d.pmu g).seq ≠ .none))

/-- The way to DORMANT (R402, R203): the PMUs disconnect first; then the retention save begins and STATE shows DORMANT. -/
def Dev.enterDormant (d : Dev) (n : Nat) : Dev :=
  let on := d.pmusOn n
  if on ≠ [] then
    let new := on.filter (fun g => d.bit (pinBase g) .PMU_STAT_CONN && decide ((d.pmu g).seq ≠ .disconnect))
    let d := d.forAll new (fun d g => d.pmuOff g .disconnect false)
    d.setClu n { d.clu n with pmuBack := (d.clu n).pmuBack ++ new.filter (fun g => !(d.clu n).pmuBack.contains g) }
  else
    let d := ((d.setClState n 3).setClu n { d.clu n with saving := true }).setb (calcBase n) .CAL_CL_PEND_PREPARED false
    let d := d.forAll (clPins n) (fun d g => d.pinSleep g true)
    let d := d.forAll (List.range 4) (fun d x => d.genOff (4 * n + x) true)
    (d.tdcSleep n true).rangeSleep (n / 4)

/-- The AC sources of a cluster that wakes output WFG_HOLD again, and the bus switches that DORMANT opened close: as programmed (R272). -/
def Dev.gensWake (d : Dev) (n : Nat) : Dev :=
  d.forAll (List.range 4) (fun d x =>
    let w := 4 * n + x
    let k := (d.gen w).kept
    let d := d.setGen w { d.gen w with route := Nat.lor (d.gen w).route k, kept := 0 }
    (d.forAll ((List.range 32).filter (bitOf k)) (fun d i => d.setPin (32 * n + i) { d.pin (32 * n + i) with busT := some d.time })).genHoldOut w)

/-- The PMUs that a DORMANT entry disconnected run the connect sequence, without a strobe (R203). -/
def Dev.pmuReturn (d : Dev) (n : Nat) : Dev :=
  let l := (d.clu n).pmuBack
  let d := d.setClu n { d.clu n with pmuBack := [] }
  d.forAll l (fun d g =>
    if d.bit (pinBase g) .PG_CTRL_EN ∧ (d.pin g).safe = false then
      (if (d.pmu g).seq = .none then (d.pmuRunWith g (d.pmu g).set).1
       else if (d.pmu g).seq = .disconnect then d.setPmu g { d.pmu g with back := true } else d)
    else d)

/-! ### The governor (R404, R405) -/

/-- Does wake `a` come before wake `b`. -/
def Wake.before (a b : Wake) : Bool :=
  if a.low != b.low then b.low
  else if a.prio ≠ b.prio then a.prio > b.prio
  else if a.t / usFine ≠ b.t / usFine then a.t < b.t
  else a.cl < b.cl

/-- The first of a list of wakes. -/
def firstWake : List Wake → Option Wake
  | [] => none
  | w :: ws => match firstWake ws with
    | none => some w
    | some v => if v.before w then some v else some w

/-- The spacing after a wake, in fine units (R404); a budget of 0 acts as 1. -/
def Dev.wakeSpacing (d : Dev) (dorm : Bool) : Nat :=
  let core := d.get pwrB (if dorm then .PWR_STEP_DORM_CORE else .PWR_STEP_NAP_CORE)
  let pin := d.get pwrB (if dorm then .PWR_STEP_DORM_PIN else .PWR_STEP_NAP_PIN)
  let bc := Nat.max 1 (d.get pwrB .WAKE_SLEW_BUDGET_CORE)
  let bp := Nat.max 1 (d.get pwrB .WAKE_SLEW_BUDGET_PIN)
  Nat.max ((core * usFine + bc - 1) / bc) ((pin * usFine + bp - 1) / bp)

/-! ### DVFS (R410, R411) -/

/-- The ceiling in force: thermal and AVSBus (R410, R412, R416). -/
def Dev.dvfsCeil (d : Dev) : Nat :=
  if d.thm.trip ∨ d.pow.avsHold then 3 else if d.thm.warn ≠ [] then 2 else 0

/-- A context is ARMED, RUNNING or HOLDING, or an ARM runs or waits to take it there (R129: notes/assumptions/89.md). -/
def Dev.fabricFast (d : Dev) : Bool :=
  d.allCtx.any d.ctxOwning || d.clusters.any (fun n => (d.eng n).queue.any (fun r => r.slot == 0x21) || (match (d.eng n).run with | some u => u.rtn.slot == 0x21 | none => false))

/-- The point wanted (R410): P4 acts as P3 while it is not allowed (R129). A ceiling bounds the speed from above (R412, R416), so
the slowest of the three is in force: DEDUCED, notes/assumptions/5.md. -/
def Dev.dvfsWant (d : Dev) : Nat :=
  let t := Nat.min 4 (d.get pwrB .PWR_DVFS_CTRL_TARGET)
  let t := if t = 4 ∧ d.fabricFast then 3 else t
  Nat.max t d.dvfsCeil

/-- Show the ceiling and start a move where the point wanted is not the point in force. -/
def Dev.dvfsCheck (d : Dev) : Dev :=
  let d := d.put pwrB .PWR_DVFS_STAT_CEIL d.dvfsCeil
  if d.dvfsWant = d.get pwrB .PWR_DVFS_STAT_NOW then d else d.setb pwrB .PWR_DVFS_STAT_BUSY true

/-- The AVSBus has failed (R412): P3 is held as a ceiling. -/
def Dev.avsFail (d : Dev) : Dev :=
  let d := { d with pow := { d.pow with avsHold := true, avsOk := false, avsTry := 0 } }
  ((d.fltBit pwrB 0).faultSrc 0x05 0 0).dvfsCheck

/-- Software clears AVS_FAIL: the hold ends after a successful frame (R412). -/
def Dev.avsClear (d : Dev) : Dev :=
  if d.pow.avsHold ∧ d.pow.avsOk then
    ({ d with pow := { d.pow with avsHold := false } }.faultEnd 0x05 0 0).dvfsCheck
  else d

/-! ### Meanings -/

/-- The engine of a cluster has a routine that runs or waits. -/
def Dev.engBusy (d : Dev) (n : Nat) : Bool := (d.eng n).run.isSome || !(d.eng n).queue.isEmpty

/-- IDLE_ENTRY (R402): no work for 1 µs; a routine that runs or waits is work. -/
def Dev.idleEntry (d : Dev) (n : Nat) : Dev :=
  if d.present n ∧ d.clState n = 0 ∧ 1 ≤ d.pwrTarget n ∧ d.clkState = 2 ∧ d.engBusy n = false then d.setClState n 1 else d

/-- An ARM routine that waits names a pin of the cluster: its wake ends in NAP, and the cluster stays there for it (R103). -/
def Dev.armHolds (d : Dev) (n : Nat) : Bool :=
  d.clusters.any (fun k => (d.eng k).queue.any (fun r => r.slot == 0x21 &&
    (d.siteRegs r.ctx).any (fun o => match o with | some g => g / 32 == n | none => false)))

/-- IDLE_DWELL (R402): the cluster moves to its target state, or wakes when its state has become too deep. -/
def Dev.idleDwell (d : Dev) (n : Nat) : Dev :=
  let st := d.clState n
  let t := if d.armHolds n then Nat.min 2 (d.pwrTarget n) else d.pwrTarget n
  if !d.present n || !(st == 1 || st == 2) || d.pow.queue.any (fun w => w.cl == n) || d.pow.prog.any (fun w => w.cl == n) then d
  else if t < st then (if st = 1 then d.setClState n 0 else d.tooDeep n)
  else if t = st then d
  else if t = 2 then d.enterNap n
  else d.enterDormant n

/-- RETENTION_SAVE_DONE (R402). -/
def Dev.retentionSaveDone (d : Dev) (n : Nat) : Dev := d.setClu n { d.clu n with saving := false }

/-- PWR_CL_WAKE.GO (R403). -/
def pwrClWake (d : Dev) (n : Nat) : Dev := d.wakeReq n

/-- WAKE_ADMIT (R404, R405, R407): the first admissible wake is admitted. A cluster in a thermal safe state, in a retention save
or in a self-test slice waits; none is admitted during a DVFS step. -/
def Dev.wakeAdmit (d : Dev) : Dev :=
  let ok := d.pow.queue.filter (fun w => !bitOf d.thm.safe w.cl && !(d.clu w.cl).saving && (d.clu w.cl).bst.isNone)
  match firstWake ok with
  | none => d
  | some w =>
    if d.bit pwrB .PWR_DVFS_STAT_BUSY ∨ d.time < d.pow.free ∨ Nat.max 1 (d.get pwrB .WAKE_MAX_CONCURRENT_COUNT) ≤ d.pow.prog.length
    then d
    else
      let d := { d with pow := { d.pow with queue := d.pow.queue.filter (fun v => v.cl ≠ w.cl), prog := d.pow.prog ++ [w], free := d.time + d.wakeSpacing w.dorm, selfRef := false } }
      let d := (d.setb (pwrCl w.cl) .PWR_CL_STAT_QUEUED false).setb (pwrCl w.cl) .PWR_CL_STAT_WAKING true
      let d := if d.bit (vpBase (w.cl / 4)) .CLK_VP_STAT_OFF then d.vpOn (w.cl / 4) else d
      d.wakeCounts

/-- A wake is judged against its promise (R406). -/
def Dev.wakeMiss (d : Dev) (w : Wake) : Dev :=
  match w.promise with
  | none => d
  | some p =>
    if d.time ≤ p then d
    else
      let ns := Nat.min ((d.time - p) * 10 / 16384) 0xFFFFFF
      let d := (d.satInc (pwrB + 4 * w.cl) .PWR_CL_MISS_CNT_COUNT).irq .pwr pwrB 0
      if d.bit pwrB .PWR_LAT_MISS_VALID ∧ ns ≤ d.get pwrB .PWR_LAT_MISS_NS then d
      else ((d.setb pwrB .PWR_LAT_MISS_VALID true).put pwrB .PWR_LAT_MISS_CLUSTER w.cl).put pwrB .PWR_LAT_MISS_NS ns

/-- An admitted wake reaches its state (R400, R403, R406): the pins and PMUs return. A wake that ends in NAP (R103) reaches no RUN: it is
not judged and sets no WAKE_DONE. A wake of R407 finds its cluster in RUN. Answers whether the cluster is in RUN now. -/
def Dev.wakeDone (d : Dev) (n : Nat) : Dev × Bool :=
  match d.pow.prog.find? (fun w => w.cl == n) with
  | none => (d, false)
  | some w =>
    let d := { d with pow := { d.pow with prog := d.pow.prog.filter (fun v => v.cl ≠ n) } }
    let d := (d.setb (pwrCl n) .PWR_CL_STAT_WAKING false).wakeCounts
    if w.aim = 2 then
      let d := (d.setClState n 2).gensWake n
      (d.forAll (clPins n) (fun d g => d.pinSleep g false), false)
    else
    let d := (d.wakeMiss w).irq .pwr pwrB 1
    if d.clState n = 0 then (d, true)
    else
      let d := (d.setClState n 0).gensWake n
      (((d.forAll (clPins n) Dev.pinWake).pmuReturn n), true)

/-- PWR_CL_TOL_WRITE (R401, R402), after the register has taken the value. -/
def Dev.tolWritten (d : Dev) (n : Nat) : Dev := d.tooDeep n

/-- PWR_HIB with CONFIRM = 0x5A (R409): HIBERNATE is entered, or HIB_REFUSED sets. -/
def Dev.hibernate (d : Dev) : Dev :=
  let ok := d.clusters.all (fun n => d.clState n == 3) &&
    d.clusters.all (fun n => (List.range 2).all (fun i => d.dpsState (2 * n + i) ≤ 1))
  if ¬ ok then d.setb pwrB .PWR_STAT_HIB_REFUSED true
  else
    let d := { d with pow := { d.pow with stop := true, queue := [], prog := [] }, hif := { d.hif with served := false } }
    let d := d.setb hifB .HIF_LINK_UP false
    let d := d.forAll d.clusters (fun d n =>
      let d := d.forAll (clPins n) (fun d g => ((d.pinSafe g).pmuForceOff g).pmuPark g)
      let d := d.forAll (clPins n) (fun d g =>
        let d := d.put (pinBase g) .PMU_STAT_SEQ 0
        let d := (d.setCmpMode g .off).setPin g { d.pin g with safe := false, clamp := false, tgt := zeroLevels }
        (d.setLvlNow g zeroLevels).setb (pinBase g) .PIN_STAT_PARKED true)
      let d := d.forAll [2 * n, 2 * n + 1] (fun d k => d.dpsOffNow k 0)
      let d := d.forAll [4 * n, 4 * n + 1, 4 * n + 2, 4 * n + 3] (fun d w => d.genOff w false)
      (d.setClu n { d.clu n with saving := false }).setClState n 4)
    let d := ((d.setb clkB .CLK_STAT_MTB_LOCK false).setb clkB .CLK_STAT_REF_OK false).setb clkB .CLK_STAT_BKOSC_QUAL false
    let d := (d.put clkB .CLK_PLL_LOCK_PLL 0).put clkB .PG_STAT_STATE 0
    ((d.forAll (List.range 8) Dev.vpOff).put pwrB .PWR_DVFS_STAT_VCORE_MV 0).wakeCounts

/-- HBM_SELF_REFRESH (R408): 100 µs without a BAR2 access. -/
def Dev.hbmSelfRefresh (d : Dev) : Dev :=
  if d.clusters.all (fun n => d.clState n == 3) ∧ (List.range 16).all (fun q => !([1, 2].contains (d.get (patB + 0x40 * q) .PAT_STR_STAT_STATE))) = true ∧ d.rasOn = false
  then { d with pow := { d.pow with selfRef := true } } else d

/-- D3HOT (R28, R407): the request takes every cluster that has no work into IDLE and on to its target state, under the conditions of R401 and R402; a
return to D0 asks nothing of a cluster. -/
def Dev.d3hot (d : Dev) (on : Bool) : Dev :=
  let d := { d with hif := { d.hif with d3 := on } }
  if on then d.forAll d.clusters (fun d n => (d.idleEntry n).idleDwell n) else d

/-- The nominal VCORE of an operating point, in mV (R410). -/
def vcoreNominal (p : Nat) : Nat := [850, 780, 720, 680].getD p 650

/-- DVFS_STEP (R411, R407): one point toward the one wanted, with the AVS readback `mv`. When the point falls, FABRIC moves and VCORE after it; when it
rises, VCORE moves first, and FABRIC once the readback is within 10 mV of the voltage of the next point (its nominal value: DEDUCED,
notes/assumptions/110.md). -/
def Dev.dvfsStep (d : Dev) (mv : Nat) : Dev :=
  let now := d.get pwrB .PWR_DVFS_STAT_NOW
  let w := d.dvfsWant
  if d.pow.prog ≠ [] ∨ now = w then d
  else
    let near := decide (vcoreNominal (now - 1) ≤ mv + 10 ∧ mv ≤ vcoreNominal (now - 1) + 10)
    let next := if now < w then now + 1 else if near then now - 1 else now
    ((d.setb pwrB .PWR_DVFS_STAT_BUSY true).put pwrB .PWR_DVFS_STAT_NOW next).put pwrB .PWR_DVFS_STAT_VCORE_MV mv

/-- DVFS_DONE (R411). -/
def Dev.dvfsDone (d : Dev) : Dev :=
  if d.bit pwrB .PWR_DVFS_STAT_BUSY ∧ d.get pwrB .PWR_DVFS_STAT_NOW = d.dvfsWant
  then (d.setb pwrB .PWR_DVFS_STAT_BUSY false).irq .pwr pwrB 2 else d

/-- AVS_TRIM (R410): VCORE moves by 5 mV, up when a monitor reports low margin, within 650 to 900 mV. -/
def Dev.avsTrim (d : Dev) (low : Bool) : Dev :=
  let v := d.get pwrB .PWR_DVFS_STAT_VCORE_MV
  d.put pwrB .PWR_DVFS_STAT_VCORE_MV (if low then (if 895 < v then 900 else v + 5) else if v < 655 then 650 else v - 5)

/-- A partner violation is counted and captured (R412). -/
def Dev.avsCount (d : Dev) (cause frame : Nat) : Dev :=
  let d := (d.satInc pwrB .PWR_AVS_ERR_CNT_COUNT).irq .pwr pwrB 4
  if d.bit pwrB .PWR_AVS_STAT_VALID then d
  else ((d.setb pwrB .PWR_AVS_STAT_VALID true).put pwrB .PWR_AVS_STAT_CAUSE cause).put pwrB .PWR_AVS_STAT_FRAME frame

/-- A frame fails: it is retried up to 3 times; SETTLE fails at once (R412). -/
def Dev.avsBad (d : Dev) (cause frame : Nat) : Dev :=
  let n := d.pow.avsTry + 1
  let d := d.avsCount cause frame
  let d := { d with pow := { d.pow with avsTry := n } }
  if cause = 4 ∨ 4 ≤ n then d.avsFail else d

/-- A frame succeeds with its readback. -/
def Dev.avsGood (d : Dev) (mv : Nat) : Dev :=
  let d := d.put pwrB .PWR_DVFS_STAT_VCORE_MV mv
  { d with pow := { d.pow with avsTry := 0, avsOk := d.pow.avsHold } }

/-- AVS_FRAME (R412): a frame succeeds (cause 0) or is a violation. An injected check fails as CRC. -/
def Dev.avsFrame (d : Dev) (cause frame mv : Nat) : Dev :=
  let r := d.evalInj 0x05 0 0
  let c := if r.2 ∧ cause = 0 then 2 else cause
  if c = 0 then r.1.avsGood mv else r.1.avsBad c frame

/-- AVS_RETRY (R412): during a failure the device tries again; the frame that follows decides. -/
def Dev.avsRetry (d : Dev) : Dev := if d.pow.avsHold then { d with pow := { d.pow with avsTry := 3 } } else d

end Sys2Proof.Machine
end

