-- ==== Sys2Proof/Machine/Thm.lean ====
section
/-! DEFINITION. Temperature sensors and thermal limits (R413 to R418). Zones 0 to 31 are the clusters, 32 HBM_A, 33 HBM_B,
34 PHY, 35 CORE. -/

namespace Sys2Proof.Machine

/-- The zone of a sensor (R413). -/
def sensorZone (t : Nat) : Nat := if t < 32 then t else if t < 36 then 32 else if t < 40 then 33 else if t < 42 then 34 else 35

/-- The sensors of a zone. -/
def zoneSensors (z : Nat) : List Nat := (List.range 48).filter (fun t => sensorZone t == z)

/-- The last reading of a sensor; a broken one is treated as at 0x7FFF (R414). -/
def Dev.temp (d : Dev) (t : Nat) : Int := d.sget (thmB + 4 * t) .THM_TEMP_CENTI_C

/-- A sensor is masked (R414). -/
def Dev.masked (d : Dev) (t : Nat) : Bool := d.bitN thmB .THM_IGNORE_SENSOR t

/-- CRIT in force: values above 0x2CEC act as 0x2CEC (R420). -/
def Dev.critLimit (d : Dev) : Int :=
  let c := d.sget thmB .THM_CRIT_CENTI_C
  if c > 0x2CEC then 0x2CEC else c

/-- HYST in force: 0 acts as 1 (R420). -/
def Dev.hyst (d : Dev) : Int :=
  let h := d.sget thmB .THM_HYST_CENTI_C
  if h = 0 then 1 else h

/-- The clusters that a zone's thermal safe state covers (R416). -/
def Dev.zoneClusters (d : Dev) (z : Nat) : List Nat := if z < 32 then [z] else d.clusters

/-- The status registers and the DVFS ceiling follow the actions in force. -/
def Dev.thmStat (d : Dev) : Dev :=
  let w := d.thm.warn
  let z := (if w.any (· < 32) then 1 else 0) + (if w.contains 32 then 2 else 0) + (if w.contains 33 then 4 else 0)
    + (if w.contains 34 then 8 else 0) + (if w.contains 35 then 16 else 0)
  let d := d.put thmB .THM_STAT_ZONES_WARN z
  let fz := ((List.range 6).map (· + 42) ++ [0, 4, 8, 12, 16, 20, 24, 28]).any (fun t => d.bitN thmB .THM_BROKEN_MAP_SENSOR t)
  let d := d.setb thmB .THM_STAT_COMP_FROZEN fz
  let st := if d.thm.trip then 3 else if d.thm.safe ≠ 0 then 2 else if w ≠ [] then 1 else 0
  (d.put thmB .PG_STAT_STATE st).dvfsCheck

/-- The collector records a CRIT or THERMTRIP detection (R417). -/
def Dev.thmLog (d : Dev) (bit : Nat) (inj : Bool) : Dev :=
  let s := srcWord 0x06 0 bit
  let d := (d.fltBit thmB bit).fltLog s 2 inj false
  if d.flt.active.contains s then d else { d with flt := { d.flt with active := d.flt.active ++ [s] } }

/-- The reaction to CRIT or THERMTRIP (R417): the thermal safe state, with a device-scope shadow (R432). -/
def Dev.thmReact (d : Dev) (cls : List Nat) : Dev :=
  let ctxs := d.ctxTouching (cls.filter (fun n => !bitOf d.thm.safe n))
  (d.thermalSafe cls).openShadow true cls ctxs

/-- THERMAL_READING (R413, R414, R416, R417): a window of a sensor ends with its count and temperature, or finds it broken. What one reading detects is
of one FABRIC cycle (R428): it is logged in the order of that rule, THERM_CRIT, THERMTRIP, SENSOR_BROKEN, before the reactions open their shadows. -/
def Dev.thermalReading (d : Dev) (t cnt : Nat) (c : BitVec 16) (broken : Bool) : Dev :=
  let b := thmB + 4 * t
  let d := d.put b .THM_COUNT_COUNT cnt
  let was := d.bitN thmB .THM_BROKEN_MAP_SENSOR t
  let d := d.put b .THM_TEMP_CENTI_C (if broken then 0x7FFF else c.toNat)
  let d := (d.setb b .THM_TEMP_BROKEN broken).setBitN thmB .THM_BROKEN_MAP_SENSOR t broken
  let d := if ¬ broken ∧ d.sget b .THM_MAX_CENTI_C < c.toInt then d.put b .THM_MAX_CENTI_C c.toNat else d
  let d := if t < 32 ∧ d.present t then d.calDrift t c.toInt broken else d
  let x := d.temp t
  let z := sensorZone t
  let m := d.masked t
  let hot := decide (x > d.sget thmB .THM_WARN_CENTI_C)
  let d := d.setBitN thmB .THM_WARN_MAP_SENSOR t hot
  let d := if hot ∧ ¬ m ∧ ¬ d.thm.warn.contains z then
      { d with thm := { d.thm with warn := d.thm.warn ++ [z] } }.irq .thm thmB 0
    else d
  let inj := d.evalInj 0x06 0 0
  let d := inj.1
  let hotCrit := (decide (x > d.critLimit) && !m) || inj.2
  let hotTrip := decide (x > 11500) && !m
  let crit := hotCrit && !d.thm.crit.contains z
  let trip := hotTrip && !d.thm.trip
  let d := if hotCrit || hotTrip then d.setBitN thmB .THM_CRIT_MAP_SENSOR t true else d
  let d := if crit then (({ d with thm := { d.thm with crit := d.thm.crit ++ [z] } }.irq .thm thmB 1).thmLog 0 inj.2) else d
  let d := if trip then { d with thm := { d.thm with trip := true } }.thmLog 1 false else d
  let d := if broken && !was then ((d.fltBit thmB 2).irq .thm thmB 2).faultSrc 0x06 0 2 else d
  let d := if d.get thmB .THM_BROKEN_MAP_SENSOR = 0 then d.faultEnd 0x06 0 2 else d
  let d := if crit then d.thmReact (d.zoneClusters z) else d
  let d := if trip then d.thmReact d.clusters else d
  d.thmStat

/-- Every sensor of a zone that is not masked reads below a limit less HYST (R416). -/
def Dev.zoneBelow (d : Dev) (z : Nat) (limit : Int) : Bool :=
  (zoneSensors z).all (fun t => d.masked t || decide (d.temp t < limit - d.hyst))

/-- THERMAL_RELEASE (R416, R417): the sensors of a zone have read below limit less HYST for 10 ms; the actions that this ends
end. Clusters that no action covers any more are released: their outputs park, unless a class S reaction holds them. -/
def Dev.thermalRelease (d : Dev) (z : Nat) : Dev :=
  let w := d.zoneBelow z (d.sget thmB .THM_WARN_CENTI_C)
  let c := d.zoneBelow z d.critLimit
  let tr := (List.range 48).all (fun t => d.masked t || decide (d.temp t < 11500 - d.hyst))
  let d := { d with thm := { d.thm with warn := if w then d.thm.warn.filter (· ≠ z) else d.thm.warn, crit := if c then d.thm.crit.filter (· ≠ z) else d.thm.crit, trip := d.thm.trip && !tr } }
  let d := if d.thm.crit = [] then d.faultEnd 0x06 0 0 else d
  let d := if d.thm.trip then d else d.faultEnd 0x06 0 1
  let still := fun (n : Nat) => d.thm.trip || d.thm.crit.any (fun y => y == n || y ≥ 32)
  let free := (List.range 32).filter (fun n => bitOf d.thm.safe n && !still n)
  let d := d.forAll free (fun d n =>
    let d := { d with thm := { d.thm with safe := d.thm.safe - 2 ^ n } }
    if d.bitN fltB .FLT_SAFE_MAP_CLUSTER n then d else d.releaseCluster n)
  let d := if free = [] then d else d.irq .thm thmB 3
  d.thmStat

/-- A write of THM_MAX (R418). -/
def Dev.thmMaxReset (d : Dev) (t : Nat) : Dev := d.put (thmB + 4 * t) .THM_MAX_CENTI_C 0x8000

end Sys2Proof.Machine
end

