-- ==== Sys2Proof/Machine/Strobe.lean ====
section
/-! DEFINITION. The cluster load strobe as it acts (R187 to R190, R230, R376): pins, PMUs, device power, generators, routes, and
the marks of the contexts whose channels it changed. -/

namespace Sys2Proof.Machine

/-- A slice in a CALGAP uses only channels that are unowned or owned by the gap's context (R373). -/
def Dev.calGapOk (d : Dev) (g : Nat) : Bool :=
  match (d.clu (g / 32)).gap with
  | some c => (d.pin g).owner.isNone || (d.pin g).owner == some c
  | none => true

/-- A channel is eligible for a slice of kind `k` (R365): PMU where MODE_NOW is OFF, the pin-node kinds where it is not in service. -/
def Dev.calEligible (d : Dev) (k g : Nat) : Bool :=
  d.calGapOk g && (if k = 1 then d.pmuNow g == 0 else (d.service g).isNone)

/-- A calibration slice of the cluster uses the channel (R365, R376). -/
def Dev.calUses (d : Dev) (g : Nat) : Bool :=
  [1, 3, 4, 5].contains (d.clu (g / 32)).slice && d.calEligible (d.clu (g / 32)).slice g

/-- A strobe acts on one channel: its pin and its PMU; `hit` gathers the contexts whose settings it changed and that did not
fire it. -/
def Dev.stbChannel (acc : Dev × List Nat) (g : Nat) (s : Stb) (routed : Bool) : Dev × List Nat :=
  let a := acc.1.pinStrobe g s
  let b := a.1.pmuStrobe g s
  match b.1.service g with
  | some c =>
    if (a.2 || b.2 || routed) && !s.ctxs.contains c && !acc.2.contains c then (b.1, acc.2 ++ [c]) else (b.1, acc.2)
  | none => (b.1, acc.2)

/-- A strobe acts on one device-power channel. -/
def Dev.stbDps (acc : Dev × List Nat) (k : Nat) (s : Stb) : Dev × List Nat :=
  let r := acc.1.dpsStrobe k s
  match r.1.dpsOwner k with
  | some c =>
    if r.2 && r.1.ctxActive c && !s.ctxs.contains c && !acc.2.contains c then (r.1, acc.2 ++ [c]) else (r.1, acc.2)
  | none => (r.1, acc.2)

/-- The marks of a strobe (R190): one for each context. -/
def Dev.stbMarks (acc : Dev × List Nat) (t n : Nat) : Dev := acc.1.forAll acc.2 (fun d c => d.extStrobe c t n)

/-- Every cluster of a gang is in RUN or IDLE with no self-test slice (R230). -/
def Dev.gangReady (d : Dev) (k : Nat) : Bool :=
  (d.dpsGang k).all (fun j => d.clState (j / 2) ≤ 1 && (d.clu (j / 2)).bst.isNone)

/-- The clusters of a gang that are in NAP are asked to wake for a held strobe, without a latency promise (R230). -/
def Dev.gangWake (d : Dev) (k : Nat) : Dev :=
  d.forAll (d.dpsGang k) (fun d j => if d.clState (j / 2) = 2 then d.wakeReqTo (j / 2) false false 0 else d)

/-- The gangs that the channels of cluster `n` lead are asked to wake. -/
def Dev.gangWakes (d : Dev) (n : Nat) : Dev :=
  d.forAll ([2 * n, 2 * n + 1].filter (fun k => decide (d.dpsLeader k = some k))) Dev.gangWake

/-- Join a strobe to one that is held (R189). -/
def holdStb (h : Option HeldStb) (src : Nat) (ctxs : List Nat) (t : Nat) : HeldStb :=
  match h with
  | some x => { src := Nat.lor x.src src, ctxs := x.ctxs ++ ctxs.filter (fun c => !x.ctxs.contains c), t := t }
  | none => { src := src, ctxs := ctxs, t := t }

/-- A strobe of a cluster on its device-power channels (R228, R230): a channel alone, or the gang that it leads, at one instant
or held. Members take no strobe of their own. -/
def Dev.stbDpsAll (acc : Dev × List Nat) (n : Nat) (s : Stb) (src : Nat) : Dev × List Nat :=
  [2 * n, 2 * n + 1].foldl (fun (acc : Dev × List Nat) k =>
    let d := acc.1
    if (d.clu n).slice = 7 ∧ d.dpsState k ≤ 1 ∧ d.dpsLeader k = none then acc
    else match d.dpsLeader k with
    | none => Dev.stbDps acc k s
    | some l =>
      if d.dpsOrphan k then Dev.stbDps acc k s
      else if l ≠ k then acc
      else if d.gangReady k then (d.dpsGang k).foldl (fun acc j => Dev.stbDps acc j s) acc
      else
        ((d.setDp k { d.dp k with held := some (holdStb (d.dp k).held src s.ctxs s.t) }).gangWake k, acc.2)) acc

/-! ### Strobes of one cycle (R117, R188) -/

/-- The FABRIC cycle of a system time at the operating point in force (R410), counted from system time 0: its phase is not stated (DESIGN CHOICE:
notes/assumptions/87.md). -/
def Dev.fabCycle (d : Dev) (t : Nat) : Nat := t * [1000, 800, 600, 400, 200].getD (d.get pwrB .PWR_DVFS_STAT_NOW) 200 / 1638400

/-- The contexts with a site channel in cluster `n` whose own LDSTB falls on time `t`, where the sequencer is a source of its strobe (R117). -/
def Dev.stbDue (d : Dev) (n t : Nat) : List Nat :=
  if bitOf (d.word (wfgBase n + 0xF00)) 0 then
    (((clPins n).filterMap (fun g => (d.pin g).owner)).eraseDups).filter (fun c =>
      let x := d.cx c
      d.ctxActive c && x.late.isNone && x.ldstb.any (fun o => decide (x.vec ≤ o) && decide (x.s + (o - x.vec) * d.ctxTv c = t)))
  else []

/-- A source that fires now joins the strobe that acted last: the same cycle, and a source that has not fired in it. Another LDSTB of the same cycle is
another context's; a second event of any other source is a strobe of its own. -/
def Dev.stbJoin (d : Dev) (n src : Nat) (ctxs : List Nat) : Option StbCyc :=
  match (d.clu n).cyc with
  | some y =>
    if d.fabCycle y.t = d.fabCycle d.time ∧ (Nat.land y.src src = 0 ∨ (src = 1 ∧ ctxs ≠ [] ∧ ctxs.all (fun c => !y.fired.contains c) = true)) then some y else none
  | none => none

/-- The joined strobe: counted once, with all of its sources (R188). Its settings have been applied. -/
def Dev.stbJoined (d : Dev) (n src : Nat) (ctxs : List Nat) (y : StbCyc) : Dev :=
  let y' := { y with src := Nat.lor y.src src, fired := y.fired ++ ctxs, ctxs := y.ctxs ++ ctxs.filter (fun c => !y.ctxs.contains c) }
  (d.setClu n { d.clu n with cyc := some y' }).put (wfgBase n) .WFG_STB_SRC_SRC y'.src

/-- A strobe of cluster `n` acts at `t` (R187): `src` are its sources, `ctxs` the contexts that fired it; a context whose own LDSTB falls
on `t` counts as one that fired it (R117, R190). The range's blanking timers of SRC 0 see it (R96). -/
def Dev.stbAct (d : Dev) (n src : Nat) (ctxs : List Nat) (t : Nat) : Dev :=
  let b := wfgBase n
  let due := (d.stbDue n t).filter (fun c => !ctxs.contains c)
  let src := if due = [] then src else Nat.lor src 1
  let fired := ctxs
  let ctxs := ctxs ++ due
  let d := d.setClu n { d.clu n with cyc := some { t := t, src := src, fired := fired, ctxs := ctxs } }
  let d := ((d.satInc b .WFG_STB_CNT_COUNT).put b .WFG_STB_SRC_SRC src).put b .WFG_STB_TIME_TIME t
  let s : Stb := { t := t, cl := n, ctxs := ctxs }
  let r := d.routeStrobe n t
  let d := r.1
  let used := (clPins n).filter d.calUses
  let d := if used ≠ [] ∨ (d.clu n).slice = 7 then
      d.setClu n { d.clu n with calHeld := some (holdStb (d.clu n).calHeld src ctxs t) } else d
  let acc := (clPins n).foldl (fun acc g =>
    if used.contains g then acc else Dev.stbChannel acc g s (r.2.contains (g % 32))) (d, ([] : List Nat))
  let acc := Dev.stbDpsAll acc n s src
  let d := Dev.stbMarks acc t n
  (d.forAll [4 * n, 4 * n + 1, 4 * n + 2, 4 * n + 3] (fun d w => d.genStrobe w t ctxs)).blankEvent (n / 4) 0

/-- A cluster holds its strobes: NAP, DORMANT, or a self-test slice (R189). -/
def Dev.stbHolds (d : Dev) (n : Nat) : Bool := decide (d.clState n ≥ 2) || (d.clu n).bst.isSome

/-- The end of a calibration slice: the strobe that was held for its channels acts on them (R376). -/
def Dev.calHeldAct (d : Dev) (n : Nat) : Dev :=
  match (d.clu n).calHeld with
  | some h =>
    let d := d.setClu n { d.clu n with calHeld := none }
    let s : Stb := { t := d.time, cl := n, ctxs := h.ctxs }
    let acc := (clPins n).foldl (fun acc g =>
      if (acc.1.service g).isNone then Dev.stbChannel acc g s false else acc) (d, ([] : List Nat))
    Dev.stbMarks (Dev.stbDpsAll acc n s h.src) d.time n
  | none => d

/-- The strobes held for the gangs that the cluster leads act once every member's cluster is ready (R230); one of a gang that was dissolved is dropped. -/
def Dev.gangRelease (d : Dev) (n : Nat) : Dev :=
  d.forAll [2 * n, 2 * n + 1] (fun d k =>
    match (d.dp k).held with
    | some h =>
      let e := d.setDp k { d.dp k with held := none }
      if d.dpsLeader k ≠ some k then e
      else if d.gangReady k then
        let s : Stb := { t := d.time, cl := n, ctxs := h.ctxs }
        Dev.stbMarks ((d.dpsGang k).foldl (fun acc j => Dev.stbDps acc j s) (e, ([] : List Nat))) d.time n
      else d
    | none => d)

end Sys2Proof.Machine
end

