-- ==== Sys2Proof/Machine/Cal.lean ====
section
/-! DEFINITION. Calibration (15_calibration.md): gaps, slices, staged entries, preparation and activation. -/

namespace Sys2Proof.Machine

/-! ### Staging and activation (R377 to R379) -/

/-- The header of the staged table names another format, cluster or device (R378). -/
def Dev.calForeign (d : Dev) (n : Nat) : Bool :=
  let a := n * calSize
  d.calLE d.calS a 2 != 1 || d.calByte d.calS (a + 2) != n || d.calLE d.calS (a + 8) 8 != d.fuse.dsn % 2 ^ 64

/-- Stages 0 to 31 of CAL_APPLY: the staged table of the cluster is copied into the inactive bank (R378). -/
def Dev.calCopy (d : Dev) (n : Nat) : Dev :=
  { d with calI := tabMerge d.calI d.calS (n * calSize) ((n + 1) * calSize) }

/-- One stage of CAL_APPLY (R146): the inactive bank of local channel `k` is filled, and in stage 0 the cluster-wide entries before the channels' own. -/
def Dev.calStage (d : Dev) (n k : Nat) : Dev :=
  let b := n * calSize
  let t := if k = 0 then tabMerge d.calI d.calS b (b + 0x2000) else d.calI
  let t := tabMerge t d.calS (b + 0x2000 + k * 0x300) (b + 0x2300 + k * 0x300)
  { d with calI := tabMerge t d.calS (b + 0x8000 + k * 0x800) (b + 0x8800 + k * 0x800) }

/-- The banks of a cluster flip (R379). -/
def Dev.calFlip (d : Dev) (n : Nat) : Dev :=
  let b := calcBase n
  let lo := n * calSize
  let hi := (n + 1) * calSize
  let par := d.evalInj 0x26 n 0
  let d := if par.2 then (par.1.fltBit b 0).collect 0x26 n 0 [] false true false else par.1
  let d := { d with calA := tabMerge d.calA d.calI lo hi, calI := tabMerge d.calI d.calA lo hi }
  let d := ((d.put b .CAL_CL_ACT_TIME_TIME d.time).satInc b .CAL_CL_ACT_CNT_COUNT)
  let d := (d.put b .CAL_CL_PEND_PEND (kindBits (d.calDiff n))).setb b .CAL_CL_PEND_PREPARED false
  d.irq .calc b 2

/-- The IDLE activation point (R379): no context owning a resource of the cluster is ARMED, RUNNING or HOLDING. -/
def Dev.calIdle (d : Dev) (n : Nat) : Dev :=
  let b := calcBase n
  if d.bit b .CAL_CL_PEND_PREPARED ∧ d.bitN b .CAL_CL_CTRL_ACT_AT 2 = true ∧ (d.ctxOwnersIn n).any d.ctxOwning = false
  then d.calFlip n else d

/-- The CALGAP activation point of a cluster (R379). -/
def Dev.calGapPoint (d : Dev) (n : Nat) : Dev :=
  let b := calcBase n
  if d.bit b .CAL_CL_PEND_PREPARED ∧ d.bitN b .CAL_CL_CTRL_ACT_AT 1 = true then d.calFlip n else d

/-- The TOUCHDOWN activation point (R379): the flip follows the cluster's wake. -/
def Dev.calTouchdown (d : Dev) (n : Nat) : Dev :=
  let b := calcBase n
  if d.bit b .CAL_CL_PEND_PREPARED ∧ d.bitN b .CAL_CL_CTRL_ACT_AT 0 = true ∧ (d.ctxOwnersIn n).any d.ctxActive = false
  then (if d.clState n ≤ 1 then d.calFlip n else d.setClu n { d.clu n with tdWait := true })
  else d

/-- CAL_APPLY has something to prepare in a cluster that can (R378). -/
def Dev.calDue (d : Dev) (n : Nat) : Bool := d.get (calcBase n) .CAL_CL_PEND_PEND != 0 && decide (d.clState n ≤ 1)

/-- A write through the aperture (R381): reserved bytes ignore it. -/
def Dev.calApWrite (d : Dev) (o : Nat) (bs : List Nat) : Dev :=
  let n := o / calSize
  let d := (bs.zipIdx).foldl (fun d p => if calDefined ((o + p.2) % calSize) then d.setCalByte (o + p.2) (Nat.land p.1 (calBits ((o + p.2) % calSize))) else d) d
  (d.calStaged n).calJudge n

/-- A read through the aperture: `k` bytes of the staged table, or of the active bank (R381). -/
def Dev.calApRead (d : Dev) (o k : Nat) : Nat :=
  d.calLE (if d.bit (calcBase (o / calSize)) .CAL_CL_CTRL_VIEW then d.calA else d.calS) o k

/-- CAL_CL_CRC (R381): the CRC-32 over the region as VIEW shows it. -/
def Dev.calCrc (d : Dev) (n : Nat) : Nat :=
  let t := if d.bit (calcBase n) .CAL_CL_CTRL_VIEW then d.calA else d.calS
  let c := (List.range calSize).foldl (fun c i => crcByte c (d.calByte t (n * calSize + i))) 0xFFFFFFFF
  Nat.xor c 0xFFFFFFFF

/-! ### Gaps (R372) -/

/-- The index gap opens. -/
def Dev.calOpen (d : Dev) : Dev :=
  if d.bit calB .CAL_GAP_OPEN then d
  else ((d.setb calB .CAL_GAP_OPEN true).put calB .PG_STAT_STATE 1).irq .calg calB 0

/-- A slice of a cluster is cut short, with the requests that waited for its end. -/
def Dev.calCut (d : Dev) (n : Nat) : Dev :=
  if (d.clu n).slice = 0 then d else ((d.calAbandon n).calHeldAct n).wfgSliceEnd n

/-- The index gap closes: slices that run in it are abandoned (R372, R376). -/
def Dev.calClose (d : Dev) : Dev :=
  if ¬ d.bit calB .CAL_GAP_OPEN then d
  else
    let d := ((d.setb calB .CAL_GAP_OPEN false).put calB .PG_STAT_STATE 0).irq .calg calB 1
    d.forAll d.clusters (fun d n => if (d.clu n).gap.isNone then d.calCut n else d)

/-- The slices that use the CALGAP op of a context end with it or are cut with it (R373). -/
def Dev.calGapCut (d : Dev) (c : Nat) : Dev :=
  d.forAll d.clusters (fun d n => if (d.clu n).gap = some c then d.calCut n else d)

/-! ### Eligibility (R365, R372 to R374, R416) -/

/-- The longest duration of a kind, in µs (R365). -/
def calMaxUs : Nat → Nat
  | 1 => 12000 | 2 => 50000 | 3 => 30000 | 4 => 40000 | 5 => 8000 | 6 => 10000 | _ => 15000

/-- A context whose CALGAP op a kind may use in cluster `n` (R373). -/
def Dev.calGapFor (d : Dev) (n k : Nat) : Option Nat :=
  if k ≠ 1 ∧ k ≠ 6 then none
  else d.allCtx.find? (fun c =>
    let x := d.cx c
    d.ctxActive c && x.site.any (fun g => g / 32 == n) &&
    (match x.cur with
     | some o => decide (o.kind = .gap) && decide (1 ≤ x.curPos) && decide (calMaxUs k * usFine ≤ (o.count - x.curPos) * 64 * d.ctxTv c)
     | none => false) &&
    (k != 6 || (List.range 4).all (fun i => (d.gen (4 * n + i)).own.isNone || decide ((d.gen (4 * n + i)).own = some c))))

/-- A kind may run in cluster `n` now; answers the context whose CALGAP it uses. -/
def Dev.calMay (d : Dev) (n k : Nat) : Option (Option Nat) :=
  let gap := d.bit calB .CAL_GAP_OPEN
  let tip := gap && d.bit calB .CAL_CFG_TIP_OPEN
  let gens := (List.range 4).all (fun i => !d.genActive (4 * n + i))
  let tdcs := (clPins n).all (fun g => !(d.tdcBusy g && d.tdcMode g == 1)) && !((d.ctxOfCluster n).any d.ctxActive)
  let cg := fun (_ : Unit) => match d.calGapFor n k with | some c => some (some c) | none => none
  if k = 1 then (if gap then some none else cg ())
  else if k = 2 then (if gap && tdcs then some none else none)
  else if k = 6 then (if ¬ gens then none else if gap then some none else cg ())
  else if tip then some none else none

/-- The due or requested kinds of a cluster, lowest first. -/
def Dev.calWant (d : Dev) (n : Nat) : List Nat :=
  [1, 2, 3, 4, 5, 6, 7].filter (fun k =>
    d.bitN (calcBase n) .CAL_CL_DUE_DUE (k - 1) || d.bitN (calcBase n) .CAL_CL_REQ_KIND (k - 1))

/-- No slice starts in the cluster: one runs there, it is forced or absent, or a zone's WARN forbids it (R374, R416, R443). -/
def Dev.sliceBarred (d : Dev) (n : Nat) : Bool :=
  !d.present n || (d.clu n).slice != 0 || (d.clu n).bst.isSome || d.forced n || d.thm.warn.contains n
    || d.thm.warn.contains 34 || d.thm.warn.contains 35 || d.clkState != 2

/-- The lowest-coded eligible kind of a cluster. -/
def Dev.calNext (d : Dev) (n : Nat) : Option (Nat × Option Nat) :=
  if d.sliceBarred n then none
  else (d.calWant n).findSome? (fun k => (d.calMay n k).map (fun g => (k, g)))

/-- Places taken: slices that run, and wakes made for one. -/
def Dev.calPlaces (d : Dev) : Nat :=
  (d.clusters.filter (fun n => (d.clu n).slice != 0)).length +
    ((d.pow.queue ++ d.pow.prog).filter (fun w => w.low)).length

/-- MAX_PAR in force (R382). -/
def Dev.calMaxPar (d : Dev) : Nat := Nat.min 32 (Nat.max 1 (d.get calB .CAL_CFG_MAX_PAR))

/-- A slice of kind `k` starts. -/
def Dev.calBegin (d : Dev) (n k : Nat) (gap : Option Nat) : Dev :=
  let b := calcBase n
  let d := d.setClu n { d.clu n with slice := k, gap := gap }
  let d := (d.put b .CAL_CL_STAT_RUNNING k).put b .PG_STAT_STATE 1
  let d := (d.setBitN calB .CAL_RUN_MAP_CLUSTER n true).satInc calB .CAL_SLICE_CNT_COUNT
  let d := d.satInc (b + 0x10 * k) .CAL_K_RUNS_COUNT
  if k = 2 then d.tdcCdBegin n else d

/-! ### What a slice delivers (R365, R369, R375) -/

/-- Does a converter entry at a region offset lie in its window: gain within ±2 %, offset within ±0.5 % of the span (R375). -/
def goPlausible (g : Nat) (o : Int) : Bool :=
  decide (98 * 2 ^ 30 ≤ 100 * g ∧ 100 * g ≤ 102 * 2 ^ 30) && decide (1000 * o.natAbs ≤ 5 * 2 ^ 28)

/-- The units of a kind that a byte offset belongs to: the bit it has in CAL_CL_SKIP, where the kind runs by channel. -/
def calUnit (k o : Nat) : Nat :=
  if k = 2 then (o - 0x8000) / 0x800
  else if k = 6 then (o - 0x100) / 0x80
  else if k = 7 then (o - 0x300) / 0x40
  else (o - 0x2000) / 0x300

/-- The first offset of the entry that holds an offset: 8 bytes for a converter entry, else the unit's own start. -/
def calEntry (k o : Nat) : Nat :=
  if k = 1 ∨ k = 3 then (let u := (o - 0x2000) / 0x300 * 0x300 + 0x2000; let r := o - u; u + (if k = 1 then 0xA0 + (r - 0xA0) / 8 * 8 else r / 8 * 8))
  else if k = 7 then (let u := (o - 0x300) / 0x40 * 0x40 + 0x300; u + (o - u) / 8 * 8)
  else if k = 6 then (let u := (o - 0x100) / 0x80 * 0x80 + 0x100; if o - u < 4 then u else u + 4 + (o - u - 4) / 2 * 2)
  else if k = 5 then (let u := (o - 0x2000) / 0x300 * 0x300 + 0x2000; u + 0x110 + (o - u - 0x110) / 4 * 4)
  else o

/-- The new value of an entry of a table is plausible (R250, R370, R375). -/
def Dev.calPlausible (d : Dev) (t : Tab Byte) (n k e : Nat) : Bool :=
  let a := n * calSize + e
  if k = 1 ∨ k = 3 ∨ k = 7 then goPlausible (d.calLE t a 4) (signed32 (d.calLE t (a + 4) 4))
  else if k = 6 then
    if (e - 0x100) % 0x80 = 0 then decide (90 * 2 ^ 30 ≤ 100 * d.calLE t a 4 ∧ 100 * d.calLE t a 4 ≤ 110 * 2 ^ 30)
    else decide (23198 ≤ d.calLE t a 2 ∧ d.calLE t a 2 ≤ 46286)
  else if k = 5 then
    let r := (e - 0x2000) % 0x300
    let v := signed32 (d.calLE t a 4)
    if r < 0x130 then decide (v ≤ 16384) else if r = 0x138 then decide (262 < v ∧ v ≤ 8192) else true
  else true

/-- The entries a slice delivers for its kind, written into the staged table entry by entry where they are plausible and
their unit is not skipped, DESKEW only channel by channel (R370); and the units that had an entry refused. -/
def Dev.calWriteEntries (d : Dev) (n k skip : Nat) (es : List (Nat × Nat)) : Dev × Nat :=
  let es := es.filter (fun e => calKind e.1 == some k && !bitOf skip (calUnit k e.1))
  let t := es.foldl (fun t e => Tab.set (calDflt d.fuse.dsn) t (n * calSize + e.1) (BitVec.ofNat 8 e.2)) d.calS
  let bad := es.filter (fun e => !d.calPlausible t n k (calEntry k e.1))
  let badU := bad.foldl (fun a e => setBits a (calUnit k e.1) 1 1) 0
  let ok := es.filter (fun e => if k = 5 then !bitOf badU (calUnit k e.1) else d.calPlausible t n k (calEntry k e.1))
  (ok.foldl (fun d e => d.setCalByte (n * calSize + e.1) e.2) d, badU)

/-- The number of units of a kind in a cluster. -/
def calUnits (k : Nat) : Nat := if k = 6 then 4 else if k = 7 then 2 else 32

/-- The kind's bit in CH_VALID of each channel written, or in the header VALID (R375). -/
def Dev.calMarkValid (d : Dev) (n k skip : Nat) : Dev :=
  let set := fun (d : Dev) (a i : Nat) => d.setCalByte a (setBits (d.calByte d.calS a) i 1 1)
  if k = 6 ∨ k = 7 then set d (n * calSize + 0x20) k
  else d.forAll (List.range 32) (fun d i => if bitOf skip i then d else set d (n * calSize + 0x2000 + i * 0x300 + 0x140) k)

/-- Bit i of the units for which a condition holds. -/
def unitBits (m : Nat) (p : Nat → Bool) : Nat := (List.range m).foldl (fun a i => if p i then a + 2 ^ i else a) 0

/-- The units a kind may not use now (R365, R373): channels that are not eligible, and for DPS the channels that are neither OFF nor PARKED
or are ganged. They are no skipped units. -/
def Dev.calBarUnits (d : Dev) (n k : Nat) : Nat :=
  if k = 2 ∨ k = 6 then 0
  else if k = 7 then unitBits 2 (fun i => decide (d.dpsState (2 * n + i) > 1) || (d.dpsLeader (2 * n + i)).isSome)
  else unitBits 32 (fun i => !d.calEligible k (32 * n + i))

/-- The end of a slice with its result, cause and skipped units. -/
def Dev.calFinish (d : Dev) (n k result cause skip : Nat) : Dev :=
  let b := calcBase n
  let d := d.setClu n { d.clu n with slice := 0, gap := none, calEnd := none }
  let d := ((d.put b .CAL_CL_STAT_RESULT result).put b .CAL_CL_STAT_CAUSE cause).put b .CAL_CL_STAT_LAST k
  let d := ((d.put b .CAL_CL_STAT_RUNNING 0).put b .CAL_CL_SKIP_CH skip).put b .PG_STAT_STATE 0
  let d := d.setBitN calB .CAL_RUN_MAP_CLUSTER n false
  let d := (d.setBitN b .CAL_CL_REQ_KIND (k - 1) false).setBitN b .CAL_CL_DUE_DUE (k - 1) false
  let d := (d.calDueMap n).irq .calc b 0
  let d := if result = 1 then d else d.irq .calc b 1
  (d.calHeldAct n).wfgSliceEnd n

/-! ### Meanings -/

/-- INDEX_RELEASE (R372). -/
def Dev.indexRelease (d : Dev) : Dev := if d.bit calB .CAL_CFG_INDEX_AUTO then d.calOpen else d

/-- CAL_AGE_EXPIRY (R371): the age of a kind's last run reaches a value. -/
def Dev.calAgeExpiry (d : Dev) (n k age : Nat) : Dev :=
  if k = 0 ∨ ¬ d.present n then d
  else (d.put (calcBase n + 0x10 * k) .CAL_K_AGE_SECONDS age).calAged n k age

/-- CAL_SLICE_START (R374): the lowest-coded eligible due kind of the lowest-numbered eligible cluster; a cluster in NAP or
DORMANT is woken for it, without a promise. -/
def Dev.calSliceStart (d : Dev) : Dev :=
  if d.calMaxPar ≤ d.calPlaces then d
  else
    let cand := d.clusters.findSome? (fun n =>
      if d.pow.queue.any (fun w => w.cl == n) || d.pow.prog.any (fun w => w.cl == n) then none
      else (d.calNext n).map (fun k => (n, k.1, k.2)))
    match cand with
    | none => d
    | some (n, k, gap) => if 2 ≤ d.clState n then d.wakeReqTo n false true 0 else d.calBegin n k gap

/-- TDC_CD_SLICE (R249, R374): hits of the code-density slice that runs in the cluster; where none runs, the gap scheduler starts one if it is the
kind that the cluster runs next and a place is free. -/
def Dev.tdcCdSlice (d : Dev) (n : Nat) (hits : List (Nat × Nat)) : Dev :=
  if d.get (tdccBase n) .PG_STAT_STATE = 2 then d.tdcCdHits n hits
  else match d.calNext n with
    | some (2, gap) => if d.calPlaces < d.calMaxPar ∧ d.clState n ≤ 1 then (d.calBegin n 2 gap).tdcCdHits n hits else d
    | _ => d

/-- A failed run (R371, R375): its temperature and time are what its triggers are judged against. -/
def Dev.calFailed (d : Dev) (n k cause : Nat) (temp : BitVec 16) : Dev :=
  let x := d.clu n
  (d.setClu n { x with failT := Tab.insert (x.failT.filter (fun e => e.1 ≠ k)) k temp.toNat, failAt := Tab.insert (x.failAt.filter (fun e => e.1 ≠ k)) k d.time }).calFinish n k 3 cause 0

/-- The slice of a cluster ends with what it found (R369, R370, R375). -/
def Dev.calWrite (d : Dev) (n : Nat) (o : CalOut) : Dev :=
  let k := (d.clu n).slice
  let b := calcBase n
  if k = 0 then d
  else
    let d := if k = 2 then d.cdDone n (d.get (tdccBase n) .TDC_RND_RATE_KHZ) else d
    let d := d.setb calB .CAL_REF_STAT_PRESENT o.vrefx
    let d := if o.vrefx then d.put calB .CAL_REF_STAT_DEV o.dev.toNat else d
    let d := if o.refBad then (d.fltBit calB 0).faultSrc 0x09 0 0 else d
    if o.vrefx ∧ o.dev.toInt.natAbs > 500 then
      ((d.setb calB .CAL_REF_STAT_MISMATCH true).irq .calg calB 2).calFailed n k 4 o.temp
    else
      let bar := d.calBarUnits n k
      let own := if k = 2 then unitBits 32 (fun i => d.cdBad (32 * n + i)) else Nat.xor (Nat.lor (o.skip.toNat % 2 ^ calUnits k) bar) bar
      let w := if k = 2 then (d, 0) else d.calWriteEntries n k (Nat.lor bar own) (o.entries.map (fun e => (e.1.val, e.2.toNat)))
      let d := w.1
      let skip := Nat.lor own w.2
      let cause := if skip = 0 then 0 else if w.2 ≠ 0 then 1 else if k = 2 then 2 else o.cause.toNat
      if Nat.lor bar skip = 2 ^ calUnits k - 1 then d.calFailed n k cause o.temp
      else
        let d := d.calMarkValid n k (Nat.lor bar skip)
        let d := d.setCalLE (n * calSize + 0x10 + 2 * k) o.temp.toNat 2
        let d := (d.put (b + 0x10 * k) .CAL_K_TEMP_CENTI_C o.temp.toNat).put (b + 0x10 * k) .CAL_K_AGE_SECONDS 0
        let x := d.clu n
        let d := d.setClu n { x with failT := x.failT.filter (fun e => e.1 ≠ k), failAt := x.failAt.filter (fun e => e.1 ≠ k) }
        (d.calFinish n k (if skip = 0 then 1 else 2) cause skip).calStaged n

/-- CAL_SLICE_END (R375, R376): the slice ends; while CAL_APPLY prepares, its write waits for the end of the preparation. -/
def Dev.calSliceEnd (d : Dev) (n : Nat) (o : CalOut) : Dev :=
  if (d.clu n).slice ≠ 0 ∧ d.calPreparing n = true then d.setClu n { d.clu n with calEnd := some o } else d.calWrite n o

/-! ### The end of a preparation (R146, R376, R378, R379) -/

/-- The inactive bank holds the whole staged table. -/
def Dev.calCopied (d : Dev) (n : Nat) : Bool :=
  d.calI.filter (fun e => e.1 / calSize == n) == d.calS.filter (fun e => e.1 / calSize == n)

/-- The final commit of CAL_APPLY: PREPARED, and the flip where the IDLE point holds. A foreign header commits nothing; a staged table that has changed
since its copy is prepared again, and a slice's end that waited writes now. -/
def Dev.calFinal (d : Dev) (n : Nat) : Dev :=
  let b := calcBase n
  let foreign := d.calForeign n
  let d := if ¬ d.calDue n then d
    else if foreign then (d.put b .CAL_CL_STAT_CAUSE 5).irq .calc b 3
    else if d.calCopied n then (d.setb b .CAL_CL_PEND_PREPARED true).calIdle n
    else d
  match (d.clu n).calEnd with
  | some o => (d.calWrite n o).calRequest n
  | none => if foreign then d else d.calRequest n

/-- CAL_APPLY as one run: its stages and its final commit. -/
def Dev.calApply (d : Dev) (n : Nat) : Dev := if d.calDue n then (d.calCopy n).calFinal n else d

end Sys2Proof.Machine
end

