-- ==== Sys2Proof/Machine/Res.lean ====
section
/-! DEFINITION. Result delivery (12_result_delivery.md): rings, mailboxes, their interrupts, routing writes, backpressure. -/

namespace Sys2Proof.Machine

/-- LOG2 of a ring as it acts (R321). -/
def Dev.ringLog (d : Dev) (k : Nat) : Nat := Nat.min 20 (Nat.max 4 (d.get (ringBase k) .RES_RING_CFG_LOG2))

/-- PROD − CONS, modulo 2^32 (R311). -/
def Dev.ringUsed (d : Dev) (k : Nat) : Nat :=
  (d.get (ringBase k) .RES_RING_PROD_PROD + 2 ^ 32 - d.get (ringBase k) .RES_RING_CONS_CONS) % 2 ^ 32

/-- A ring takes a record: it is enabled and not full (R311). -/
def Dev.ringOpen (d : Dev) (k : Nat) : Bool := d.bit (ringBase k) .RES_RING_CFG_EN && decide (d.ringUsed k < 2 ^ d.ringLog k)

/-- RES_RING_STAT.FULL follows the counters. -/
def Dev.ringFull (d : Dev) (k : Nat) : Dev := d.setb (ringBase k) .RES_RING_STAT_FULL (d.ringUsed k == 2 ^ d.ringLog k)

/-- The interrupt register and bit of a ring (R313). -/
def ringIrqFld (k : Nat) : Fld := if k < 32 then .RES_RING_IRQ0_RING else .RES_RING_IRQ1_RING

/-- A ring's interrupt bit sets; a 0 to 1 transition signals on vector 40 + k (R313). -/
def Dev.ringIrq (d : Dev) (k : Nat) : Dev :=
  if d.bitN resB (ringIrqFld k) (k % 32) then d else (d.setBitN resB (ringIrqFld k) (k % 32) true).msix (40 + k)

/-- May an undelivered record `e` that came earlier hold back record `r` (R308): one of its own lane, or of an earlier run. -/
def BRec.blocks (e r : BRec) : Bool := e.ctx == r.ctx && (e.annot == r.annot || decide (e.run ≠ r.run))

/-- No record that still waits in a mailbox, or earlier in the cluster buffers, holds back a record (R308). -/
def Dev.recFree (d : Dev) (before : List BRec) (r : BRec) : Bool :=
  !(before.any (fun e => e.blocks r)) &&
    (List.range 8).all (fun m => decide (r.dest = .mb m) || !((d.mb m).any (fun e => e.blocks r)))

/-- The first record of a list that may be delivered where `ok` allows its destination: the records before it, itself, the rest. -/
def Dev.pickRec (d : Dev) (ok : BRec → Bool) : List BRec → List BRec → Option (List BRec × BRec × List BRec)
  | _, [] => none
  | before, r :: rs =>
    if ok r && d.recFree before r then some (before, r, rs) else d.pickRec ok (before ++ [r]) rs

/-- The device may write host memory: the link is up and the function is not in D3hot. -/
def Dev.dmaUp (d : Dev) : Bool := d.bit hifB .HIF_LINK_UP && !d.hif.d3

/-- One more record of a ring is not signalled (R313). -/
def Dev.ringCount (d : Dev) (k : Nat) : Dev :=
  let n := Tab.get (fun _ => 0) d.coal k
  let d := { d with coal := Tab.set (fun _ => 0) d.coal k (n + 1) }
  if d.bit (ringBase k) .RES_RING_CFG_IRQ_EN ∧ d.get (ringBase k) .RES_RING_CFG_COAL ≤ n + 1 then d.ringIrq k else d

/-- PROD of a ring has changed: it is written back (R312). -/
def Dev.ringBack (d : Dev) (k : Nat) : Dev :=
  if d.bit resB .RES_WB_CTRL_EN then d.emit (.hostWr (d.get resB .RES_WB_BASE_BASE * 4 + 4 * k) [BitVec.ofNat 32 (d.get (ringBase k) .RES_RING_PROD_PROD)]) else d

/-- A record is written to a ring, PROD advances, and PROD is written back (R311, R312). -/
def Dev.ringPut (d : Dev) (k : Nat) (words : List Word) : Dev :=
  let b := ringBase k
  let p := d.get b .RES_RING_PROD_PROD
  let d := d.emit (.hostWr (d.get b .RES_RING_BASE_BASE * 32 + 32 * (p % 2 ^ d.ringLog k)) words)
  let d := d.put b .RES_RING_PROD_PROD ((p + 1) % 2 ^ 32)
  (((d.satInc b .RES_RING_CNT_COUNT).satInc resB .RES_REC_CNT_COUNT).ringFull k).ringBack k

/-- The output buffer's check on a record as it leaves (R319). -/
def Dev.bufCheck (d : Dev) (c : Nat) : Dev :=
  let par := d.evalInj 0x0C 0 0
  if par.2 then (par.1.fltBit resB 0).faultEvt 0x0C 0 0 [c] true else par.1

/-- RING_WRITE (R311 to R313): the next deliverable record of a cluster's buffer is written to its ring. -/
def Dev.ringWrite (d : Dev) (n : Nat) : Dev :=
  let ok := fun (r : BRec) => r.cl == n && (match r.dest with | .ring k => d.ringOpen k | .mb _ => false)
  if ¬ d.dmaUp then d
  else match d.pickRec ok [] d.bufs with
  | some (before, r, rest) =>
    match r.dest with
    | .ring k => ((({ d with bufs := before ++ rest }.bufCheck r.ctx).ringPut k r.words).ringCount k)
    | .mb _ => d
  | none => d

/-- COAL_TIMER (R313): RES_COAL_TIME has passed since the first record that is not signalled. -/
def Dev.coalTimer (d : Dev) (k : Nat) : Dev :=
  if Tab.get (fun _ => 0) d.coal k ≠ 0 ∧ d.bit (ringBase k) .RES_RING_CFG_IRQ_EN = true then d.ringIrq k else d

/-- RES_MB_STAT.LEVEL follows the FIFO. -/
def Dev.mbLevel (d : Dev) (m : Nat) : Dev := d.put (mbBase m) .RES_MB_STAT_LEVEL (d.mb m).length

/-- MAILBOX_PUSH (R314): the next deliverable mailbox record of a cluster's buffer enters its FIFO. -/
def Dev.mailboxPush (d : Dev) (n : Nat) : Dev :=
  let ok := fun (r : BRec) => r.cl == n && (match r.dest with | .mb m => decide ((d.mb m).length < 64) | .ring _ => false)
  match d.pickRec ok [] d.bufs with
  | some (before, r, rest) =>
    match r.dest with
    | .mb m =>
      let d := { d with bufs := before ++ rest }.bufCheck r.ctx
      let was := d.mb m
      let d := (d.setMb m (was ++ [r])).mbLevel m
      if was = [] ∧ d.bit (mbBase m) .RES_MB_CFG_IRQ_EN = true then d.irq .res resB (8 + m) else d
    | .ring _ => d
  | none => d

/-- The value of RES_MB_POP or RES_MB_PEEK for a record and a level (R314). -/
def mbValue (seq level : Nat) : Nat := 2 ^ 63 + level * 2 ^ 48 + seq

/-- A pop of a mailbox (R314): the state after it and the 64-bit value. An empty mailbox goes on to show the SEQ of this record, or none where the
record is of a run before the context's last. -/
def Dev.mbPop (d : Dev) (m : Nat) : Dev × Nat :=
  let b := mbBase m
  match d.mb m with
  | [] => (d, d.get b .RES_MB_POP_SEQ)
  | r :: rs =>
    let seq := (r.words.getD 0 0).toNat
    let d := (d.setMb m rs).mbLevel m
    let d := (r.words.zipIdx).foldl (fun d p => d.put (b + 4 * p.2) .RES_MB_REC_DATA p.1.toNat) d
    let d := ((d.put b .RES_MB_POP_SEQ (if r.run = (d.cx r.ctx).run then seq else 0xFFFFFFFF)).satInc b .RES_MB_POPPED_COUNT).satInc resB .RES_REC_CNT_COUNT
    (d, mbValue seq rs.length)

/-- The value of RES_MB_PEEK (R315). -/
def Dev.mbPeek (d : Dev) (m : Nat) : Nat :=
  match d.mb m with
  | [] => d.get (mbBase m) .RES_MB_POP_SEQ
  | r :: rs => mbValue (r.words.getD 0 0).toNat (rs.length + 1)

/-- RES_MB_HEAD word `w` (R315). -/
def Dev.mbHead (d : Dev) (m w : Nat) : Nat :=
  match d.mb m with
  | [] => 0
  | r :: _ => (r.words.getD w 0).toNat

/-- A new run of a context: no record of it has been popped (R314). -/
def Dev.mbRunStart (d : Dev) (c : Nat) : Dev :=
  match d.mbOf c with
  | some m => d.put (mbBase m) .RES_MB_POP_SEQ 0xFFFFFFFF
  | none => d

/-- Records that match are discarded, from the buffers and the mailbox FIFOs (R309, R318, R470). -/
def Dev.dropRecs (d : Dev) (p : BRec → Bool) (count : Bool) : Dev :=
  let k := (d.bufs.filter p).length + (List.range 8).foldl (fun a m => a + ((d.mb m).filter p).length) 0
  let d := { d with bufs := d.bufs.filter (fun r => !p r) }
  let d := d.forAll (List.range 8) (fun d m => (d.setMb m ((d.mb m).filter (fun r => !p r))).mbLevel m)
  if count then d.discard k else d

/-! ### Register writes -/

/-- RES_MB_CFG (R309, R310): refused where it would change the destination of an owning context. Answers whether it was. -/
def Dev.mbCfgWrite (d : Dev) (m v : Nat) : Dev × Bool :=
  let a := mbBase m + 0
  let old := d.get a .RES_MB_CFG_CTX
  let new := v % 1024
  let newEn := bitOf v 31
  let st := ((d.setb a .RES_MB_CFG_EN newEn).setb a .RES_MB_CFG_IRQ_EN (bitOf v 30)).put a .RES_MB_CFG_CTX new
  if [old, new].any (fun c => d.ctxOwning c && decide (d.destOf c false ≠ st.destOf c false)) then (d, true)
  else
    let d := if old = new then st else st.put a .RES_MB_POP_SEQ 0xFFFFFFFF
    (if newEn then d else d.dropRecs (fun r => decide (r.dest = .mb m)) true, false)

/-- RES_ROUTE word `j` (R310): a byte that would change the destination of an owning context stays. Answers whether one did. -/
def Dev.routeWrite (d : Dev) (j v : Nat) : Dev × Bool :=
  let a := resB + 0xC00 + 4 * j
  let old := d.word a
  let r := (List.range 4).foldl (fun (acc : Nat × Bool) i =>
    let c := 4 * j + i
    let ob := old / 256 ^ i % 256
    let nb := v / 256 ^ i % 256 % 64 + v / 256 ^ i % 256 / 128 * 128
    if d.ctxOwning c = true ∧ d.destOf c false ≠ (d.setWord a (nb * 256 ^ i)).destOf c false then (acc.1 + ob * 256 ^ i, true) else (acc.1 + nb * 256 ^ i, acc.2)) (0, false)
  (d.setWord a r.1, r.2)

/-- RES_RING_CONS (R311). -/
def Dev.consWrite (d : Dev) (k v : Nat) : Dev :=
  let b := ringBase k
  if (d.get b .RES_RING_PROD_PROD + 2 ^ 32 - v) % 2 ^ 32 ≤ 2 ^ d.ringLog k then (d.put b .RES_RING_CONS_CONS v).ringFull k
  else (d.setb b .RES_RING_STAT_BAD_CONS true).irq .res resB 2

/-- RES_RING_CFG (R311): LOG2 stays while EN = 1; EN going to 1 clears PROD and CONS; the ring's bit sets where its condition
holds with the new IRQ_EN and COAL (R313). -/
def Dev.ringCfgWrite (d : Dev) (k v : Nat) : Dev :=
  let b := ringBase k
  let en := d.bit b .RES_RING_CFG_EN
  let d := if en then d else d.put b .RES_RING_CFG_LOG2 (v % 32)
  let d := ((d.put b .RES_RING_CFG_COAL (v / 2 ^ 24 % 256)).setb b .RES_RING_CFG_IRQ_EN (bitOf v 12)).setb b .RES_RING_CFG_LANE (bitOf v 9)
  let d := d.setb b .RES_RING_CFG_EN (bitOf v 8)
  let d := if bitOf v 8 ∧ ¬ en then
      let p := d.get b .RES_RING_PROD_PROD
      let d := ((d.put b .RES_RING_PROD_PROD 0).put b .RES_RING_CONS_CONS 0).ringFull k
      if p ≠ 0 ∧ d.dmaUp = true then d.ringBack k else d
    else d
  if bitOf v 12 ∧ Nat.max 1 (v / 2 ^ 24 % 256) ≤ Tab.get (fun _ => 0) d.coal k then d.ringIrq k else d

/-- The interrupt bits of rings were cleared: their counts start again (R313). -/
def Dev.coalClear (d : Dev) (hi : Bool) (v : Nat) : Dev :=
  d.forAll (List.range 32) (fun d i =>
    if bitOf v i then { d with coal := Tab.set (fun _ => 0) d.coal (i + (if hi then 32 else 0)) 0 } else d)

/-! ### Backpressure (R316) -/

/-- A latch of a context judges backpressure. -/
def Dev.bpJudge (d : Dev) (c : Nat) : Bool :=
  let q := d.undelivered c
  let high := Nat.max 1 (d.get resB .RES_BP_CFG_HIGH)
  let full := decide (6144 ≤ d.bufLevel (c / 32))
  if (d.cx c).bpHold then !(decide (q < d.get resB .RES_BP_CFG_LOW) && !full) else decide (high ≤ q) || full

end Sys2Proof.Machine
end

