-- ==== Sys2Proof/Machine/PatStore.lean ====
section
/-! DEFINITION. Pattern store, vector caches and streams (06_pattern_memory_streaming.md): BAR2, ECC, quotas, residency, the
order of fills, and the streaming refill. -/

namespace Sys2Proof.Machine

/-! ### BAR2 (R157 to R161) -/

/-- The PCI Express side answers accesses: served, link up, clocks NORMAL. -/
def Dev.pcieOk (d : Dev) : Bool := d.hif.served && d.bit hifB .HIF_LINK_UP && d.clkState == 2

/-- PAT_STORE.READY. -/
def Dev.storeReady (d : Dev) : Bool := d.bit patB .PAT_STORE_READY

/-- Capture of a BAR2 error (R158). -/
def Dev.b2Err (d : Dev) (write : Bool) (a : Nat) : Dev :=
  if d.bit patB .PAT_B2_ERR_VALID then d
  else (d.setWord (patB + 0x4C) (2 ^ 31 + (if write then 2 ^ 30 else 0) + a / 64 % 2 ^ 30)).irq .patg patB 17

/-- An uncorrectable error of the store at an address (R160). -/
def Dev.patUe (d : Dev) (a : Nat) (inj : Bool) : Dev :=
  let first := d.get patB .PAT_ECC_UE_CNT_COUNT == 0
  let d := d.satInc patB .PAT_ECC_UE_CNT_COUNT
  let d := if first then d.put patB .PAT_ECC_UE_ADDR_ADDR a else d
  ((d.fltBit patB 0).irq .patg patB 16).faultEvt 0x0B 0 0 [] inj

/-- A BAR2 access leaves self-refresh (R408). -/
def Dev.hbmWake (d : Dev) : Dev := { d with pow := { d.pow with selfRef := false } }

/-- The bytes a BAR2 read returns (R158, R161). The 64-bit word `w` that cannot be corrected is returned as read: what that is, is stated nowhere and `v` is
free (R160). -/
def bar2Bytes (m : Tab Byte) (ready : Bool) (w : Option (Nat × Nat)) (a : Nat) : Nat → Nat
  | 0 => 0
  | n + 1 =>
    let b := if ready && decide (a < storeBytes) then (match w with | some (k, v) => if a / 8 = k then v / 256 ^ (a % 8) % 256 else storeByte m a | none => storeByte m a) else 0
    b + 256 * bar2Bytes m ready w (a + 1) n

/-- A read of the store by BAR2 that starts in its populated part (R160): the bytes count, and what the ECC finds is handled. Answers the word that is free. -/
def Dev.bar2Ecc (d : Dev) (a : Nat) (r : B2Read) : Dev × Option (Nat × Nat) :=
  let i := d.evalInj 0x0B 0 0
  let d := i.1.satAdd patB .PAT_RD_BYTES_BYTES (Nat.min r.len.val (storeBytes - a))
  let d := if i.2 then d.patUe a true else d
  match r.ecc with
  | .clean => (d, none)
  | .corrected => (d.satInc patB .PAT_ECC_CE_CNT_COUNT, none)
  | .lost o =>
    if o.val < r.len.val ∧ a + o.val < storeBytes then
      let k := d.takeFree (2 ^ 64)
      (k.1.patUe (a + o.val) false, some ((a + o.val) / 8, k.2))
    else (d, none)

/-- BAR2_READ. -/
def Dev.bar2Read (d : Dev) (m : Tab Byte) (a : Nat) (r : B2Read) : Dev :=
  if ¬ d.pcieOk then d
  else
    let ready := d.storeReady
    let d := d.hbmWake
    let d := if ¬ ready ∨ storeBytes ≤ a ∨ storeBytes < a + r.len.val then d.b2Err false a else d
    let e := if ready = true ∧ a < storeBytes ∧ r.len.val ≠ 0 then d.bar2Ecc a r else (d, none)
    e.1.emit (.read .pcie (bar2Bytes m ready e.2 a r.len.val))

/-- BAR2_WRITE. -/
def bar2Write (s : State) (a : Nat) (bs : List Byte) : State :=
  let d := s.d
  if ¬ d.pcieOk then s
  else
    let d := d.hbmWake
    if ¬ d.storeReady then { s with d := d.b2Err true a }
    else
      let d := if storeBytes ≤ a ∨ storeBytes < a + bs.length then d.b2Err true a else d
      { s with store := storeWrite s.store a bs, d := d.satAdd patB .PAT_WR_BYTES_BYTES (Nat.min bs.length (storeBytes - a)) }

/-- PATTERN_STORE_READY (R161): the clear after a cold reset completes. -/
def patternStoreReady (s : State) : State :=
  if s.d.storeReady then s
  else { s with store := [], d := ((s.d.setb patB .PAT_STORE_READY true).put patB .PAT_STORE_STACKS 3).put patB .PG_STAT_STATE 1 }

/-- HBM_FAIL (R178): loss of PHY training on HBM_A (`false`) or HBM_B. -/
def Dev.hbmFail (d : Dev) (b : Bool) : Dev :=
  let i := if b then 1 else 0
  ((d.put patB .PAT_STORE_STACKS (setBits (d.get patB .PAT_STORE_STACKS) i 1 0)).fltBit patB (1 + i)).faultSrc 0x0B 0 (1 + i)

/-! ### Streams and windows (R173, R174) -/

/-- Registers of stream `q`. -/
def strBase (q : Nat) : Nat := patB + q * 0x40

/-- PAT_STR_STAT.STATE (R177): 0 OFF, 1 ACTIVE, 2 FULL, 3 IDLE, 4 ENDED, 5 ERROR. -/
def Dev.strState (d : Dev) (q : Nat) : Nat := d.get (strBase q) .PAT_STR_STAT_STATE

/-- The stream's window is in force: it passed its checks and has not ended. -/
def Dev.strLive (d : Dev) (q : Nat) : Bool :=
  let st := d.strState q
  d.bit (strBase q) .PAT_STR_CTRL_EN && (st == 1 || st == 2 || st == 3 || (st == 5 && decide (3 ≤ d.get (strBase q) .PAT_STR_STAT_ERR)))

/-- The stream whose window holds granule `g` of context `c`. -/
def Dev.winOf (d : Dev) (c g : Nat) : Option Nat :=
  (List.range 16).find? (fun q => d.strLive q && d.get (strBase q) .PAT_STR_CTRL_CTX == c
    && decide (d.get (strBase q) .PAT_STR_GLO_GLO ≤ g)
    && decide (g < d.get (strBase q) .PAT_STR_GLO_GLO + d.get (strBase q) .PAT_STR_SLOTS_N))

/-- P, F and K of a stream. -/
def Dev.strP (d : Dev) (q : Nat) : Nat := d.get (strBase q) .PAT_STR_PRODUCED_P
def Dev.strF (d : Dev) (q : Nat) : Nat := d.get (strBase q) .PAT_STR_FETCHED_F
def Dev.strK (d : Dev) (q : Nat) : Nat := d.get (strBase q) .PAT_STR_STARTED_K

/-- The store address of a granule record (R98). -/
def Hdr.recAddr (h : Hdr) (g : Nat) : Nat := h.base + h.symOff + g * h.granBytes

/-- The store address of window sequence `k` of stream `q`. -/
def Dev.seqAddr (d : Dev) (h : Hdr) (q k : Nat) : Nat :=
  h.recAddr (d.get (strBase q) .PAT_STR_GLO_GLO + k % Nat.max 1 (d.get (strBase q) .PAT_STR_SLOTS_N))

/-- A stream that moves data shows whether it has work and room (R177). -/
def Dev.strShow (d : Dev) (q : Nat) : Dev :=
  let b := strBase q
  let st := d.strState q
  if st = 1 ∨ st = 2 ∨ st = 3 then
    let work := (d.strm q).isSome || d.get b .PAT_STR_PROD_PROD != d.get b .PAT_STR_CONS_CONS
    let room := decide (d.strP q < d.strF q + d.get b .PAT_STR_SLOTS_N)
    d.put b .PAT_STR_STAT_STATE (if !work then 3 else if room then 1 else 2)
  else d

/-- A stream enters ERROR (R177). -/
def Dev.strError (d : Dev) (q err : Nat) : Dev :=
  let d := (d.put (strBase q) .PAT_STR_STAT_STATE 5).put (strBase q) .PAT_STR_STAT_ERR err
  (d.setStrm q none).irq .patg patB 18

/-- The checks of R173 on a stream about to be enabled: the error, if any. -/
def Dev.strCheck (d : Dev) (q : Nat) : Option Nat :=
  let b := strBase q
  let c := d.get b .PAT_STR_CTRL_CTX
  let st := d.ctxState c
  let n := d.get b .PAT_STR_SLOTS_N
  let g := d.get b .PAT_STR_GLO_GLO
  match (d.cx c).hdr with
  | none => some 2
  | some h =>
    if st ≠ 1 ∧ st ≠ 2 then some 2
    else if n < 8 ∨ h.symCount < g + n then some 1
    else
      let lo := h.recAddr g
      let hi := h.recAddr (g + n)
      if (List.range 16).any (fun p =>
        match (d.cx (d.get (strBase p) .PAT_STR_CTRL_CTX)).hdr with
        | some k =>
          let glo := d.get (strBase p) .PAT_STR_GLO_GLO
          p != q && d.bit (strBase p) .PAT_STR_CTRL_EN && decide (k.recAddr glo < hi) && decide (lo < k.recAddr (glo + d.get (strBase p) .PAT_STR_SLOTS_N))
        | none => false) then some 1
      else none

/-- The window records and fills of a context go with its stream (R173), all but the record that it emits or is about to start. -/
def Dev.winClear (d : Dev) (c : Nat) : Dev :=
  let x := d.cx c
  { d with
    cache := d.cache.filter (fun r => r.ctx != c || !r.win || x.crec == some (true, r.key) || x.nkey == some (true, r.key))
    fills := d.fills.filter (fun f => f.ctx != c || !f.win) }

/-- A write of PAT_STR_CTRL (R173, R177). A stream whose EN reads 1 ignores EN = 1 in every state, ENDED and ERROR among them: it is disabled first (DESIGN
CHOICE: notes/assumptions/97.md). -/
def Dev.strCtrl (d : Dev) (q v : Nat) : Dev :=
  let b := strBase q
  let en := d.bit b .PAT_STR_CTRL_EN
  let on := bitOf v 31
  if en then
    if on then d
    else (((d.setb b .PAT_STR_CTRL_EN false).put b .PAT_STR_STAT_STATE 0).setStrm q none).winClear (d.get b .PAT_STR_CTRL_CTX)
  else
    let d := (d.put b .PAT_STR_CTRL_CTX (v % 1024)).setb b .PAT_STR_CTRL_EN on
    if ¬ on then d
    else
      let d := (((d.put b .PAT_STR_PRODUCED_P 0).put b .PAT_STR_FETCHED_F 0).put b .PAT_STR_STARTED_K 0).hbmWake
      match d.strCheck q with
      | some e => d.strError q e
      | none => (((d.winClear (v % 1024)).put b .PAT_STR_STAT_ERR 0).put b .PAT_STR_STAT_STATE 3).strShow q

/-- One record of a descriptor is read from the host and written into the window (R174, R176); `err`: the read's completion is an error (R177). -/
def strRecord (s : State) (q : Nat) (bs : List Byte) (err : Bool) : State :=
  let d := s.d
  let b := strBase q
  match d.strm q, (d.cx (d.get b .PAT_STR_CTRL_CTX)).hdr with
  | some t, some h =>
    if t.left = 0 ∨ ¬ (d.strP q < d.strF q + d.get b .PAT_STR_SLOTS_N) then { s with d := d.strShow q }
    else if err then { s with d := (d.emit (.hostRd t.addr h.granBytes)).strError q 4 }
    else
      let d := d.emit (.hostRd t.addr h.granBytes)
      let data := (bs ++ List.replicate (h.granBytes - bs.length) 0).take h.granBytes
      let m := storeWrite s.store (d.seqAddr h q (d.strP q)) data
      let d := (d.put b .PAT_STR_PRODUCED_P (d.strP q + 1)).satAdd patB .PAT_WR_BYTES_BYTES h.granBytes
      { s with store := m, d := (d.setStrm q (some { t with addr := t.addr + h.granBytes, left := t.left - 1 })).strShow q }
  | _, _ => s

/-- A descriptor as read: its record, or `none` when R176 refuses it: a COUNT of 0 or above 1,048,576, a misaligned HOST_ADDR, reserved bits of FLAGS or the
reserved byte not zero (DEDUCED from the two rules' lists: notes/assumptions/96.md). -/
def readDesc (x : Nat) : Option SDesc :=
  let addr := x % 2 ^ 64
  let count := x / 2 ^ 64 % 2 ^ 32
  if count = 0 ∨ 1048576 < count ∨ addr % 64 ≠ 0 ∨ x / 2 ^ 113 ≠ 0 then none
  else some { addr := addr, left := count, tag := x / 2 ^ 96 % 2 ^ 16, irq := bitOf x 112 }

/-- LOG2 of a stream's ring as it acts (R178): values outside 4 to 16 act as 16. -/
def Dev.strLog (d : Dev) (q : Nat) : Nat :=
  let v := d.get (strBase q) .PAT_STR_RING_SIZE_LOG2
  if 4 ≤ v ∧ v ≤ 16 then v else 16

/-- The host address of the descriptor that a stream reads next: number CONS mod 2^LOG2 from PAT_STR_RING_BASE (R176). -/
def Dev.strDesc (d : Dev) (q : Nat) : Nat :=
  d.get (strBase q) .PAT_STR_RING_BASE_BASE * 16 + 16 * (d.get (strBase q) .PAT_STR_CONS_CONS % 2 ^ d.strLog q)

/-- GEYSER (R176): the stream reads its next descriptor, unless one is in progress, and moves one record. `desc` and `bs` are what the host returns, `err`
says that the first read of the two that is made completes with an error. -/
def geyser (s : State) (q desc : Nat) (bs : List Byte) (err : Bool) : State :=
  let d := s.d
  let b := strBase q
  let st := d.strState q
  if ¬ (st = 1 ∨ st = 2 ∨ st = 3) ∨ ¬ d.dmaUp then s
  else match d.strm q with
    | some _ => strRecord s q bs err
    | none =>
      if d.get b .PAT_STR_PROD_PROD = d.get b .PAT_STR_CONS_CONS then s
      else
        let d := d.emit (.hostRd (d.strDesc q) 16)
        if err then { s with d := d.strError q 4 }
        else match readDesc desc with
          | none => { s with d := d.strError q 3 }
          | some t => strRecord { s with d := d.setStrm q (some t) } q bs false

/-- GEYSER_DONE (R176): a descriptor whose records are all written completes. -/
def Dev.geyserDone (d : Dev) (q : Nat) : Dev :=
  let b := strBase q
  match d.strm q with
  | some t =>
    if t.left = 0 then
      let d := ((d.setStrm q none).put b .PAT_STR_CONS_CONS ((d.get b .PAT_STR_CONS_CONS + 1) % 2 ^ 32)).put b .PAT_STR_STAT_TAG t.tag
      (if t.irq then d.irq .patg patB q else d).strShow q
    else d
  | none => d

/-- STREAM_RESUME (R174): a FULL stream writes its next sequence once a slot is free. -/
def streamResume (s : State) (q : Nat) (bs : List Byte) : State :=
  if s.d.strState q = 2 ∧ s.d.dmaUp then strRecord { s with d := s.d.strShow q } q bs false else s

/-- A context has left ARMED, RUNNING and HOLDING: its stream ends (R177). -/
def Dev.strEnd (d : Dev) (c : Nat) : Dev :=
  d.forAll (List.range 16) (fun d q =>
    let st := d.strState q
    if d.get (strBase q) .PAT_STR_CTRL_CTX = c ∧ (st = 1 ∨ st = 2 ∨ st = 3) then
      (d.put (strBase q) .PAT_STR_STAT_STATE 4).setStrm q none else d)

/-! ### Quotas (R166) -/

/-- PAT_QUOTA of context `c`. -/
def quotaBase (c : Nat) : Nat := patcBase (c / 32) + c % 32 * 4

/-- The minimum of a context in 4 KiB units: 16 of its records. -/
def Dev.quotaMin (d : Dev) (c : Nat) : Nat := match (d.cx c).hdr with | some h => (16 * h.granBytes + 4095) / 4096 | none => 0

/-- The effective quotas of the owning contexts of cluster `n` are computed again. -/
def Dev.quotaShare (d : Dev) (n : Nat) : Dev :=
  let cs := (List.range 32).map (fun i => 32 * n + i)
  let own := cs.filter d.ctxOwning
  let share := own.filter (fun c => (d.cx c).quota == 0)
  let fixed := own.filter (fun c => (d.cx c).quota != 0)
  let total := fun (l : List Nat) (f : Nat → Nat) => l.foldl (fun a c => a + f c) 0
  let part := (512 - total fixed (fun c => Nat.max (d.cx c).quota (d.quotaMin c)) - total share d.quotaMin) / Nat.max 1 share.length
  d.forAll cs (fun e c =>
    e.put (quotaBase c) .PAT_QUOTA_EFF
      (if share.contains c then d.quotaMin c + part
       else if fixed.contains c then Nat.max (d.cx c).quota (d.quotaMin c) else 0))

/-- PAT_QUOTA_WRITE (R166): a write that would raise the cluster's sum above 456 is discarded. -/
def Dev.quotaWrite (d : Dev) (c v : Nat) : Dev :=
  let n := c / 32
  let sum := (List.range 32).foldl (fun a i => a + (if 32 * n + i = c then 0 else d.get (quotaBase (32 * n + i)) .PAT_QUOTA_QUOTA)) 0
  let old := d.get (quotaBase c) .PAT_QUOTA_QUOTA
  let new := v % 1024
  if old < new ∧ 456 < sum + new then d.irq .patc (patcBase n) 1 else d.put (quotaBase c) .PAT_QUOTA_QUOTA new

/-! ### What the fill unit wants (R165) -/

/-- Records that the effective quota of a context holds. -/
def Dev.cacheCap (d : Dev) (c : Nat) : Nat :=
  match (d.cx c).hdr with
  | some h => d.get (quotaBase c) .PAT_QUOTA_EFF * 4096 / Nat.max 1 h.granBytes
  | none => 0

/-- The granule a descriptor starts with, if it needs a record. -/
def Desc.head (x : Desc) : Option Nat := match x.kind with | .block | .rpt => some x.gran | _ => none

/-- The granule that follows in the running op; an RPT repeats its granule. -/
def Dev.contGran (d : Dev) (c : Nat) : Option Nat :=
  match (d.cx c).cur with
  | some x => match x.kind with
    | .block => some (x.gran + (d.cx c).curPos + 1)
    | .rpt => some x.gran
    | _ => none
  | none => none

/-- The granule of a successor, if it needs a record. -/
def Dev.succGran (d : Dev) (c : Nat) : Option Succ → Option Nat
  | some .cont => d.contGran c
  | some (.leaf l _) => l.desc.head
  | _ => none

/-- The key of the record that granule `g` starts with now: a program granule, or the next sequence of its window. A granule that
repeats (RPT) keeps the record it has. -/
def Dev.startKey (d : Dev) (c g : Nat) (again : Bool) : Bool × Nat :=
  match again, (d.cx c).crec, d.winOf c g with
  | true, some k, _ => k
  | _, _, some q => (true, d.strK q)
  | _, _, none => (false, g)

/-- The key of the granule being emitted. -/
def Dev.curKey (d : Dev) (c : Nat) : Option (Bool × Nat) :=
  match (d.cx c).gk with
  | .prog _ => (d.cx c).crec
  | _ => none

/-- Is a successor one more repeat of an RPT. -/
def Dev.isAgain (d : Dev) (c : Nat) : Option Succ → Bool
  | some .cont => match (d.cx c).cur with | some x => x.kind == .rpt | none => false
  | _ => false

/-- The program granules that the running op still has to start, at most `n`. -/
def Dev.ahead (d : Dev) (c n : Nat) : List Nat :=
  match (d.cx c).cur with
  | some x => match x.kind with
    | .block => (List.range (Nat.min n (x.count - ((d.cx c).curPos + 1)))).map (fun i => x.gran + (d.cx c).curPos + 1 + i)
    | _ => []
  | none => []

/-- Keys of granules that will start one after another; window granules take the sequences from `k` on. -/
def Dev.keysFrom (d : Dev) (c : Nat) : Nat → List Nat → List (Bool × Nat)
  | _, [] => []
  | i, g :: gs => match d.winOf c g with
    | some q => (true, d.strK q + i) :: d.keysFrom c (i + 1) gs
    | none => (false, g) :: d.keysFrom c i gs

/-- Window granules among those that the running op still has to start. -/
def Dev.aheadWin (d : Dev) (c : Nat) : Nat :=
  match (d.cx c).cur with
  | some x =>
    match x.kind, (List.range 16).find? (fun q => d.strLive q && d.get (strBase q) .PAT_STR_CTRL_CTX == c) with
    | .block, some q =>
      let glo := d.get (strBase q) .PAT_STR_GLO_GLO
      Nat.min (x.gran + x.count) (glo + d.get (strBase q) .PAT_STR_SLOTS_N) - Nat.max (x.gran + (d.cx c).curPos + 1) glo
    | _, _ => 0
  | none => 0

/-- PAT_HEAD.DEPTH as it acts. -/
def Dev.headDepth (d : Dev) (n : Nat) : Nat :=
  let v := d.get (patcBase n) .PAT_HEAD_DEPTH
  if v = 0 ∨ 4 < v then 4 else v

/-- The heads of the pending table, first granules first. -/
def Dev.heads (d : Dev) (c : Nat) : List (Bool × Nat) :=
  match (d.cx c).table with
  | none => []
  | some t =>
    let base := d.aheadWin c
    (List.range (d.headDepth (c / 32))).flatMap (fun i => t.leaves.filterMap (fun l =>
      match l.desc.kind with
      | .block | .rpt =>
        if i = 0 ∨ (i < l.desc.count ∧ l.desc.kind = .block) then
          match d.winOf c (l.desc.gran + i) with
          | some q => some (true, d.strK q + base + i)
          | none => some (false, l.desc.gran + i)
        else none
      | _ => none))

/-- The records of the first two priorities of R165: the granule being emitted, the successor as the last latch fixed it, and the heads. -/
def Dev.wantFirst (d : Dev) (c : Nat) : List (Bool × Nat) :=
  let x := d.cx c
  let nxt := match x.succ with
    | some (.hold _) => (x.want, d.isAgain c x.want)
    | y => (y, d.isAgain c y)
  let succ := (d.succGran c nxt.1).map (fun g => x.nkey.getD (d.startKey c g nxt.2))
  (d.curKey c).toList ++ succ.toList ++ d.heads c

/-- The records a context should hold, in the order of R165, cut to its quota. -/
def Dev.wants (d : Dev) (c : Nat) : List (Bool × Nat) :=
  let cap := d.cacheCap c
  ((d.wantFirst c ++ d.keysFrom c 0 (d.ahead c cap)).eraseDups).take cap

/-- The records of a context in its cluster's cache. -/
def Dev.recsOf (d : Dev) (c : Nat) : List CRec := d.cache.filter (fun r => r.ctx == c)

/-- A record of a key is in the cache. -/
def Dev.holds (d : Dev) (c : Nat) (k : Bool × Nat) : Bool := d.cache.any (fun r => r.ctx == c && r.win == k.1 && r.key == k.2)

/-- The stream that is in force for a context. -/
def Dev.strOf (d : Dev) (c : Nat) : Option Nat := (List.range 16).find? (fun q => d.strLive q && d.get (strBase q) .PAT_STR_CTRL_CTX == c)

/-- A sequence that has been fetched and not started is never evicted (R174), a quota that shrinks notwithstanding (DESIGN CHOICE:
notes/assumptions/98.md). -/
def Dev.kept (d : Dev) (c : Nat) (r : CRec) : Bool :=
  r.win && (match d.strOf c with
    | some q => decide (d.strK q ≤ r.key)
    | none => false)

/-- The record evicted first: the least recently used one that is not wanted, else the wanted one of least priority. -/
def Dev.victim (d : Dev) (c : Nat) (want : List (Bool × Nat)) (rs : List CRec) : Option CRec :=
  match rs.find? (fun r => !(d.kept c r) && !want.contains (r.win, r.key)) with
  | some r => some r
  | none => want.reverse.findSome? (fun k => rs.find? (fun r => !(d.kept c r) && r.win == k.1 && r.key == k.2))

/-- Evict up to `n` records of a context while it holds more than its quota. -/
def Dev.evict (d : Dev) (c : Nat) : Nat → Dev
  | 0 => d
  | n + 1 =>
    let rs := d.recsOf c
    if rs.length ≤ d.cacheCap c then d
    else match d.victim c (d.wants c) rs with
      | some r => ({ d with cache := d.cache.erase r }).evict c n
      | none => d

/-- Started window sequences go, but for the one that the granule being emitted or repeated has taken (R165, R174). -/
def Dev.seqDrop (d : Dev) (c : Nat) : Dev :=
  { d with cache := d.cache.filter (fun r => r.ctx != c || !r.win || d.kept c r || (d.cx c).crec == some (r.win, r.key)) }

/-- The cache of a context follows its quota (R166). -/
def Dev.cacheTrim (d : Dev) (c : Nat) : Dev := (d.seqDrop c).evict c (d.recsOf c).length

/-- A context of the cluster has entered or left the owning states: shares change, and records with them (R166, R164). -/
def Dev.quotaAgain (d : Dev) (n : Nat) : Dev :=
  let d := d.quotaShare n
  d.forAll ((List.range 32).map (fun i => 32 * n + i)) (fun d c => if d.ctxOwning c then d.cacheTrim c else d)

/-- A context leaves ARMED, RUNNING and HOLDING: its records and fills go, its stream ends (R164, R177). -/
def Dev.cacheLeave (d : Dev) (c : Nat) : Dev :=
  let d := { d with cache := d.cache.filter (fun r => r.ctx != c), fills := d.fills.filter (fun f => f.ctx != c) }
  (d.strEnd c).quotaAgain (c / 32)

/-- The first sequence of a window, up to `k`, that has been produced and is neither held nor awaited: what has been lost comes again (R172, R174). -/
def Dev.seqNext (d : Dev) (c q k : Nat) : Option Nat :=
  let f := d.strF q
  ((List.range (Nat.min (k + 1) (d.strP q) - f)).map (fun i => f + i)).find? (fun s => !d.holds c (true, s) && !d.fills.any (fun x => x.ctx == c && x.win && x.key == s))

/-- F counts the sequences fetched in order: it steps past those that are held. -/
def Dev.seqFetched (d : Dev) (c q : Nat) : Nat → Dev
  | 0 => d
  | n + 1 => if d.strF q < d.strP q ∧ d.holds c (true, d.strF q) = true then (d.put (strBase q) .PAT_STR_FETCHED_F (d.strF q + 1)).seqFetched c q n else d

/-- A VCACHE slice runs in the cluster of a context: the fill unit asks again at its end (R444). -/
def Dev.vcache (d : Dev) (c : Nat) : Bool := match (d.clu (c / 32)).bst with | some s => s.test == 2 | none => false

/-- FILL_REQUEST (R165): the first record that a context wants and neither holds nor awaits is requested. A window is fetched in
sequence order, and only what has been produced. -/
def Dev.fillRequest (d : Dev) (_m : Tab Byte) (c : Nat) : Dev :=
  if ¬ d.ctxOwning c ∨ ¬ d.storeReady ∨ d.vcache c = true then d
  else
    let pend := d.fills.filter (fun f => f.ctx == c)
    let pick := (d.wants c).findSome? (fun k =>
      if d.holds c k then none
      else if k.1 then
        (d.strOf c).bind (fun q => (d.seqNext c q k.2).map (fun s => ({ ctx := c, key := s, win := true } : Fill)))
      else if pend.any (fun f => !f.win && f.key == k.2) then none
      else some { ctx := c, key := k.2, win := false })
    match pick with
    | some f => { d with fills := d.fills ++ [f] }
    | none => d

/-- The fill of a context that is served next (R163, R174): a successor or head before run-ahead, else the oldest; a window in its order. The order between
contexts, streams and BAR2 is that of their commands (notes/assumptions/99.md). -/
def Dev.nextFill (d : Dev) (c : Nat) : Option Fill :=
  let fs := d.fills.filter (fun f => f.ctx == c)
  let u := d.wantFirst c
  let f := (fs.find? (fun f => u.contains (f.win, f.key))).or fs.head?
  match f with
  | some f => if f.win then fs.find? (fun f => f.win) else some f
  | none => none

/-- FILL_COMPLETE (R160, R163 to R165, R174): the next fill of a context completes without error (0), with a corrected error (1), with an error that the
retry met again (2), where the record does not become resident, or into lines with an uncorrectable error (3). -/
def Dev.fillComplete (d : Dev) (m : Tab Byte) (c err : Nat) : Dev :=
  match d.nextFill c, (d.cx c).hdr with
  | some f, some h =>
    let d := { d with fills := d.fills.erase f }
    let strq := d.strOf c
    let addr := match f.win, strq with
      | true, some q => d.seqAddr h q f.key
      | _, _ => h.recAddr f.key
    let i := d.evalInj 0x0B 0 0
    let d := (i.1.satAdd patB .PAT_RD_BYTES_BYTES h.granBytes).satAdd (patcBase (c / 32)) .PAT_FILL_BYTES_BYTES h.granBytes
    if err = 2 ∨ i.2 = true then d.patUe addr i.2
    else
      let d := if err = 1 then d.satInc patB .PAT_ECC_CE_CNT_COUNT else d
      let r : CRec := { ctx := c, key := f.key, win := f.win, data := (List.range h.granBytes).map (fun o => Tab.get storeDflt m (addr + o)), bad := err == 3 }
      let d := { d with cache := d.cache.filter (fun (x : CRec) => !(x.ctx == c && x.win == f.win && x.key == f.key)) ++ [r] }
      let d := match f.win, strq with
        | true, some q => (d.seqFetched c q (d.recsOf c).length).strShow q
        | _, _ => d
      d.evict c 1
  | _, _ => d

/-! ### Residency and starts (R168, R169, R174) -/

/-- A record is lost to an uncorrectable cache error (R164, R172): it is fetched again, a window sequence with those behind it as far as they are not held. -/
def Dev.recLost (d : Dev) (c : Nat) (k : Bool × Nat) : Dev :=
  let d := { d with cache := d.cache.filter (fun r => !(r.ctx == c && r.win == k.1 && r.key == k.2)) }
  match k.1, d.strOf c with
  | true, some q => d.put (strBase q) .PAT_STR_FETCHED_F (Nat.min (d.strF q) k.2)
  | _, _ => d

/-- The cause of an underrun for a granule that would start at the next boundary; `none`: it is resident, and its record is fixed (R168). A checked record
with an uncorrectable error goes (R164). -/
def Dev.judge (d : Dev) (c g : Nat) (again : Bool) : Dev × Option Nat :=
  let k := d.startKey c g again
  let empty := match d.winOf c g with | some q => !again && decide (d.strP q ≤ k.2) | none => false
  if empty then (d, some 3)
  else match d.cache.find? (fun r => r.ctx == c && r.win == k.1 && r.key == k.2) with
    | none => (d, some 1)
    | some r =>
      let i := d.evalInj 0x22 (c / 32) 0
      if i.2 || r.bad then ((((i.1.fltBit (patcBase (c / 32)) 0).faultEvt 0x22 (c / 32) 0 [c] i.2)).recLost c k, some 1)
      else (i.1.setCx c { i.1.cx c with nkey := some k }, none)

/-- No record is emitted any more: a hold granule that does not wait for a repeat, a CALGAP granule. -/
def Dev.recEnd (d : Dev) (c : Nat) : Dev := (d.setCx c { d.cx c with crec := none, nkey := none }).seqDrop c

/-- A granule starts with the record that its latch has found resident (R168): it becomes the most recently used, a window sequence is started and the one
before it goes (R174). -/
def Dev.granStart (d : Dev) (c g : Nat) (again : Bool) : Dev :=
  let k := (d.cx c).nkey.getD (d.startKey c g again)
  let d := match d.winOf c g, again with
    | some q, false => d.put (strBase q) .PAT_STR_STARTED_K (d.strK q + 1)
    | _, _ => d
  let d := (d.setCx c { d.cx c with crec := some k, nkey := none }).seqDrop c
  match d.cache.find? (fun r => r.ctx == c && r.win == k.1 && r.key == k.2) with
  | some r => { d with cache := d.cache.erase r ++ [r] }
  | none => d

/-- The bytes of the record being emitted. -/
def Dev.curData (d : Dev) (c : Nat) : List Byte :=
  match d.curKey c with
  | some k => match d.cache.find? (fun r => r.ctx == c && r.win == k.1 && r.key == k.2) with
    | some r => r.data
    | none => []
  | none => []

end Sys2Proof.Machine
end

