-- ==== Sys2Proof/Machine/Bst.lean ====
section
/-! DEFINITION. Built-in self-test (19_self_test.md): requests, preconditions, the start of a slice, fuse repair. -/

namespace Sys2Proof.Machine

/-- BST registers of cluster `n`. -/
def bstCl (n : Nat) : Nat := bstB + 0x20 * n

/-- LCS_STATE.STATE (R475): 0 FACTORY, 1 PROVISIONED, 2 FIELD, 3 SERVICE, 4 RETIRED. -/
def Dev.lcsState (d : Dev) : Nat := d.get lcsB .LCS_STATE_STATE

/-- Tests are accepted in this ordering code and life-cycle state (R438). -/
def Dev.bstAllowed (d : Dev) : Bool := if d.fuse.code = 0 then decide (d.lcsState ≠ 4) else d.lcsState == 3

/-- Soft repair is allowed (R438). -/
def Dev.softAllowed (d : Dev) : Bool := d.fuse.code == 0 && d.bit bstB .BST_CFG_REPAIR_EN

/-- Fuses may be programmed in this code and state (R438, R475). -/
def Dev.fuseAllowed (d : Dev) : Bool := d.fuse.code == 0 && (d.lcsState == 0 || d.lcsState == 3)

/-- A self-test slice runs somewhere. -/
def Dev.bstRuns (d : Dev) : Bool := d.bst.ref.isSome || (List.range 32).any (fun n => (d.clu n).bst.isSome)

/-- The junction lies within 0 to 85 °C (R447): every sensor that is not masked reads so; a broken one is treated as at its reading (R414). -/
def Dev.junctionOk (d : Dev) : Bool := (List.range 48).all (fun t => d.masked t || (decide (0 ≤ d.temp t) && decide (d.temp t ≤ 8500)))

/-- The parts of a test (R439). -/
def bstParts (test : Nat) : Nat := if test = 2 ∨ test = 6 then 4 else if 1 ≤ test ∧ test ≤ 8 then 1 else 0

/-- The preconditions of a part in a cluster (R439). -/
def Dev.bstPre (d : Dev) (test n part : Nat) : Bool :=
  match test with
  | 1 => (List.range 32).all (fun k => (d.clu k).slice == 0)
  | 3 => d.bufLevel n == 0 && (List.range 32).all (fun i => (List.range 8).all (fun j =>
      let s := Tab.get (fun _ => {}) (d.cx (32 * n + i)).slots j
      s.st != .live && s.st != .stopped))
  | 4 => !(d.bit (ucsBase n) .UCS_PATCH_CTRL_LOCK)
  | 5 => (d.clu n).slice == 0
  | 6 => d.bit calB .CAL_CFG_TIP_OPEN && (List.range 8).all (fun i => match (d.pin (32 * n + 8 * part + i)).owner with
      | some c => !d.ctxOwning c
      | none => true)
  | 7 => (List.range 4).all (fun i => !d.genActive (4 * n + i))
  | 8 => [2 * n, 2 * n + 1].all (fun k => decide (d.dpsState k ≤ 1) && !(d.bit (dpsBase k) .DPS_GANG_EN))
  | _ => true

/-- The base addresses of the pages in the slice of a part (R439). -/
def bstPages (test n part : Nat) : List Nat :=
  match test with
  | 1 => [calB]
  | 2 => [patcBase n]
  | 3 => [acqBase n]
  | 4 => [ucsBase n]
  | 5 => [calcBase n]
  | 6 => tdccBase n :: (List.range 8).map (fun i => pinBase (32 * n + 8 * part + i))
  | 7 => [wfgBase n]
  | 8 => [dpsBase (2 * n), dpsBase (2 * n + 1)]
  | _ => []

/-- PG_STAT.STATE and BST_STAT.RUNNING follow the slices. -/
def Dev.bstStat (d : Dev) : Dev :=
  let k := ((List.range 32).filter (fun n => (d.clu n).bst.isSome)).length + (if d.bst.ref.isSome then 1 else 0)
  let d := d.put bstB .BST_STAT_RUNNING k
  if d.get bstB .PG_STAT_STATE = 2 then d else d.put bstB .PG_STAT_STATE (if d.bst.todo = [] ∧ k = 0 then 0 else 1)

/-- A request is refused with a cause (R438, R447, R449). -/
def Dev.bstRefuse (d : Dev) (cause : Nat) : Dev := (d.put bstB .BST_STAT_REFUSED cause).irq .bst bstB 2

/-- A requested test takes its clusters (R442): one where a precondition of some part fails now is refused with PRECOND. -/
def Dev.bstAccept (d : Dev) (test : Nat) : Dev :=
  let cls := if test = 1 then [32] else d.clusters.filter (d.bitN bstB .BST_REQ_CL_CLUSTER)
  let good := cls.filter (fun n => (List.range (bstParts test)).all (d.bstPre test n))
  let d := if good.length = cls.length then d else d.bstRefuse 2
  let d := { d with bst := { d.bst with todo := good.flatMap (fun n => (List.range (bstParts test)).map (fun p => (n, p))) } }
  (if good = [] then d else d.put bstB .BST_STAT_TEST test).bstStat

/-- BST_REQ (R438, R442, R447, R448). Answers whether the write is logged as LOCKED. -/
def Dev.bstReq (d : Dev) (test : Nat) : Dev × Bool :=
  if ¬ d.bstAllowed then (d.bstRefuse 1, true)
  else if d.clkState = 3 ∨ d.clkState = 4 then (d.bstRefuse 5, false)
  else if bstParts test = 0 then (d.bstRefuse 3, false)
  else if d.bst.todo ≠ [] ∨ d.bstRuns = true ∨ d.bst.wait.isSome = true then (d.bstRefuse 4, false)
  else if d.get bstB .PG_STAT_STATE = 2 then ({ d with bst := { d.bst with wait := some test } }, false)
  else (d.bstAccept test, false)

/-- MAX_PAR as it acts (R449). -/
def Dev.bstMaxPar (d : Dev) : Nat := Nat.min 32 (Nat.max 1 (d.get bstB .BST_CFG_MAX_PAR))

/-- The next part of a cluster may start now (R442); the WARN of PHY or CORE forbids every slice, REF among them (R416). -/
def Dev.bstMay (d : Dev) (n : Nat) : Bool :=
  match d.bst.todo.find? (fun p => p.1 == n) with
  | some p => d.bstPre (d.get bstB .BST_STAT_TEST) n p.2 && (if n = 32 then !(d.thm.warn.contains 34) && !(d.thm.warn.contains 35)
      else !(d.sliceBarred n) && !(d.rasOnCluster n))
  | none => false

/-- VCACHE destroys every cached record of the cluster (R439), but for the one that a granule is being emitted from (notes/assumptions/65.md); a window's
sequences that are lost are fetched again (R172). -/
def Dev.cacheLost (d : Dev) (n : Nat) : Dev :=
  let go := d.cache.filter (fun r => r.ctx / 32 == n && d.curKey r.ctx != some (r.win, r.key))
  let d := go.foldl (fun d r => d.recLost r.ctx (r.win, r.key)) d
  { d with fills := d.fills.filter (fun f => f.ctx / 32 != n) }

/-- The slice of a part starts (R444): SELFTEST sets in its pages; what the test destroys is lost. -/
def Dev.bstBegin (d : Dev) (n part : Nat) : Dev :=
  let test := d.get bstB .BST_STAT_TEST
  let s : BSlice := { test := test, part := part, t0 := d.time }
  let d := { d with bst := { d.bst with todo := d.bst.todo.erase (n, part) } }
  let d := if n = 32 then { d with bst := { d.bst with ref := some s } } else d.setClu n { d.clu n with bst := some s }
  let d := d.forAll (bstPages test n part) (fun d b => d.setb b .PG_STAT_SELFTEST true)
  let d := if test = 2 then d.cacheLost n else d
  let d := if test = 5 then d.calStaged n else d
  d.bstStat

/-- A wake of the cluster waits or goes on. -/
def Dev.waking (d : Dev) (n : Nat) : Bool := d.pow.queue.any (fun w => w.cl == n) || d.pow.prog.any (fun w => w.cl == n)

/-- BIST_SLICE_START (R442): the next part of the cluster starts, in ascending order of clusters and within MAX_PAR; a cluster in NAP
or DORMANT is woken first, and meanwhile the next ones are served. For REF the cluster given is ignored. -/
def Dev.bistSliceStart (d : Dev) (n : Nat) : Dev :=
  let n := if d.bst.todo.any (fun p => p.1 == 32) then 32 else n
  if d.clkState ≠ 2 ∨ d.bstMay n = false ∨ (List.range n).any (fun k => d.bstMay k && !(d.waking k)) = true ∨ d.bstMaxPar ≤ d.get bstB .BST_STAT_RUNNING then d
  else if n ≠ 32 ∧ 2 ≤ d.clState n then d.wakeReqTo n false true 0
  else
    let d := if n ≠ 32 then d.wakeReqFree n else d
    match d.bst.todo.find? (fun p => p.1 == n) with
    | some p => d.bstBegin n p.2
    | none => d

/-! ### Repair (R445 to R447) -/

/-- The element that a test covers, and its spare rows. -/
def bstElem (test : Nat) : Option (Nat × Nat) :=
  match test with
  | 2 => some (0, 32)
  | 3 => some (1, 8)
  | 4 => some (2, 2)
  | 5 => some (3, 4)
  | _ => none

/-- The entry of a spare, in fuses or in the soft map. -/
def Dev.repOf (d : Dev) (cl elem spare : Nat) : Option Rep :=
  (d.fuse.reps ++ d.bst.soft).find? (fun r => r.cl == cl && r.elem == elem && r.spare == spare)

/-- Map failing rows to the lowest free spares (R446): the state after it, the rows mapped, and whether a spare was missing. -/
def Dev.repair (d : Dev) (cl elem spares : Nat) (bad : List Nat) : List Nat → Dev × Nat × Bool
  | [] => (d, 0, false)
  | row :: rows =>
    match (List.range spares).find? (fun s => !bad.contains s && (d.repOf cl elem s).isNone) with
    | some s =>
      let d := { d with bst := { d.bst with soft := d.bst.soft ++ [Rep.mk cl elem s row true false false] } }
      let r := d.repair cl elem spares bad rows
      (r.1, r.2.1 + 1, r.2.2)
    | none => let r := d.repair cl elem spares bad rows; (r.1, r.2.1, true)

/-- BST_REP_DATA for the entry that BST_REP_SEL names (R449). -/
def Dev.repData (d : Dev) : Nat :=
  let cl := d.get bstB .BST_REP_SEL_CLUSTER
  let elem := d.get bstB .BST_REP_SEL_ELEM
  let spare := d.get bstB .BST_REP_SEL_SPARE
  let bad := d.bst.soft.any (fun r => r.cl == cl && r.elem == elem && r.spare == spare && r.bad)
  match d.repOf cl elem spare with
  | some r => (if r.used then 2 ^ 31 else 0) + (if r.fused then 2 ^ 30 else 0) + (if r.bad || bad then 2 ^ 29 else 0) + r.row
  | none => 0

/-- BST_FUSE_CTRL with its key and GO (R447). Answers whether the write is logged as LOCKED. -/
def Dev.bstFuse (d : Dev) : Dev × Bool :=
  if ¬ d.fuseAllowed then (d.bstRefuse 1, true)
  else if d.bstRuns = true ∨ d.junctionOk = false then (d.bstRefuse 2, false)
  else (d.put bstB .PG_STAT_STATE 2, false)

/-- A repair in fuses. -/
def Rep.fuse (r : Rep) : Rep := { r with fused := true }

/-- FUSE_DONE (R447): every soft mapping is in fuses but those, by their number among them, whose read-back differs; a waiting test is taken. -/
def Dev.fuseDone (d : Dev) (bad : List Nat) : Dev :=
  if d.get bstB .PG_STAT_STATE ≠ 2 then d
  else
    let soft := (d.bst.soft.filter (fun (r : Rep) => r.used)).zipIdx
    let ok := (soft.filter (fun p => !bad.contains p.2)).map (fun p => (p.1.fuse : Rep))
    let no := (soft.filter (fun p => bad.contains p.2)).map (·.1)
    let d := { d with fuse := { d.fuse with reps := d.fuse.reps ++ ok }, bst := { d.bst with soft := no ++ d.bst.soft.filter (fun (r : Rep) => !r.used) } }
    let d := if no = [] then d else (d.fltBit bstB 0).faultEvt 0x08 0 0 [] false
    let d := ((d.put bstB .PG_STAT_STATE 0).irq .bst bstB 3).bstStat
    match d.bst.wait with
    | some t => { d with bst := { d.bst with wait := none } }.bstAccept t
    | none => d

end Sys2Proof.Machine
end

