-- ==== Sys2Proof/Machine/Lcs.lean ====
section
/-! DEFINITION. The life cycle (R475 to R477, R479): challenge and response, SERVICE sessions, advances. -/

namespace Sys2Proof.Machine

/-- Set the state and base state shown (R479). -/
def Dev.lcsShow (d : Dev) : Dev :=
  let st := if d.lcs.session then 3 else d.fuse.life
  ((d.put lcsB .LCS_STATE_STATE st).put lcsB .LCS_STATE_BASE d.fuse.life).put lcsB .PG_STAT_STATE st

/-- SERVICE ends (R477). -/
def Dev.lcsEnd (d : Dev) : Dev := { d with lcs := { d.lcs with session := false } }.lcsShow

/-- A command of the LCS page ends with a result (R479). -/
def Dev.lcsLast (d : Dev) (code : Nat) : Dev := (d.put lcsB .LCS_STAT_LAST code).irq .lcs lcsB 0

/-- A fresh nonce: eight free words (R477). -/
def Dev.lcsNonce (d : Dev) : Nat → Dev
  | 0 => d
  | w + 1 => let r := d.takeFree (2 ^ 32); (r.1.setWord (lcsB + 0x60 + 4 * w) r.2).lcsNonce w

/-- Eight words as one number. -/
def Dev.words8 (d : Dev) (a : Nat) : Nat := (List.range 8).foldl (fun v w => v + d.word (a + 4 * w) * 2 ^ (32 * w)) 0

/-- CHAL_REQ comes within 1 s of a failure (R477): judged on system time, or by a free value while none runs and where it has started again since
(notes/assumptions/56.md). -/
def Dev.lcsSoon (d : Dev) : Dev × Bool :=
  match d.lcs.failT with
  | none => (d, false)
  | some t =>
    if d.bit clkB .CLK_STAT_MTB_LOCK = true ∧ d.lcs.failOld = false then (d, decide (d.time < t + 1000000 * usFine))
    else let r := d.takeFree 2; (r.1, r.2 == 1)

/-- CMD CHAL_REQ (R477). -/
def Dev.lcsChal (d : Dev) : Dev :=
  if d.bit lcsB .LCS_STAT_LOCKOUT then d.lcsLast 4
  else
    let r := d.lcsSoon
    if r.2 then r.1.lcsLast 4 else ((r.1.lcsNonce 8).setb lcsB .LCS_STAT_CHAL_VALID true).lcsLast 1

/-- A failed CHECK (R477). -/
def Dev.lcsFail (d : Dev) : Dev :=
  let d := { d with lcs := { d.lcs with failT := some d.time, failOld := false } }.satInc lcsB .LCS_STAT_FAILS
  let d := if 8 ≤ d.get lcsB .LCS_STAT_FAILS then d.setb lcsB .LCS_STAT_LOCKOUT true else d
  d.lcsLast 2

/-- CMD CHECK (R477). -/
def Dev.lcsCheck (d : Dev) : Dev :=
  if ¬ d.bit lcsB .LCS_STAT_CHAL_VALID then d.lcsLast 3
  else
    let ok := d.words8 (lcsB + 0x80) == Config.mac (d.words8 (lcsB + 0x60)) d.fuse.dsn
    let d := d.setb lcsB .LCS_STAT_CHAL_VALID false
    if ok then
      ((({ d with lcs := { d.lcs with session := true, failT := none } }.lcsShow).put lcsB .LCS_STAT_FAILS 0).satInc lcsB .LCS_UNLOCK_CNT_COUNT).lcsLast 1
    else d.lcsFail

/-- An advance that R476 allows. -/
def Dev.advOk (d : Dev) (t : Nat) : Bool :=
  let base := d.fuse.life
  let svc := d.lcs.session
  (t == 1 && base == 0) || (t == 2 && base == 1) || (t == 4 && svc)

/-- CMD ADVANCE (R476). -/
def Dev.lcsAdvance (d : Dev) (t : Nat) : Dev :=
  if ¬ d.advOk t then d.lcsLast 5
  else if d.bstRuns = true ∨ d.junctionOk = false ∨ (t = 1 ∧ d.fuse.key = false) then d.lcsLast 6
  else { d with lcs := { d.lcs with adv := some t } }.setb lcsB .LCS_STAT_BUSY true

/-- ADVANCE_DONE (R476): the fuses hold the new state; RETIRED erases the unlock key. -/
def Dev.advanceDone (d : Dev) : Dev :=
  match d.lcs.adv with
  | some t =>
    let d := { d with lcs := { d.lcs with adv := none, session := d.lcs.session && t != 4 }, fuse := { d.fuse with life := t, key := d.fuse.key && t != 4 } }
    ((d.setb lcsB .LCS_STAT_BUSY false).lcsShow).lcsLast 1
  | none => d

/-- A write of LCS_CTRL with its key (R475 to R477). Answers whether the write is logged as LOCKED: SERVICE entry in a state that has
none, and an advance in RETIRED. While an advance is under way a command has no effect. -/
def Dev.lcsCtrl (d : Dev) (v : Nat) : Dev × Bool :=
  let st := d.lcsState
  if d.bit lcsB .LCS_STAT_BUSY then (d, false)
  else match v % 16 with
  | 1 => if st = 0 ∨ st = 4 then (d, true) else (d.lcsChal, false)
  | 2 => if st = 0 ∨ st = 4 then (d, true) else (d.lcsCheck, false)
  | 3 => if d.lcs.session then (d.lcsEnd.lcsLast 1, false) else (d, false)
  | 4 => if st = 4 then (d, true) else (d.lcsAdvance (v / 256 % 16), false)
  | _ => (d, false)

end Sys2Proof.Machine
end

