-- ==== Sys2Proof/Machine/Msl.lean ====
section
/-! DEFINITION. The sync link (14_system_sync.md): ports, messages, violations, enumeration, alignment, ticks, triggers, barriers,
touchdown, trigger outputs. -/

namespace Sys2Proof.Machine

/-! ### Ports and messages (R342 to R347) -/

/-- MSL_PORT_CTRL of port `q`. -/
def mslPort (q : Nat) : Nat := mslB + 0x100 + 0x40 * q

/-- The base the fields of port `q` are read at. -/
def portB (q : Nat) : Nat := mslB + 0x40 * q

/-- TXN registers of slot `s`. -/
def txnReg (s : Nat) : Nat := txnB + 0x40 * s

/-- MSL_CTRL.EN. -/
def Dev.mslOn (d : Dev) : Bool := d.bit mslB .MSL_CTRL_EN

/-- This device is the root of its canopy (R339). -/
def Dev.isRoot (d : Dev) : Bool := !d.mslOn || d.bit mslB .MSL_STAT_IS_ROOT

/-- MSL_PORT_STAT.STATE (R344): 0 DOWN, 1 TRAIN, 2 CAL, 3 UP, 4 RETRAIN, 5 FENCED. -/
def Dev.portState (d : Dev) (q : Nat) : Nat := d.get (portB q) .MSL_PORT_STAT_STATE

/-- Set the state of a port. -/
def Dev.setPort (d : Dev) (q st : Nat) : Dev := d.put (portB q) .MSL_PORT_STAT_STATE st

/-- A port carries messages: UP, or RETRAIN with its messages resent afterwards (R346). -/
def Dev.portUp (d : Dev) (q : Nat) : Bool := d.portState q == 3 || d.portState q == 4

/-- The downstream ports that are UP. -/
def Dev.children (d : Dev) : List Nat := [1, 2, 3].filter d.portUp

/-- The kinds that take a SEQ (R343). -/
def kindSeq (k : Nat) : Bool := decide (3 ≤ k) && decide (k ≤ 0xB)

/-- The directions in which a kind is legal (R343): is it legal at a port that faces its parent, or its child. -/
def kindLegal (k q : Nat) : Bool :=
  if k = 3 ∨ k = 8 ∨ k = 10 then q != 0 else if k = 4 ∨ k = 5 ∨ k = 7 ∨ k = 9 ∨ k = 11 then q == 0 else true

/-- One bit into the CRC-16 (polynomial 0x1021). -/
def crc16Bit (c : Nat) (b : Bool) : Nat := if (c / 2 ^ 15 % 2 == 1) != b then Nat.xor (c * 2 % 2 ^ 16) 0x1021 else c * 2 % 2 ^ 16

/-- The CRC of bits [127:16] of a message, from the highest bit (R342). -/
def msgCrc (w : Nat) : Nat := (List.range 112).foldl (fun c i => crc16Bit c (bitOf w (127 - i))) 0xFFFF

/-- The 128 bits of a message, with its CRC (R342). -/
def Msg.word (m : Msg) : Nat :=
  let w := m.kind % 16 * 2 ^ 124 + m.seq % 256 * 2 ^ 116 + m.num % 16 * 2 ^ 112 + m.time % 2 ^ 64 * 2 ^ 48 + m.arg % 2 ^ 32 * 2 ^ 16
  w + msgCrc w

/-- A 128-bit message taken apart. -/
def readMsg (w : Nat) : Msg := { kind := w / 2 ^ 124 % 16, seq := w / 2 ^ 116 % 256, num := w / 2 ^ 112 % 16, time := w / 2 ^ 48 % 2 ^ 64, arg := w / 2 ^ 16 % 2 ^ 32 }

/-- Send a message on a port; in RETRAIN one with a SEQ waits to be resent. -/
def Dev.mslSend (d : Dev) (q kind num time arg : Nat) : Dev :=
  let p := d.lport q
  if kindSeq kind then
    let x : Msg := { kind := kind, seq := p.txSeq, num := num, time := time, arg := arg }
    let d := d.setLport q { p with txSeq := (p.txSeq + 1) % 256, unack := p.unack ++ [x] }
    if d.portState q = 4 then d else d.emit (.link q x.word)
  else d.emit (.link q ({ kind := kind, seq := 0, num := num, time := time, arg := arg } : Msg).word)

/-- Send on several ports. -/
def Dev.mslSendAll (d : Dev) (qs : List Nat) (kind num time arg : Nat) : Dev := d.forAll qs (fun d q => d.mslSend q kind num time arg)

/-! ### States of the device (R348 to R351) -/

/-- The monitor of LOST_UPSTREAM, which works while the device is ALIGNED, fails if it is armed (R435). -/
def Dev.upstreamMon (d : Dev) : Dev :=
  if d.get mslB .PG_STAT_STATE = 2 then
    let r := d.evalInj 0x0A 0 4
    if r.2 then (r.1.fltBit mslB 4).faultEvt 0x0A 0 4 [] true else r.1
  else d

/-- Show MSL PG_STAT.STATE: a change into or out of ALIGNED interrupts. -/
def Dev.setSync (d : Dev) (st : Nat) : Dev :=
  let old := d.get mslB .PG_STAT_STATE
  let d := d.put mslB .PG_STAT_STATE st
  (if (old = 2) ≠ (st = 2) then d.irq .msl mslB 0 else d).upstreamMon

/-! ### Enumeration (R341) -/

/-- The devices behind a port. -/
def Dev.behind (d : Dev) (q : Nat) : Nat := d.get (portB q) .MSL_PORT_SUBTREE_DEVICES

/-- Every UP downstream port has reported its size. -/
def Dev.allSized (d : Dev) : Bool := d.children.all (fun q => (d.lport q).sized)

/-- This device's subtree. -/
def Dev.subtree (d : Dev) : Nat := 1 + d.children.foldl (fun a q => a + d.behind q) 0

/-- A member reports its subtree upward once it knows it. -/
def Dev.reportSize (d : Dev) : Dev :=
  if d.isRoot ∨ d.allSized = false ∨ d.portUp 0 = false then d
  else (d.put mslB .MSL_SUBTREE_DEVICES d.subtree).mslSend 0 10 0 0 d.subtree

/-- The children of a device with an ID and a depth get theirs, in port order. -/
def Dev.assignChildren (d : Dev) (id depth : Nat) : Dev :=
  (d.children.foldl (fun (acc : Dev × Nat) q => (acc.1.mslSend q 11 0 0 (acc.2 % 2 ^ 14 + Nat.min 15 (depth + 1) * 2 ^ 16), acc.2 + acc.1.behind q)) (d, id + 1)).1

/-- An enumeration ends here: ENUM_DONE, and ticks count from 0 again (R353). -/
def Dev.enumEnd (d : Dev) : Dev := { d.irq .msl mslB 7 with lnk := { d.lnk with tickN := 0, tickX := 0 } }

/-- This device has its ID. -/
def Dev.takeId (d : Dev) (id depth : Nat) : Dev :=
  (((d.setb mslB .MSL_STAT_ID_VALID true).put mslB .MSL_STAT_ID id).put mslB .MSL_STAT_DEPTH depth).enumEnd

/-- The enumeration has failed, as far as this device sees: it has no ID. -/
def Dev.noId (d : Dev) : Dev := (d.setb mslB .MSL_STAT_ID_VALID false).enumEnd

/-- An ENUM_ASSIGN (R341): the device takes its ID and assigns its children, or fails with them if it, or a child of its own, lies
deeper than 9 hops. -/
def Dev.enumAssign (d : Dev) (id depth : Nat) : Dev :=
  let deep := decide (9 < depth) || (depth == 9 && !d.children.isEmpty)
  (if deep then d.noId else d.takeId id depth).assignChildren id depth

/-! ### Ticks (R353 to R355) -/

/-- A lead in force (R362): at least 2 µs. -/
def leadOf (v : Nat) : Nat := Nat.max 0xC80 v * 1024

/-- The first MTB tick after now. -/
def Dev.nextTick (d : Dev) : Nat := (d.time / 1024 + 1) * 1024

/-- An event with effect time `eff`, known from now on: one that is late acts on the first MTB tick after its arrival (R355, R356). -/
def Dev.linkEv (d : Dev) (num eff : Nat) (late : Bool) : LEv := { eff := eff, num := num, late := late, from_ := if late then d.nextTick else 0 }

/-- When an event acts: at its effect time or the tick its late arrival leaves it, or on the next tick if system time has passed that. -/
def LEv.due (e : LEv) (now : Nat) : Nat := if now ≤ Nat.max e.eff e.from_ then Nat.max e.eff e.from_ else tickUp now

/-- SYSTICK commits that are PENDING and have no tick yet apply on this one (R354). -/
def Dev.tickAssign (d : Dev) (eff : Nat) : Dev :=
  d.forAll (List.range 8) (fun d s =>
    let x := d.slot s
    if d.get (txnReg s) .TXN_STAT_STATE = 3 ∧ x.point = 3 ∧ x.tick.isNone = true then d.setSlot s { x with tick := some eff } else d)

/-- A tick is issued here, or has arrived: its number, its effect time, and whether it is late (R354, R355). -/
def Dev.tickSeen (d : Dev) (num eff : Nat) (late : Bool) : Dev :=
  let d := if num ≠ d.lnk.tickX then d.setb mslB .MSL_EVT_TICK_GAP true else d
  let d := ((d.put mslB .MSL_LAST_TICK_TIME eff).put mslB .MSL_TICK_NUM_NUM num).irq .msl mslB 1
  let d := if late then (d.satInc mslB .MSL_TICK_LATE_CNT_COUNT).irq .msl mslB 2 else d
  let d := { d with lnk := { d.lnk with tickX := (num + 1) % 2 ^ 32, ticks := d.lnk.ticks ++ [d.linkEv num eff late] } }
  d.tickAssign eff

/-- The root issues a tick at an issue time (R353). -/
def Dev.tickIssue (d : Dev) (ti : Nat) : Dev :=
  let eff := ti + leadOf (d.get mslB .MSL_TICK_LEAD_TICKS)
  let n := d.lnk.tickN
  let d := { d with lnk := { d.lnk with tickN := (n + 1) % 2 ^ 32 } }
  (d.tickSeen n eff false).mslSendAll d.children 5 0 eff n

/-- MSL_TICK_REQ.GO (R353). -/
def Dev.tickReq (d : Dev) : Dev := if d.isRoot then d.tickIssue (tickUp d.time) else d.setb mslB .MSL_EVT_TICK_REQ_REFUSED true

/-! ### Barriers: arrival (R359) -/

/-- The generation of a barrier. -/
def Dev.barGen (d : Dev) (b : Nat) : Nat := Tab.get (fun _ => 0) d.lnk.gens b

/-- The device and every UP downstream port have arrived. -/
def Dev.barDone (d : Dev) (b : Nat) : Bool :=
  (bitOf d.lnk.arrived b || !(d.bitN mslB .MSL_BAR_CFG_EN b)) && d.children.all (fun q => bitOf (d.lport q).bars b)

/-- A downstream port is FENCED or DOWN: it counts as arrived and marks the release PARTIAL. -/
def Dev.barPartial (d : Dev) : Bool := [1, 2, 3].any (fun q => d.portState q == 0 || d.portState q == 5)

/-- A barrier that is complete here goes up, or is released at the root; not while a release of it waits for its effect time. -/
def Dev.barCheck (d : Dev) (b : Nat) : Dev :=
  if bitOf d.lnk.sent b ∨ d.barDone b = false ∨ d.lnk.rels.any (fun e => e.num == b) = true then d
  else
    let g := d.barGen b % 2 ^ 16
    if d.isRoot then
      let ti := tickUp d.time
      let eff := ti + leadOf (d.get mslB .MSL_TICK_LEAD_TICKS)
      let part := d.barPartial
      let tick := d.bitN mslB .MSL_BAR_CFG_TICK b
      let d := { d with lnk := { d.lnk with sent := setBits d.lnk.sent b 1 1, rels := d.lnk.rels ++ [({ eff := eff, num := b, partial_ := part } : LEv)] } }
      let d := d.mslSendAll d.children 9 b eff (g + (if part then 2 ^ 16 else 0) + (if tick then 2 ^ 17 else 0))
      if tick then d.tickIssue ti else d
    else if d.portUp 0 then
      { d with lnk := { d.lnk with sent := setBits d.lnk.sent b 1 1 } }.mslSend 0 8 b 0 g
    else d

/-- Look again at every barrier: at a member one in which it takes no part counts as arrived at once; at the root some arrival must have
come. -/
def Dev.barAll (d : Dev) : Dev :=
  d.forAll (List.range 8) (fun d b =>
    if d.isRoot = false ∨ bitOf d.lnk.arrived b = true ∨ d.children.any (fun q => bitOf (d.lport q).bars b) = true then d.barCheck b else d)

/-! ### Ports leave UP (R344 to R347, R351) -/

/-- Port 0 of a member leaves UP: HOLDOVER, and LOST_UPSTREAM if the device was ALIGNED (R351, R362). -/
def Dev.leaveUp (d : Dev) (q : Nat) : Dev :=
  if q = 0 ∧ d.portState 0 = 3 ∧ d.isRoot = false then
    let d := if d.get mslB .PG_STAT_STATE = 2 then (d.fltBit mslB 4).faultSrc 0x0A 0 4 else d
    d.setSync 3
  else d

/-- A port goes to DOWN or FENCED and drops its subtree (R347); at a downstream port the barriers that waited for it go on (R359), and
a member whose subtree that completes or changes reports its size (R341). -/
def Dev.portDrop (d : Dev) (q st : Nat) : Dev :=
  let report := q != 0 && (st == 5 || (d.portUp q && !(d.lport q).sized))
  let d := d.leaveUp q
  let d := ((d.setLport q {}).put (portB q) .MSL_PORT_SUBTREE_DEVICES 0).setPort q st
  let d := if q = 0 ∧ d.isRoot = false then { d with lnk := { d.lnk with sent := 0 } } else d
  (if report then d.reportSize else d).barAll

/-- A port enters RETRAIN (R344, R346). -/
def Dev.retrain (d : Dev) (q : Nat) : Dev := ((d.leaveUp q).setPort q 4).satInc (portB q) .MSL_PORT_RETRAIN_CNT_COUNT

/-- A port is FENCED (R347); port 0 then leaves a member in HOLDOVER. -/
def Dev.fence (d : Dev) (q : Nat) : Dev :=
  let d := d.portDrop q 5
  let d := ((d.fltBit mslB q).irq .msl mslB 6).faultSrc 0x0A 0 q
  if q = 0 ∧ d.isRoot = false then d.setSync 3 else d

/-- Count and capture a violation (R345, R347): the state after it, and whether the port is now FENCED. -/
def Dev.violCount (d : Dev) (q cause w : Nat) : Dev × Bool :=
  let b := portB q
  let d := (d.satInc b .MSL_PORT_VIOL_CNT_COUNT).irq .msl mslB 5
  let d := if d.bit b .MSL_PORT_VIOL_FIRST_VALID then d
    else
      let d := (d.setb b .MSL_PORT_VIOL_FIRST_VALID true).put b .MSL_PORT_VIOL_FIRST_CAUSE cause
      d.forAll [0, 1, 2, 3] (fun d i => d.put (b + 4 * i) .MSL_PORT_VIOL_MSG_BITS (w / 2 ^ (32 * i)))
  let d := d.satInc b .MSL_PORT_STAT_CONSEC
  if 16 ≤ d.get b .MSL_PORT_STAT_CONSEC then (d.fence q, true) else (d, false)

/-- A violation by the partner (R345, R346): NAK, then a retrain, or FENCED. -/
def Dev.violation (d : Dev) (q cause w : Nat) : Dev :=
  let r := d.violCount q cause w
  if r.2 then r.1
  else (r.1.mslSend q 2 0 0 (((r.1.lport q).rxSeq + 255) % 256 + cause * 256)).retrain q

/-- A port is UP: a downstream one awaits its subtree's size; through port 0 a device that was the root as AUTO becomes a member
(R340), reports its subtree, and sends the arrivals it has held back. -/
def Dev.portIsUp (d : Dev) (q : Nat) : Dev :=
  let d := ((d.setPort q 3).setb (portB q) .MSL_PORT_CTRL_RETRAIN false).setLport q { d.lport q with cald := true }
  if q = 0 then
    let d := ((d.setb mslB .MSL_STAT_IS_ROOT false).setb mslB .MSL_STAT_ENUM_FAIL false).faultEnd 0x0A 0 4
    ({ d with lnk := { d.lnk with up0 := true } }.reportSize).barAll
  else d

/-! ### Alignment (R349, R350) -/

/-- The child sends a DELAY_REQ and stamps its departure. -/
def Dev.delayReq (d : Dev) : Dev := (d.setLport 0 { d.lport 0 with t1 := some d.time }).mslSend 0 3 0 0 0

/-- A calibration of 16 exchanges begins. -/
def Dev.calExchange (d : Dev) : Dev := (d.setLport 0 { d.lport 0 with xN := 0, xD := 0, xE := 0, single := false }).delayReq

/-- One exchange is complete: the response arrives at t4, which is now. The one after a retrain sends port 0 to CAL, and the device to
SYNCING, if the delay has moved by more than 16 fine units (R346); it is compared doubled, as R / 2 need not be whole. -/
def Dev.delayRsp (d : Dev) (t2 turn : Nat) : Dev :=
  let p := d.lport 0
  match p.t1 with
  | none => d
  | some t1 =>
    let r : Int := ((d.time : Int) - t1) - turn
    if p.single then
      let d := d.setLport 0 { p with t1 := none, single := false }
      let moved := 32 < (r + 2 * d.sget (portB 0) .MSL_PORT_ASYM_ASYM - 2 * d.sget (portB 0) .MSL_PORT_DELAY_D).natAbs
      if moved then ((d.setPort 0 2).setSync 1).calExchange else d
    else
      let d := d.setLport 0 { p with t1 := none, xN := p.xN + 1, xD := p.xD + r, xE := p.xE + ((t2 + turn : Nat) - (d.time : Int)) }
      if p.xN + 1 < 16 then d.delayReq else d

/-- A step backward of system time is permitted (R350). -/
def Dev.mayStepBack (d : Dev) : Bool :=
  !(d.allCtx.any d.ctxOwning) && (List.range 8).all (fun s => !(d.get (txnReg s) .TXN_STAT_STATE == 3 && (d.slot s).point == 3))

/-- System time takes up an error: a step in the CAL after training where it is permitted, else a slew (R350). -/
def Dev.takeUp (d : Dev) (cal : Bool) (e : Int) : Dev :=
  if cal ∧ e ≠ 0 ∧ (0 < e ∨ d.mayStepBack = true) then { d with time := ((d.time : Int) + e).toNat, lnk := { d.lnk with slew := 0 } }.setb mslB .MSL_EVT_STEPPED true
  else { d with lnk := { d.lnk with slew := e } }

/-- ALIGNED while |e| ≤ 2 fine units; an offset beyond ±100 ppb keeps the member SYNCING (R348, R350). -/
def Dev.judgeAlign (d : Dev) (e ppb : Int) : Dev :=
  if 100 < ppb.natAbs then ((d.fltBit mslB 5).faultSrc 0x0A 0 5).setSync 1
  else (d.faultEnd 0x0A 0 5).setSync (if e.natAbs ≤ 2 then 2 else 1)

/-! ### Trigger outputs (R360) -/

/-- The base the fields of trigger output `i` are read at (MSL_TOUT_CFG0). -/
def toutB (i : Nat) : Nat := mslB + 4 * i

/-- The source of a trigger output; 0 LEVEL. -/
def Dev.toutSrc (d : Dev) (i : Nat) : Nat := if 4 < d.get (toutB i) .MSL_TOUT_CFG0_SRC then 0 else d.get (toutB i) .MSL_TOUT_CFG0_SRC

/-- The length of a pulse in fine units: WIDTH × 10 ns, with WIDTH 0 as 1. -/
def Dev.toutWidth (d : Dev) (i : Nat) : Nat := Nat.max 1 (d.get (toutB i) .MSL_TOUT_CFG0_WIDTH) * 16384

/-- A pulse of a trigger output is in progress. -/
def Dev.toutOn (d : Dev) (i : Nat) : Bool := d.lnk.pulses.any (fun p => p.1 == i)

/-- A pulse starts on a trigger output, 24 ns after its event; pulses that overlap merge. -/
def Dev.toutPulse (d : Dev) (i : Nat) : Dev :=
  let t := d.time + 39322
  let on := d.toutOn i
  let d := { d with lnk := { d.lnk with pulses := d.lnk.pulses ++ [(i, t + d.toutWidth i)] } }
  if on then d else d.emit (.trig i true t)

/-- An event reaches the trigger outputs: source code, and a trigger or barrier number. -/
def Dev.toutFire (d : Dev) (src num : Nat) : Dev :=
  d.forAll [0, 1] (fun d i =>
    if d.toutSrc i = src ∧ (src = 2 ∨ src = 3 ∨ d.get (toutB i) .MSL_TOUT_CFG0_NUM = num) then d.toutPulse i else d)

/-- A write of MSL_TOUT_CFG: with SRC LEVEL the output takes LEVEL, else it is high in a pulse. -/
def Dev.toutWrite (d : Dev) (i : Nat) : Dev :=
  d.emit (.trig i (if d.toutSrc i = 0 then d.bit (toutB i) .MSL_TOUT_CFG0_LEVEL else d.toutOn i) d.time)

/-- TRIG_OUT_PULSE_END (R360): the pulse of an output that started first ends; the output falls with the last. -/
def Dev.trigOutEnd (d : Dev) (i : Nat) : Dev :=
  match d.lnk.pulses.find? (fun p => p.1 == i) with
  | none => d
  | some p =>
    let d := { d with time := Nat.max d.time p.2, lnk := { d.lnk with pulses := d.lnk.pulses.erase p } }
    if d.toutOn i ∨ d.toutSrc i = 0 then d else d.emit (.trig i false p.2)

/-! ### Triggers (R356) -/

/-- A trigger is scheduled; one with the same number and effect time, acted or not, is the same event (R357). -/
def Dev.trigSchedule (d : Dev) (n eff : Nat) (late : Bool) : Dev :=
  let d := if late then (d.satInc mslB .MSL_TRIG_LATE_CNT_COUNT).irq .msl mslB 3 else d
  if d.lnk.trigs.any (fun e => e.num == n && e.eff == eff) || d.lnk.acted.contains (n, eff) then d
  else { d with lnk := { d.lnk with trigs := d.lnk.trigs ++ [d.linkEv n eff late] } }

/-- This device raises a trigger at a raise time. -/
def Dev.trigRaise (d : Dev) (n t : Nat) : Dev :=
  let eff := t + leadOf (d.get mslB .MSL_TRIG_LEAD_TICKS)
  (d.trigSchedule n eff false).mslSendAll ([0, 1, 2, 3].filter d.portUp) 6 n eff 0

/-- A write of MSL_TRIG_RAISE. -/
def Dev.trigRaises (d : Dev) (v : Nat) : Dev := d.forAll ((List.range 16).filter (bitOf v)) (fun d n => d.trigRaise n (tickUp d.time))

/-! ### Touchdown (R16, R358) -/

/-- The touchdown event reaches the device: slices are abandoned, tables staged for it activate, and the wakes are requested. -/
def Dev.touchdown (d : Dev) : Dev :=
  let d := d.calClose
  let d := d.forAll d.clusters (fun d n =>
    let d := d.calCut n
    let d := if d.bit (pwrB + 0x10 * n) .PWR_CL_CFG_TD_WAKE then
        (if (d.clu n).bst.isSome then d.wakePush n true false 0 else d.wakeReq n)
      else d
    d.calTouchdown n)
  (d.irq .msl mslB 8).toutFire 3 0

/-- A touchdown event raised here with an issue time: the root sends it to every device, a member keeps it (R358). -/
def Dev.tdRaise (d : Dev) (ti : Nat) : Dev :=
  let d := if d.isRoot then
      let n := d.lnk.tdN
      { d with lnk := { d.lnk with tdN := (n + 1) % 2 ^ 32 } }.mslSendAll d.children 7 0 ti n
    else d
  d.touchdown

/-! ### Barriers: release (R359) -/

/-- A write of MSL_BAR_ARRIVE; a second arrival before the release is ignored. -/
def Dev.barArrive (d : Dev) (v : Nat) : Dev :=
  d.forAll ((List.range 8).filter (bitOf v)) (fun d b =>
    if bitOf d.lnk.arrived b then d
    else
      let d := { d with lnk := { d.lnk with arrived := setBits d.lnk.arrived b 1 1 } }
      (d.setBitN mslB .MSL_BAR_STAT_WAITING b true).barCheck b)

/-- BARRIER_RELEASE_EFFECT (R359): the effect time of a release. -/
def Dev.barReleaseEffect (d : Dev) (b : Nat) : Dev :=
  match d.lnk.rels.find? (fun e => e.num == b) with
  | none => d
  | some e =>
    let d := { d with time := Nat.max d.time e.eff }
    let l := d.lnk
    let d := { d with lnk := { l with rels := l.rels.erase e, arrived := setBits l.arrived b 1 0, sent := setBits l.sent b 1 0, gens := Tab.set (fun _ => 0) l.gens b ((d.barGen b + 1) % 2 ^ 16) } }
    let d := d.forAll [1, 2, 3] (fun d q => d.setLport q { d.lport q with bars := setBits (d.lport q).bars b 1 0 })
    let d := (d.setBitN mslB .MSL_BAR_STAT_WAITING b false).setBitN mslB .MSL_BAR_STAT_PARTIAL b e.partial_
    ((d.irq .msl mslB 4).toutFire 4 b).barAll

/-! ### Training (R340, R344) -/

/-- The TRAIN message of a port. -/
def Dev.sendTrain (d : Dev) (q : Nat) : Dev :=
  d.mslSend q 12 0 0 ((if q = 0 then 0 else 256) + (if d.get mslB .MSL_CTRL_ROLE = 1 then 512 else 0))

/-- A port begins to train. -/
def Dev.trainBegin (d : Dev) (q : Nat) : Dev := (d.setPort q 1).sendTrain q

/-- A TRAIN message in TRAIN (R340): success leads to CAL, a refusal is a ROLE violation and leads to DOWN. -/
def Dev.trainRx (d : Dev) (q arg w : Nat) : Dev :=
  let mine := q != 0
  let theirs := bitOf arg 8
  let root := d.get mslB .MSL_CTRL_ROLE = 1
  if mine = theirs ∨ (q = 0 ∧ root) ∨ (theirs = false ∧ bitOf arg 9 = true) then
    let r := d.violCount q 4 w
    let d := if q = 0 ∧ root then r.1.setb mslB .MSL_EVT_ROOT_UPLINK true else r.1
    if r.2 then d else d.setPort q 0
  else
    let d := ((d.setLport q {}).put (portB q) .MSL_PORT_STAT_CONSEC 0).setPort q 2
    if q ≠ 0 then d else (if d.isRoot then d else d.setSync 1).calExchange

/-! ### Messages (R343, R345) -/

/-- A message that has been accepted. -/
def Dev.msgAct (d : Dev) (q : Nat) (x : Msg) (turn w : Nat) : Dev :=
  match x.kind with
  | 1 => let p := d.lport q
         d.setLport q { p with unack := if p.unack.any (fun y => y.seq == x.arg % 256) then (p.unack.dropWhile (fun y => y.seq != x.arg % 256)).drop 1 else p.unack }
  | 2 => let p := d.lport q
         let d := d.setLport q { p with unack := if p.unack.any (fun y => y.seq == x.arg % 256) then (p.unack.dropWhile (fun y => y.seq != x.arg % 256)).drop 1 else p.unack }
         d.retrain q
  | 3 =>
    let n := (d.lport q).xN + 1
    let d := (d.setLport q { d.lport q with xN := n }).mslSend q 4 0 d.time turn
    if d.portState q = 2 ∧ 16 ≤ n then d.portIsUp q else d
  | 4 => d.delayRsp x.time x.arg
  | 5 =>
    let late := decide (x.time ≤ d.time)
    (d.tickSeen x.arg x.time late).mslSendAll d.children 5 0 x.time x.arg
  | 6 => (d.trigSchedule x.num x.time (decide (x.time < d.time))).mslSendAll ([0, 1, 2, 3].filter (fun p => p != q && d.portUp p)) 6 x.num x.time 0
  | 7 => (d.mslSendAll d.children 7 0 x.time x.arg).touchdown
  | 8 => if 8 ≤ x.num then d else (d.setLport q { d.lport q with bars := setBits (d.lport q).bars x.num 1 1 }).barCheck x.num
  | 9 =>
    if 8 ≤ x.num then d
    else { d with lnk := { d.lnk with rels := d.lnk.rels ++ [({ eff := x.time, num := x.num, partial_ := bitOf x.arg 16 } : LEv)] } }.mslSendAll d.children 9 x.num x.time x.arg
  | 10 => ((d.setLport q { d.lport q with sized := true }).put (portB q) .MSL_PORT_SUBTREE_DEVICES (x.arg % 2 ^ 15)).reportSize
  | 11 => (d.enumAssign (x.arg % 2 ^ 14) (x.arg / 2 ^ 16 % 16)).barAll
  | 12 => if d.portState q = 1 then d.trainRx q x.arg w else d
  | _ => d

/-- The violation a message is (R345), the first in the order CRC, KIND, ROLE, SEQ, TIME; 0 for none, and 9 for a duplicate. -/
def Dev.msgJudge (d : Dev) (q w : Nat) (x : Msg) : Nat :=
  let p := d.lport q
  let back := (p.rxSeq + 256 - x.seq) % 256
  if msgCrc w ≠ w % 2 ^ 16 then 1
  else if 13 ≤ x.kind then 2
  else if ¬ kindLegal x.kind q then 4
  else if kindSeq x.kind ∧ back ≠ 0 then (if back ≤ p.rxN then 9 else 3)
  else if (x.kind = 5 ∨ x.kind = 6 ∨ x.kind = 9) ∧ d.time + 2 ^ 31 < x.time then 6
  else 0

/-- A message of a command's kind arrives on a port (R342 to R345). A port that is DOWN, FENCED or in RETRAIN takes none, one in TRAIN
only TRAIN. A word of another legal kind is not this command's message. -/
def Dev.linkRx (d : Dev) (q code w turn : Nat) : Dev :=
  let x := readMsg w
  let st := d.portState q
  let v := d.msgJudge q w x
  if st = 0 ∨ st = 4 ∨ st = 5 ∨ (st = 1 ∧ code ≠ 12) then d
  else if v ≠ 1 ∧ v ≠ 2 ∧ x.kind ≠ code then d
  else if v = 9 then d.mslSend q 1 0 0 (((d.lport q).rxSeq + 255) % 256)
  else if v ≠ 0 then (if st = 1 then (d.violCount q v w).1 else d.violation q v w)
  else
    let d := if st = 1 then d else d.put (portB q) .MSL_PORT_STAT_CONSEC 0
    let d := if kindSeq x.kind then (d.setLport q { d.lport q with rxSeq := (x.seq + 1) % 256, rxN := Nat.min 128 ((d.lport q).rxN + 1) }).mslSend q 1 0 0 x.seq else d
    d.msgAct q x turn w

/-! ### Register writes -/

/-- The state of an enabled device under its role (R339, R351): ROOT is the root and leaves a port 0 that carried or trained; MEMBER is
none, and in HOLDOVER while port 0 is not UP; AUTO keeps what it is. -/
def Dev.takeRole (d : Dev) : Dev :=
  match d.get mslB .MSL_CTRL_ROLE with
  | 1 =>
    let d := (d.setb mslB .MSL_STAT_IS_ROOT true).setSync 4
    if d.portState 0 = 0 ∨ d.portState 0 = 5 then d else d.portDrop 0 0
  | 2 => if d.bit mslB .MSL_STAT_IS_ROOT ∨ d.lnk.up0 = false then (d.setb mslB .MSL_STAT_IS_ROOT false).setSync 3 else d
  | _ => d

/-- A write of MSL_CTRL (R339). -/
def Dev.mslCtrl (d : Dev) (v : Nat) : Dev :=
  let was := d.mslOn
  let d := (d.put mslB .MSL_CTRL_ROLE (v % 4)).setb mslB .MSL_CTRL_EN (bitOf v 31)
  if bitOf v 31 then (if was then d else { d.setSync 1 with lnk := { d.lnk with up0 := false } }).takeRole
  else if was then
    let d := d.forAll [0, 1, 2, 3] (fun d q => (d.setLport q {}).setPort q 0)
    let d := ((d.setb mslB .MSL_STAT_ID_VALID false).setb mslB .MSL_STAT_IS_ROOT false).setb mslB .MSL_STAT_ENUM_FAIL false
    let d := d.forAll [1, 2, 3] (fun d q => d.put (portB q) .MSL_PORT_SUBTREE_DEVICES 0)
    ((((d.put mslB .MSL_STAT_ID 0).put mslB .MSL_STAT_DEPTH 0).put mslB .MSL_SUBTREE_DEVICES 1).setSync 0).barAll
  else d

/-- A write of MSL_PORT_CTRL (R344, R363). -/
def Dev.mslPortCtrl (d : Dev) (q v : Nat) : Dev :=
  let d := d.setb (portB q) .MSL_PORT_CTRL_EN (bitOf v 31)
  let st := d.portState q
  if ¬ bitOf v 31 then (if st = 0 then d else d.portDrop q 0)
  else if bitOf v 1 ∧ st = 5 then ((d.faultEnd 0x0A 0 q).put (portB q) .MSL_PORT_STAT_CONSEC 0).trainBegin q
  else if bitOf v 0 ∧ st = 3 then (d.setb (portB q) .MSL_PORT_CTRL_RETRAIN true).retrain q
  else d

/-- A write of a word of MSL_CTX_TRIG (R364): the nibble of an owning context stays. Answers whether one did. -/
def Dev.ctxTrigWrite (d : Dev) (j v : Nat) : Dev × Bool :=
  let a := mslB + 0x800 + 4 * j
  let old := d.word a
  let r := (List.range 8).foldl (fun (acc : Nat × Bool) i =>
    let o := old / 16 ^ i % 16
    let n := v / 16 ^ i % 16
    if o ≠ n ∧ d.ctxOwning (8 * j + i) = true then (acc.1 + o * 16 ^ i, true) else (acc.1 + n * 16 ^ i, acc.2)) (0, false)
  (d.setWord a r.1, r.2)

/-! ### Meanings -/

/-- AUTO_ROOT_TIMEOUT (R339). -/
def Dev.autoRootTimeout (d : Dev) : Dev :=
  let role := d.get mslB .MSL_CTRL_ROLE
  if ¬ d.mslOn ∨ d.isRoot = true ∨ role = 1 ∨ role = 2 ∨ d.lnk.up0 = true then d
  else (d.setb mslB .MSL_STAT_IS_ROOT true).setSync 4

/-- PORT_SIGNAL (R344). -/
def Dev.portSignal (d : Dev) (q : Nat) : Dev :=
  if d.mslOn ∧ d.bit (portB q) .MSL_PORT_CTRL_EN = true ∧ d.portState q = 0 then d.trainBegin q else d

/-- TRAIN_TIMEOUT (R344). -/
def Dev.trainTimeout (d : Dev) (q : Nat) : Dev := if d.portState q = 1 then d.setPort q 0 else d

/-- ENUMERATION (R341): the root numbers the canopy once every enabled port of it is UP, a downstream one with its size reported, or
FENCED. -/
def Dev.enumeration (d : Dev) : Dev :=
  let ready := [0, 1, 2, 3].all (fun q => !(d.bit (portB q) .MSL_PORT_CTRL_EN) || d.portUp q || d.portState q == 5)
  if ¬ d.mslOn ∨ d.isRoot = false ∨ ready = false ∨ d.allSized = false then d
  else
    let n := d.subtree
    let d := d.put mslB .MSL_SUBTREE_DEVICES n
    if 16384 < n then (d.setb mslB .MSL_STAT_ENUM_FAIL true).noId else (d.setb mslB .MSL_STAT_ENUM_FAIL false).enumAssign 0 0

/-- SYNC_LOSS (R345). -/
def Dev.syncLoss (d : Dev) (q w : Nat) : Dev :=
  let st := d.portState q
  if st = 2 ∨ st = 3 then d.violation q 5 w else if st = 1 then (d.violCount q 5 w).1 else d

/-- RETRAIN_DONE (R346): messages are resent, and the port is UP again, or in CAL if it was never UP. Through port 0 the device realigns,
and the one exchange that follows judges the delay; at a downstream port, which measures none, `moved` says that the partner has judged
it moved. -/
def Dev.retrainDone (d : Dev) (q : Nat) (moved : Bool) : Dev :=
  if d.portState q ≠ 4 then d
  else
    let cal := !(d.lport q).cald || (moved && q != 0)
    let d := (d.lport q).unack.foldl (fun d x => d.emit (.link q x.word)) d
    let d := if cal then d.setPort q 2 else d.portIsUp q
    if q ≠ 0 then d.setLport q { d.lport q with xN := 0 }
    else
      let d := if d.isRoot then d else d.setSync 1
      if cal then d.calExchange else (d.setLport 0 { d.lport 0 with single := true }).delayReq

/-- CAL_PERIOD (R349). -/
def Dev.calPeriod (d : Dev) : Dev := if d.mslOn ∧ d.isRoot = false ∧ d.portState 0 = 3 then d.calExchange else d

/-- DELAY_CAL_DONE (R348 to R350): the 16 exchanges are averaged, system time takes the error up, and alignment is judged with the
measured REFCLK offset. -/
def Dev.delayCalDone (d : Dev) (ppb : BitVec 32) : Dev :=
  let p := d.lport 0
  if p.xN ≠ 16 then d
  else
    let d := d.setLport 0 { p with xN := 0 }
    let asym := d.sget (portB 0) .MSL_PORT_ASYM_ASYM
    let e := roundFree 3 (2 * p.xE + p.xD) 32 + asym
    let d := (d.put (portB 0) .MSL_PORT_DELAY_D (toBits 32 (roundFree 3 p.xD 32 + asym))).put mslB .MSL_ALIGN_ERR_ERR (toBits 32 e)
    let cal := decide (d.portState 0 = 2)
    let d := (d.put mslB .MSL_FREQ_OFS_PPB ppb.toNat).takeUp (cal && !p.cald) e
    (if cal then d.portIsUp 0 else d).judgeAlign e ppb.toInt

/-- TIME_SLEW (R350): an MTB tick in which the count moves by one fine unit more, or less, than it counts: it never runs backward. -/
def Dev.timeSlew (d : Dev) : Dev :=
  let s := d.lnk.slew
  if s = 0 then d
  else if 0 < s then { d with time := d.time + 1025, lnk := { d.lnk with slew := s - 1 } }
  else { d with time := d.time + 1023, lnk := { d.lnk with slew := s + 1 } }

/-- PORT_DOWN (R344, R351). -/
def Dev.portDown (d : Dev) (q : Nat) : Dev :=
  let st := d.portState q
  if st = 0 ∨ st = 5 then d else d.portDrop q 0

end Sys2Proof.Machine
end

