-- ==== Sys2Proof/Machine/Pmc.lean ====
section
/-! DEFINITION. Performance counters (21_performance_counters.md): dumps, the sample buffer, register writes. -/

namespace Sys2Proof.Machine

/-- LOG2 of the dump ring as it acts (R465). -/
def Dev.dumpLog (d : Dev) : Nat := Nat.min 12 (Nat.max 1 (d.get pmcB .PMC_DUMP_CTRL_LOG2))

/-- K as it acts (R465). -/
def Dev.dumpK (d : Dev) : Nat := Nat.min 20 (d.get pmcB .PMC_DUMP_CTRL_K)

/-- PROD − CONS of the dump ring, modulo 2^32. -/
def Dev.dumpUsed (d : Dev) : Nat := (d.get pmcB .PMC_DUMP_PROD_PROD + 2 ^ 32 - d.get pmcB .PMC_DUMP_CONS_CONS) % 2 ^ 32

/-- A dump cannot be written: the ring is full, or host memory is out of reach. -/
def Dev.dumpFull (d : Dev) : Bool := d.dumpUsed == 2 ^ d.dumpLog || !d.dmaUp

/-- Dumps are on and the MTB runs. -/
def Dev.dumpOn (d : Dev) : Bool := d.bit pmcB .PMC_DUMP_CTRL_EN && d.bit clkB .CLK_STAT_MTB_LOCK

/-- One more dump has been taken. -/
def Dev.dumpCount (d : Dev) : Dev := { d with dumps := (d.dumps + 1) % 2 ^ 32 }

/-- The 64 bytes of cluster `n` in a dump (R463): the fields are 56 bytes, and the value of the last 8 is free (notes/assumptions/57.md). -/
def Dev.dumpCluster (d : Dev) (n : Nat) : List Word :=
  let b := pmccBase n
  if ¬ d.present n then List.replicate 13 0 ++ [4, 0, 0]
  else
    let w := fun (f : Fld) => wordsOf (d.get b f) 2
    w .PMC_RETIRED_COUNT ++ w .PMC_WASTED_COUNT ++ w .PMC_FRONT_COUNT ++ w .PMC_BACK_COUNT ++ w .PMC_IDLE_COUNT ++ w .PMC_OPS_COUNT ++
      [BitVec.ofNat 32 (d.get b .PMC_SMP_STAT_LOST), BitVec.ofNat 32 ((if d.bit b .PMC_CTRL_EN then 1 else 0) + (if 2 ≤ d.clState n then 2 else 0))] ++
      (wordsOf (Config.dumpRest d.dumps n) 2)

/-- The system time of a dump (R462): the multiple of 2^K µs that has been reached. -/
def Dev.dumpTime (d : Dev) : Nat := let p := 2 ^ d.dumpK * usFine; d.time / p * p

/-- The words of a dump slot (R463). -/
def Dev.dumpSlot (d : Dev) : List Word :=
  [BitVec.ofNat 32 0x504D4344, BitVec.ofNat 32 d.dumps] ++ wordsOf d.dumpTime 2 ++ [BitVec.ofNat 32 d.fuse.present, BitVec.ofNat 32 d.dumpK,
    BitVec.ofNat 32 (d.get pmcB .PMC_DUMP_SKIP_COUNT)] ++ List.replicate 9 0 ++ (List.range 32).flatMap d.dumpCluster

/-- PMC_DUMP (R462, R463): the dump period ends. -/
def Dev.pmcDump (d : Dev) : Dev :=
  if !d.dumpOn then d
  else if d.dumpFull then
    (d.dumpCount.satInc pmcB .PMC_DUMP_SKIP_COUNT).irq .pmcg pmcB 1
  else
    let p := d.get pmcB .PMC_DUMP_PROD_PROD
    let d := d.emit (.hostWr (d.get pmcB .PMC_DUMP_BASE_BASE * 4096 + 4096 * (p % 2 ^ d.dumpLog)) d.dumpSlot)
    let d := d.dumpCount.put pmcB .PMC_DUMP_PROD_PROD ((p + 1) % 2 ^ 32)
    let a := d.get pmcB .PMC_DUMP_WB_ADDR * 4
    let d := if a ≠ 0 then d.emit (.hostWr a [BitVec.ofNat 32 (p + 1)]) else d
    d.irq .pmcg pmcB 0

/-- PMC_SMP_CLR.GO (R466): the sample buffer is emptied and LOST cleared. -/
def Dev.pmcClr (d : Dev) (n : Nat) : Dev :=
  ((d.dropWords (pmccBase n + 0x400) (pmccBase n + 0x800)).put (pmccBase n) .PMC_SMP_STAT_LOST 0).put (pmccBase n) .PMC_SMP_STAT_LEVEL 0

/-- A capture is lost (R461). -/
def Dev.pmcLost (d : Dev) (n : Nat) : Dev := (d.satInc (pmccBase n) .PMC_SMP_STAT_LOST).irq .pmcc (pmccBase n) 0

/-- A captured sample enters the buffer, or is lost when the buffer is full (R461). -/
def Dev.pmcCopy (d : Dev) (n : Nat) (ws : List Word) : Dev :=
  let k := d.get (pmccBase n) .PMC_SMP_STAT_LEVEL
  if 64 ≤ k then d.pmcLost n
  else ((ws.zipIdx).foldl (fun d p => d.setWord (pmccBase n + 0x400 + k * 16 + 4 * p.2) p.1.toNat) d).put (pmccBase n) .PMC_SMP_STAT_LEVEL (k + 1)

/-- A write of PMC_DUMP_CTRL (R463, R464). Answers whether K or LOG2 would change while EN = 1: that is discarded and logged. -/
def Dev.dumpCtrl (d : Dev) (v : Nat) : Dev × Bool :=
  let en := d.bit pmcB .PMC_DUMP_CTRL_EN
  let on := bitOf v 31
  let chg := d.get pmcB .PMC_DUMP_CTRL_K != v / 2 ^ 16 % 32 || d.get pmcB .PMC_DUMP_CTRL_LOG2 != v % 16
  let d := if en then d else (d.put pmcB .PMC_DUMP_CTRL_K (v / 2 ^ 16)).put pmcB .PMC_DUMP_CTRL_LOG2 v
  let d := (d.setb pmcB .PMC_DUMP_CTRL_EN on).put pmcB .PG_STAT_STATE (if on then 1 else 0)
  let d := if on && !en then ({ d with dumps := 0 }.put pmcB .PMC_DUMP_PROD_PROD 0).put pmcB .PMC_DUMP_CONS_CONS 0 else d
  (d, en && chg)

/-- PMC_DUMP_CONS_WRITE (R463 with the rule of R311): a count that would leave more than the ring holds is discarded. -/
def Dev.dumpCons (d : Dev) (v : Nat) : Dev :=
  if (d.get pmcB .PMC_DUMP_PROD_PROD + 2 ^ 32 - v) % 2 ^ 32 ≤ 2 ^ d.dumpLog then d.put pmcB .PMC_DUMP_CONS_CONS v else d

end Sys2Proof.Machine
end

