-- ==== Sys2Proof/Machine/Acq.lean ====
section
/-! DEFINITION. Acquisition and reduction (11_acquisition_reduction.md): reduction slots, their kinds, pattern triggers, streamed
records with their token buckets, and the numbering of records. -/

namespace Sys2Proof.Machine

/-! ### Slots and records -/

/-- Reduction slot `i` of a context. -/
def Ctx.aslot (x : Ctx) (i : Nat) : ASlot := Tab.get (fun _ => {}) x.slots i

/-- Set a reduction slot. -/
def Ctx.setAslot (x : Ctx) (i : Nat) (s : ASlot) : Ctx := { x with slots := Tab.set (fun _ => {}) x.slots i s }

/-- The ACQ registers of context `c`. -/
def acqCtx (c : Nat) : Nat := acqBase (c / 32) + c % 32 * 0x20

/-- A payload of bytes 8 to 31 from fields, each given as its byte and value. -/
def payAt (fs : List (Nat × Nat)) : List Word := wordsOf (fs.foldl (fun a p => a + p.2 * 2 ^ (8 * (p.1 - 8))) 0) 6

/-- Post a record that is due. -/
def Ctx.post (x : Ctx) (v i type status part : Nat) (fs : List (Nat × Nat)) : Ctx :=
  { x with due := x.due ++ [{ v := v, slot := i, type := type, status := status, part := part, pay := payAt fs }] }

/-- Insert a due record behind those that are numbered before it or with it (R278). -/
def dueInsert (r : Due) : List Due → List Due
  | [] => [r]
  | x :: xs => if r.v < x.v ∨ (r.v = x.v ∧ r.slot < x.slot) then r :: x :: xs else x :: dueInsert r xs

/-- Due records in the order of R278. -/
def dueSort (l : List Due) : List Due := l.foldl (fun a r => dueInsert r a) []

/-- A record takes its number and leaves the acquisition (R304, R305). -/
def Dev.acqRecord (d : Dev) (c : Nat) (r : Due) : Dev :=
  let x := d.cx c
  let w := r.status * 2 ^ 18 + r.part * 2 ^ 11 + r.slot * 2 ^ 8 + r.type
  let w1 := c * 2 ^ 22 + w
  let bytes := wordBytes x.seq ++ wordBytes w ++ r.pay.flatMap (fun y => wordBytes y.toNat)
  let d := d.setCx c { x with seq := (x.seq + 1) % 2 ^ 32, crc := BitVec.ofNat 32 (crcBytes x.crc.toNat bytes) }
  let d := (d.satInc (acqBase (c / 32)) .ACQ_REC_CNT_COUNT).satInc (acqCtx c) .ACQ_C_REC_COUNT
  let d := if r.type = 0x0B then d.irq .acq (acqBase (c / 32)) 2 else d
  d.produce c false (BitVec.ofNat 32 x.seq :: BitVec.ofNat 32 w1 :: r.pay)

/-- Number the due records of the vectors below `upto`. -/
def Dev.acqNumber (d : Dev) (c upto : Nat) : Dev :=
  let all := dueSort (d.cx c).due
  let d := d.setCx c { d.cx c with due := all.filter (fun r => decide (upto ≤ r.v)) }
  (all.filter (fun r => decide (r.v < upto))).foldl (fun d r => d.acqRecord c r) d

/-! ### Token buckets (R300, R301) -/

/-- The token period of a slot in fine units. -/
def ASlot.period (s : ASlot) : Nat := 2 ^ (Nat.max 4 (s.p0 % 32)) * 1024

/-- The bucket at program time `t`. -/
def ASlot.tokens (s : ASlot) (t : Nat) : ASlot :=
  let k := (t - s.tokT) / s.period
  { s with tok := Nat.min 64 (s.tok + k), tokT := s.tokT + k * s.period }

/-- The GAP record of a slot in a gap, at vector `v`. -/
def Ctx.gapRec (x : Ctx) (i v : Nat) : Ctx :=
  let s := x.aslot i
  if s.lost = 0 then x
  else (x.post v i 0x0B 0 0 [(8, s.lost), (16, s.lostF), (24, s.lostL)]).setAslot i { s with lost := 0, lostF := 0, lostL := 0 }

/-- A streamed record is due at vector `v`: it takes a token, or is lost. -/
def Dev.stream (d : Dev) (c i v type part : Nat) (fs : List (Nat × Nat)) : Dev :=
  let x := d.cx c
  let s := (x.aslot i).tokens (v * d.ctxTv c)
  if s.tok = 0 then
    let s := { s with lost := s.lost + 1, lostF := if s.lost = 0 then v else s.lostF, lostL := v }
    ((d.setCx c (x.setAslot i s)).satInc (acqCtx c) .ACQ_C_LOST_COUNT).satInc (acqBase (c / 32)) .ACQ_LOST_CNT_COUNT
  else d.setCx c (((x.setAslot i { s with tok := s.tok - 1 }).gapRec i v).post v i type 0 part fs)

/-! ### Descriptors (R279 to R283) -/

/-- Selected site slots, or range-local device-power channels. -/
def ASlot.selected (s : ASlot) (nslots : Nat) : List Nat :=
  (List.range (if s.src = 3 ∨ s.src = 4 then 8 else nslots)).filter (bitOf s.sel)

/-- FLAGS.PERPIN. -/
def ASlot.perPin (s : ASlot) : Bool := bitOf s.flags 0

/-- The keys of a slot's accumulators: a site slot or channel with PERPIN, else 0xFF. -/
def ASlot.accKeys (s : ASlot) (nslots : Nat) : List Nat := if s.perPin then s.selected nslots else [0xFF]

/-- The units a slot takes from the pool (R280). -/
def ASlot.cost (s : ASlot) (nslots : Nat) : Nat :=
  let k := (s.accKeys nslots).length
  match s.kind with
  | 1 => 1
  | 2 => 2
  | 3 => k
  | 4 => 33
  | 5 => k
  | 6 => (s.ext + 1) * k
  | 7 => 2
  | 8 => 1 + s.ext
  | _ => 0

/-- Nibble `i` of a 512-bit pattern in two extension units. -/
def patNib (us : List Nat) (at_ i : Nat) : Nat := us.getD (at_ + i / 64) 0 / 16 ^ (i % 64) % 16

/-- Sources allowed for a kind (R280). -/
def kindSrc (kind src : Nat) : Bool :=
  match kind with
  | 1 | 2 | 8 => src == 0
  | 3 | 4 | 6 => decide (2 ≤ src) && decide (src ≤ 5)
  | 5 => src == 5
  | 7 => decide (1 ≤ src) && decide (src ≤ 6)
  | _ => false

/-- A descriptor that R280 and R281 allow. -/
def ASlot.ok (s : ASlot) (nslots : Nat) : Bool :=
  let f := match s.kind with | 3 | 5 => 0x01 | 6 => 0x31 | 7 => if s.src = 1 then 0x06 else 0x04 | 8 => 0x08 | _ => 0
  let p0 := match s.kind with
    | 3 | 6 => s.p0 % 2 ^ 25 == 0 && decide (s.p0 < 2 ^ 31)
    | 4 => decide (s.p0 < 2 ^ 31) && decide (s.p0 / 2 ^ 20 % 32 ≤ 19)
    | 2 | 7 => decide (s.p0 < 32)
    | 8 => decide (s.p0 < 3)
    | _ => s.p0 == 0
  let ext := match s.kind with
    | 6 => decide (1 ≤ s.ext) && decide (s.ext ≤ 8)
    | 8 => s.ext == 4 || (s.ext == 2 && s.p0 != 1)
    | _ => s.ext == 0
  let sel := match s.kind with
    | 3 | 5 => !s.perPin || (s.selected nslots) != []
    | 6 => if s.perPin then (s.selected nslots) != [] else (s.selected nslots).length == 1
    | 8 => (List.range 128).all (fun i => decide (patNib s.units 0 i < 8) && (s.ext == 2 || decide (patNib s.units 2 i < 8)))
    | _ => true
  kindSrc s.kind s.src && Nat.land s.flags f == s.flags && p0 && (s.kind == 5 || s.kind == 8 || s.p1 == 0) && ext && sel

/-- Units of the pool in use. -/
def Ctx.poolUsed (x : Ctx) (n : Nat) : Nat :=
  (List.range 8).foldl (fun (a : Nat) (i : Nat) => a + (if (x.aslot i).st = SlSt.live ∨ (x.aslot i).st = SlSt.stopped then (x.aslot i).cost n else 0)) 0

/-- The ACQ registers of a context follow its slots (R303). -/
def Dev.acqShow (d : Dev) (c : Nat) : Dev :=
  let x := d.cx c
  let n := match x.hdr with | some h => h.slots | none => 0
  let code := fun (s : ASlot) => match s.st with | .closed => 0 | .live => 1 | .error => 2 | .stopped => 3
  let sum := fun (k f : Nat) (g : ASlot → Nat) => (List.range k).foldl (fun a i => a + g (x.aslot (f + i)) * 2 ^ (32 / k * i)) 0
  let used := x.poolUsed n
  (((d.put (acqCtx c) .ACQ_C_SLOT_STAT_STATE (sum 8 0 code)).put (acqCtx c) .ACQ_C_POOL_UNITS used).put (acqCtx c) .ACQ_C_DESC0_DESC
    (sum 4 0 (fun s => s.desc % 256))).put (acqCtx c) .ACQ_C_DESC1_DESC (sum 4 4 (fun s => s.desc % 256))

/-! ### Records of EMIT and close -/

/-- All ones of a width in bytes, for a value that is absent. -/
def orOnes (v : Option Nat) (bytes : Nat) : Nat := match v with | some x => x % 256 ^ bytes | none => 256 ^ bytes - 1

/-- An accumulator of a slot. -/
def ASlot.acc (s : ASlot) (k : Nat) : Acc := Tab.get (fun _ => {}) s.accs k

/-- Set an accumulator. -/
def ASlot.setAcc (s : ASlot) (k : Nat) (a : Acc) : ASlot := { s with accs := Tab.set (fun _ => {}) s.accs k a }

/-- Payload of a STATS record (R290). -/
def statsPay (a : Acc) (k : Nat) : List (Nat × Nat) :=
  [(8, a.n), (11, toBits 20 a.mn + toBits 20 a.mx * 2 ^ 20), (16, toBits 48 a.sum), (22, a.sumsq % 2 ^ 64), (30, k), (31, a.flags)]

/-- Payload of a FREQ record (R292). -/
def freqPay (a : Acc) (k : Nat) : List (Nat × Nat) :=
  [(8, toBits 64 a.period), (16, a.lastN), (20, a.meas), (24, a.fails), (28, k), (29, a.verdict), (30, a.status), (31, a.flags)]

/-- Payload of a MASK record (R293). -/
def maskPay (a : Acc) (k : Nat) (stopped : Bool) : List (Nat × Nat) :=
  [(8, a.viol), (12, a.tested), (16, orOnes a.firstK 4), (20, toBits 32 a.firstVal), (24, orOnes a.firstV 6), (30, k),
   (31, a.flags + (if stopped then 64 else 0))]

/-- The bins of part `p` of a histogram (R291). -/
def histPay (a : Acc) (p : Nat) : List (Nat × Nat) :=
  (List.range 8).map (fun j => (8 + 3 * j, Tab.get (fun _ => 0) a.bins (8 * (p - 1) + j)))

/-- Payload of a TRIG record (R297). -/
def trigPay (v : Option Nat) (fires dead missed : Nat) : List (Nat × Nat) :=
  [(8, orOnes v 8), (16, fires % 2 ^ 32), (20, dead % 2 ^ 32), (24, missed % 2 ^ 32)]

/-- The records of an EMIT or close of a slot (R278, R285 to R301). -/
def Ctx.emitRecs (x : Ctx) (i v status : Nat) : Ctx :=
  let s := x.aslot i
  let n := match x.hdr with | some h => h.slots | none => 0
  let x := x.gapRec i v
  let parts := fun (x : Ctx) (type : Nat) (f : Nat → List (Nat × Nat)) =>
    ((s.accKeys n).zipIdx).foldl (fun x p => x.post v i type status p.2 (f p.1)) x
  match s.kind with
  | 1 =>
    let a := s.acc 0xFF
    x.post v i 1 status 0 [(8, a.fails), (14, a.fvecs), (20, orOnes a.firstV 8), (28, a.firstS), (29, a.firstE)]
  | 2 => x.post v i 0x0E status 0 [(8, s.fmN)]
  | 3 => parts x 3 (fun k => statsPay (s.acc k) k)
  | 4 =>
    let a := s.acc 0xFF
    let x := x.post v i 4 status 0 [(8, a.n), (16, a.under), (20, a.ovr), (24, a.excl), (31, a.flags)]
    ((List.range 32).map (· + 1)).foldl (fun x p => x.post v i 4 status p (histPay a p)) x
  | 5 => parts x 5 (fun k => freqPay (s.acc k) k)
  | 6 => parts x 6 (fun k => maskPay (s.acc k) k s.stopBy)
  | 8 => x.post v i 0x0A status 0 (trigPay s.trg.lastV s.trg.fires s.trg.deadV s.trg.missed)
  | _ => x

/-- The groups of a CAP_CMP slot that are still open leave it, in ascending order of site slot (R299). -/
def Dev.capFlush (d : Dev) (c i v : Nat) : Dev :=
  let gs := ((d.cx c).aslot i).grp
  let d := d.setCx c ((d.cx c).setAslot i { (d.cx c).aslot i with grp := [] })
  gs.foldl (fun d p => d.stream c i v 7 0 [(8, p.2.v0), (14, p.1), (15, p.2.flags), (16, p.2.cap), (24, p.2.valid)]) d

/-- The FAILMAP granule that is being gathered leaves the slot (R289). -/
def Dev.mapFlush (d : Dev) (c i v : Nat) : Dev :=
  let s := (d.cx c).aslot i
  match s.fmG with
  | some g =>
    let d := d.setCx c ((d.cx c).setAslot i { s with fmG := none, fmMap := 0, fmN := s.fmN + 1 })
    d.stream c i v 2 0 [(8, g), (16, s.fmMap)]
  | none => d

/-- A slot closes with a STATUS (R282, R284): what it gathers leaves it, then the kind's records. -/
def Dev.slotClose (d : Dev) (c i v status : Nat) : Dev :=
  let s := (d.cx c).aslot i
  let d := if s.st = .live ∨ s.st = .stopped then
      let d := (d.capFlush c i v).mapFlush c i v
      d.setCx c ((d.cx c).emitRecs i v status)
    else d
  d.setCx c ((d.cx c).setAslot i {})

/-- Read a descriptor of an image (R279). -/
def readASlot (m : Tab Byte) (h : Hdr) (i : Nat) : ASlot :=
  let a := h.base + h.redOff + 32 * i
  let ext := storeByte m (a + 3)
  { kind := storeByte m a, src := storeByte m (a + 1), flags := storeByte m (a + 2), ext := ext, p0 := storeLE m (a + 4) 4, p1 := storeLE m (a + 8) 8, sel := storeLE m (a + 16) 16, desc := i, units := (List.range ext).map (fun j => storeLE m (a + 32 * (j + 1)) 32) }

/-- OPEN of one slot (R282, R283) at boundary `b`; answers the descriptor that the next slot takes. -/
def Dev.slotOpen (d : Dev) (m : Tab Byte) (c i b v desc : Nat) : Dev × Nat :=
  let d := d.slotClose c i v 6
  match (d.cx c).hdr with
  | none => (d, desc)
  | some h =>
    let s := readASlot m h desc
    let x := d.cx c
    let used := x.poolUsed h.slots
    let d := if s.ok h.slots ∧ used + s.cost h.slots ≤ 256 then
        d.setCx c (x.setAslot i { s with st := .live, opened := b, tokT := b * h.tv })
      else
        let d := d.setCx c ((x.setAslot i { st := .error, desc := desc }).post v i 0x0D 7 0 [])
        (d.setBitN (acqBase (c / 32)) .ACQ_ERR_MAP_CTX (c % 32) true).irq .acq (acqBase (c / 32)) 0
    (d, desc + 1 + s.ext)

/-- RESET of one slot (R282). -/
def Dev.slotReset (d : Dev) (c i b : Nat) : Dev :=
  let s := (d.cx c).aslot i
  if s.st = .live ∨ s.st = .stopped then
    d.setCx c ((d.cx c).setAslot i { s with accs := [], fmG := none, fmMap := 0, fmN := 0, grp := [], trg := {}, opened := b })
  else d

/-- An ACQ op acts at boundary `b` with records at vector `v` (R282). -/
def Dev.acqOp (d : Dev) (m : Tab Byte) (c sub mask desc b v : Nat) : Dev :=
  let is := (List.range 8).filter (bitOf mask)
  let d := match sub with
    | 0 => (is.foldl (fun (acc : Dev × Nat) i => acc.1.slotOpen m c i b v acc.2) (d, desc)).1
    | 1 => d.forAll is (fun d i => d.slotClose c i v 2)
    | 2 => d.forAll is (fun d i => d.slotReset c i b)
    | 3 => d.forAll is (fun d i =>
        let s := (d.cx c).aslot i
        if s.st = SlSt.live ∨ s.st = SlSt.stopped then d.setCx c ((d.cx c).emitRecs i v 1) else d)
    | _ => d
  d.acqShow c

/-! ### Inputs (R277, R286 to R299) -/

/-- SRC code of an input. -/
def Src.code : Src → Nat
  | .strobe => 0 | .cmp => 1 | .pmu => 2 | .dpsV => 3 | .dpsI => 4 | .tdcRes => 5 | .tdcStamp => 6

/-- A slot takes an input of its source and selection whose vector lies in its range (R277). -/
def ASlot.takes (s : ASlot) (v : Nat) (x : Inp) : Bool :=
  s.st == .live && decide (s.opened ≤ v) && bitOf s.sel x.slot &&
    (x.src.code == s.src || (s.kind == 8 && x.src == .cmp) || (s.kind == 7 && s.src == 1 && bitOf s.flags 1 && x.src == .strobe && !x.win))

/-- FLAGS that a TDC input or sample carries with it (R286). -/
def Inp.flags (x : Inp) : Nat := (if x.lost then 4 else 0) + (if x.dead then 8 else 0)

/-- The scalar value of an input and whether it saturated (R287). -/
def Inp.scalar (x : Inp) (shift : Nat) : Int × Bool :=
  if x.src = .tdcRes then
    let y := x.val / 2 ^ shift
    if y > 0x7FFFF then (0x7FFFF, true) else if y < -0x80000 then (-0x80000, true) else (y, false)
  else (x.val, x.sat)

/-- Raise a count, saturating at a width in bits. -/
def satTo (n bits : Nat) : Nat := Nat.min n (2 ^ bits - 1)

/-- FAILCNT takes a failing result (R288). -/
def Acc.fail (a : Acc) (v : Nat) (x : Inp) : Acc :=
  let e := x.edge % 4 + (if x.win then 4 else 0)
  let earlier := match a.firstV with
    | none => true
    | some f => decide (v < f) || (v == f && (decide (x.slot < a.firstS) || (x.slot == a.firstS &&
        (decide (e / 4 < a.firstE / 4) || (e / 4 == a.firstE / 4 && decide (e % 4 < a.firstE % 4))))))
  let a := { a with fails := satTo (a.fails + 1) 48, fvecs := if a.lastFv = some v then a.fvecs else satTo (a.fvecs + 1) 48, lastFv := some v }
  if earlier then { a with firstV := some v, firstS := x.slot, firstE := e } else a

/-- STATS takes a value (R290). -/
def Acc.stat (a : Acc) (x : Int) : Acc :=
  { a with n := a.n + 1, mn := min a.mn x, mx := max a.mx x, sum := a.sum + x, sumsq := a.sumsq + (x * x).toNat }

/-- HIST takes a value (R291). -/
def Acc.histo (a : Acc) (p0 : Nat) (x : Int) : Acc :=
  let low : Int := if p0 % 2 ^ 20 < 2 ^ 19 then p0 % 2 ^ 20 else (p0 % 2 ^ 20 : Nat) - 2 ^ 20
  let i := (x - low) / 2 ^ (p0 / 2 ^ 20 % 32)
  let a := { a with n := a.n + 1 }
  if i < 0 then { a with under := satTo (a.under + 1) 32 }
  else if 255 < i then { a with ovr := satTo (a.ovr + 1) 32 }
  else
    let j := i.toNat
    { a with bins := Tab.set (fun _ => 0) a.bins j (satTo (Tab.get (fun _ => 0) a.bins j + 1) 24) }

/-- FREQ takes a result (R292). -/
def Acc.freq (a : Acc) (p1 : Nat) (x : Inp) : Acc :=
  let good := x.freq && x.status == 1
  let pmin : Int := (p1 % 2 ^ 32 * 65536 : Nat)
  let pmax : Int := (p1 / 2 ^ 32 * 65536 : Nat)
  let bad := !good || (p1 != 0 && (decide (x.val < pmin) || decide (x.val > pmax)))
  let a := { a with meas := satTo (a.meas + 1) 32, fails := satTo (a.fails + (if bad then 1 else 0)) 32, status := x.status, verdict := if bad ∨ a.verdict = 2 then 2 else 1, flags := Nat.lor a.flags (x.flags + (if good then 0 else 16)) }
  if good then { a with period := x.val, lastN := x.n } else a

/-- The segment of a mask table that holds sample `k`: its limits (R293). -/
def maskSeg (k : Nat) : List Nat → Option (Int × Int)
  | [] => none
  | w :: ws =>
    let n := w / 2 ^ 40 % 2 ^ 24
    let sx := fun (y : Nat) => if y < 2 ^ 19 then (y : Int) else (y : Int) - 2 ^ 20
    if n = 0 then none
    else if k < n then some (sx (w % 2 ^ 20), sx (w / 2 ^ 20 % 2 ^ 20))
    else maskSeg (k - n) ws

/-- The segments of a mask table. -/
def maskTable (us : List Nat) : List Nat := us.flatMap (fun u => (List.range 4).map (fun j => u / 2 ^ (64 * j) % 2 ^ 64))

/-- MASK takes a sample (R293): the accumulator after it and whether the sample is a violation. -/
def Acc.mask (a : Acc) (tab : List Nat) (v : Nat) (x : Int) (tested : Bool) : Acc × Bool :=
  let k := a.k
  let a := { a with k := k + 1 }
  if ¬ tested then (a, false)
  else match maskSeg k tab with
    | none => ({ a with flags := Nat.lor a.flags 32 }, false)
    | some (lo, hi) =>
      let a := { a with tested := a.tested + 1 }
      if x < lo ∨ hi < x then
        let a := { a with viol := satTo (a.viol + 1) 32 }
        (if a.firstK.isNone then { a with firstK := some k, firstVal := x, firstV := some v } else a, true)
      else (a, false)

/-- The state of a strobe as a pattern trigger keeps it: 1, then expected and passed, expected and failed, CH, CL. -/
def trigState (x : Inp) : Nat :=
  1 + (if x.expect ∧ ¬ x.fail then 2 else 0) + (if x.expect ∧ x.fail then 4 else 0) + (if x.ch then 8 else 0) + (if x.cl then 16 else 0)

/-- A CAPTURE slot takes an input (R299). -/
def Dev.capture (d : Dev) (c i v : Nat) (x : Inp) : Dev :=
  let s := (d.cx c).aslot i
  match x.src with
  | .strobe | .cmp =>
    let v0 := v / 32 * 32
    let g := Tab.get (fun _ => {}) s.grp x.slot
    let g : CapG := if g.valid = 0 then { v0 := v0 } else g
    let multi := bitOf g.valid (v - v0)
    let g := { g with cap := setBits g.cap (2 * (v - v0)) 2 ((if x.ch then 2 else 0) + (if x.cl then 1 else 0)), valid := setBits g.valid (v - v0) 1 1, flags := if multi then Nat.lor g.flags 128 else g.flags }
    d.setCx c ((d.cx c).setAslot i { s with grp := Tab.set (fun _ => {}) s.grp x.slot g })
  | .tdcStamp =>
    d.stream c i v 9 0 [(8, x.ptime), (16, x.seq % 2 ^ 24), (19, x.code % 16 + (if x.interp then 16 else 0)), (20, x.slot), (21, x.flags)]
  | _ =>
    d.stream c i v 8 0 [(8, x.ptime), (16, toBits 64 x.val), (24, x.n), (28, x.slot), (29, x.status),
      (30, x.flags + (if x.inv then 1 else 0) + (if x.sat then 2 else 0))]

/-- A STATS accumulator that is full emits its record and restarts (R290). -/
def Dev.statsFull (d : Dev) (c i v k : Nat) : Dev :=
  let s := (d.cx c).aslot i
  if (s.acc k).n < 16777215 then d
  else
    let n := match (d.cx c).hdr with | some h => h.slots | none => 0
    let part := ((s.accKeys n).findIdx (fun j => j == k))
    d.setCx c (((d.cx c).post v i 3 5 part (statsPay (s.acc k) k)).setAslot i (s.setAcc k {}))

/-- A MASK violation acts (R294) if it is the slot's first. -/
def Dev.maskAct (d : Dev) (c i v : Nat) (first : Bool) : Dev :=
  let x := d.cx c
  let s := x.aslot i
  match first, s.flags / 16 % 4 with
  | true, 1 => (d.setCx c (x.setAslot i { s with st := .stopped, stopBy := true })).acqShow c
  | true, 2 => d.setCx c { x with mstop := x.mstop ++ [{ v := v, slot := i }] }
  | _, _ => d

/-- A slot takes an input at its effective vector. -/
def Dev.slotTake (d : Dev) (c i v : Nat) (x : Inp) : Dev :=
  let cx := d.cx c
  let s := cx.aslot i
  let k := if s.perPin then x.slot else 0xFF
  let bad := x.src == .tdcRes && x.status != 1
  let sc := x.scalar (s.p0 / 2 ^ 25 % 64)
  let fl := x.flags + (if x.inv then 1 else 0) + (if bad then 16 else 0) + (if sc.2 && !x.inv && !bad then 2 else 0)
  let a := s.acc k
  let noted := { a with flags := Nat.lor a.flags fl }
  match s.kind with
  | 1 => if x.fail then d.setCx c (cx.setAslot i (s.setAcc k (a.fail v x))) else d
  | 2 =>
    if x.fail then d.setCx c (cx.setAslot i { s with fmG := some (v / 64), fmMap := setBits s.fmMap x.slot 1 1 }) else d
  | 3 =>
    if x.inv || bad then d.setCx c (cx.setAslot i (s.setAcc k noted))
    else (d.setCx c (cx.setAslot i (s.setAcc k (noted.stat sc.1)))).statsFull c i v k
  | 4 =>
    d.setCx c (cx.setAslot i (s.setAcc k (if x.inv || bad then { noted with excl := satTo (a.excl + 1) 32 } else noted.histo s.p0 sc.1)))
  | 5 => d.setCx c (cx.setAslot i (s.setAcc k (a.freq s.p1 x)))
  | 6 =>
    let r := noted.mask (maskTable s.units) v sc.1 (!x.inv && !bad)
    let none_ := s.accs.all (fun p => p.2.viol == 0)
    (d.setCx c (cx.setAslot i (s.setAcc k r.1))).maskAct c i v (r.2 && none_)
  | 7 => d.capture c i v x
  | 8 =>
    if x.win then d
    else d.setCx c (cx.setAslot i { s with trg := { s.trg with st := Tab.set (fun _ => 0) s.trg.st x.slot (trigState x) } })
  | _ => d

/-- An input is taken by the open slots, or dropped (R277). -/
def Dev.acqTake (d : Dev) (c v : Nat) (x : Inp) : Dev :=
  let n := c / 32
  let par := d.evalInj 0x23 n 0
  let d := if par.2 then (par.1.fltBit (acqBase n) 0).faultEvt 0x23 n 0 [c] true else par.1
  let far := x.src != .dpsV && x.src != .dpsI && ((d.cx c).site.getD x.slot 0) / 32 != n
  let d := if far then
      let r := d.evalInj 0x23 n 1
      if r.2 then (r.1.fltBit (acqBase n) 1).faultEvt 0x23 n 1 [c] true else r.1
    else d
  let is := (List.range 8).filter (fun i => ((d.cx c).aslot i).takes v x)
  let d := if is = [] then d.satInc (acqBase n) .ACQ_DROP_CNT_COUNT else d.satInc (acqBase n) .ACQ_IN_CNT_COUNT
  d.forAll is (fun d i => d.slotTake c i v x)

/-! ### Pattern triggers (R295 to R298) -/

/-- Does a nibble match the state of a site slot (R295). -/
def nibMatch (code st : Nat) : Bool :=
  let known := bitOf st 0
  let ch := bitOf st 3
  let cl := bitOf st 4
  match code with
  | 0 => true
  | 1 => known && cl
  | 2 => known && ch
  | 3 => known && !ch && !cl
  | 4 => known && !cl
  | 5 => known && !ch
  | 6 => bitOf st 1
  | 7 => bitOf st 2
  | _ => false

/-- A pattern of a TRIGGER slot holds; `at_` is its first extension unit. -/
def ASlot.holds (s : ASlot) (at_ : Nat) : Bool :=
  (List.range 128).all (fun i => nibMatch (patNib s.units at_ i) (Tab.get (fun _ => 0) s.trg.st i))

/-- Judge the trigger of a slot at vector `v` (R296): the slot after it, and whether it fired. -/
def ASlot.judge (s : ASlot) (v : Nat) : ASlot × Bool :=
  let t := s.trg
  let a := s.holds 0
  let run := if a then t.aRun + 1 else 0
  let win := s.p1 % 2 ^ 32
  let hold := s.p1 / 2 ^ 32
  if !t.armed then
    let f := t.lastV.getD 0
    let t := { t with aRun := run, deadV := v - f, missed := t.missed + (if a && !t.aPrev then 1 else 0), released := t.released || !a, aPrev := a }
    let t := if t.released && decide (hold ≤ v - f) then { t with armed := true, deadV := v + 1 - f } else t
    ({ s with trg := t }, false)
  else
    let t := { t with aRun := run, aPrev := a }
    let fire := match s.p0, t.wait with
      | 0, _ => a
      | 2, _ => decide (Nat.max 1 win ≤ run)
      | _, some va => decide (va < v) && decide (v ≤ va + win) && s.holds 2
      | _, none => false
    if fire then
      ({ s with trg := { t with armed := false, wait := none, fires := t.fires + 1, lastV := some v, prevDead := t.deadV, prevMiss := t.missed, deadV := 0, missed := 0, released := false } }, true)
    else
      let t := match s.p0, t.wait with
        | 1, some va => if va + win ≤ v then { t with wait := none } else t
        | 1, none => if a ∧ 0 < win then { t with wait := some v } else t
        | _, _ => t
      ({ s with trg := t }, false)

/-- The pattern trigger of a context for PTRIG (R298). -/
def Ctx.patSlot (x : Ctx) : Option Nat := (List.range 8).find? (fun i => (x.aslot i).st == .live && (x.aslot i).kind == 8)

/-- A trigger has fired at vector `v` (R297, R298). -/
def Dev.trigFire (d : Dev) (c i v : Nat) : Dev :=
  let x := d.cx c
  let s := x.aslot i
  let x := if bitOf s.flags 3 then x.post v i 0x0A 0 0 (trigPay (some v) s.trg.fires s.trg.prevDead s.trg.prevMiss) else x
  let x := if x.patSlot = some i then
      let x := { x with ptrig := x.ptrig ++ [v] }
      (List.range 8).foldl (fun (x : Ctx) j =>
        if (x.aslot j).st = .live ∧ (x.aslot j).kind = 7 ∧ bitOf (x.aslot j).flags 2 = true then
          x.post v j 0x0C 0 0 [(8, v), (16, s.trg.fires % 2 ^ 32), (20, i)] else x) x
    else x
  let d := ((d.setCx c x).put (acqCtx c) .ACQ_C_TRIG_V_VECTOR v).satInc (acqBase (c / 32)) .ACQ_PTRIG_CNT_COUNT
  d.irq .acq (acqBase (c / 32)) 3

/-- Vector `v` is complete: granule and group records are due, and the triggers are judged (R289, R296, R299). -/
def Dev.acqVector (d : Dev) (c v : Nat) : Dev :=
  let d := d.forAll (List.range 8) (fun d i =>
    let s := (d.cx c).aslot i
    let d := if s.kind = 2 ∧ v % 64 = 63 then d.mapFlush c i v else d
    let d := if s.kind = 7 ∧ v % 32 = 31 then d.capFlush c i v else d
    if s.st = .live ∧ s.kind = 8 ∧ s.opened ≤ v then
      let r := s.judge v
      let d := d.setCx c ((d.cx c).setAslot i r.1)
      if r.2 then d.trigFire c i v else d
    else d)
  d.setCx c { d.cx c with aTo := v + 1 }

/-! ### The frontier -/

/-- The inputs of vectors below `upto`, in the order of their vectors; the others. -/
def takeBelow (l : List (Nat × Inp)) (v : Nat) : List (Nat × Inp) × List (Nat × Inp) :=
  (l.filter (fun p => decide (p.1 ≤ v)), l.filter (fun p => decide (v < p.1)))

/-- Complete `n` vectors from the first that is not complete. -/
def Dev.acqFlush (d : Dev) (c : Nat) : Nat → Dev
  | 0 => d
  | n + 1 =>
    let v := (d.cx c).aTo
    let r := takeBelow (d.cx c).inbox v
    let d := d.setCx c { d.cx c with inbox := r.2 }
    ((r.1.foldl (fun d p => d.acqTake c p.1 p.2) d).acqVector c v).acqFlush c n

/-- Complete every vector below `v`. -/
def Dev.acqSync (d : Dev) (c v : Nat) : Dev := d.acqFlush c (v - (d.cx c).aTo)

/-- Take one input of the first vector that is not complete. -/
def Dev.acqTakeOne (d : Dev) (c : Nat) (p : Nat × Inp) : Dev :=
  if (d.cx c).inbox.contains p then (d.setCx c { d.cx c with inbox := (d.cx c).inbox.erase p }).acqTake c p.1 p.2 else d

/-- ACQ_INPUT (R276, R277): the next input whose effective vector has been emitted is taken; after the run's last vector, every
input of the run is taken at the last vector. -/
def Dev.acqInput (d : Dev) (c : Nat) : Dev :=
  let x := d.cx c
  match x.endSt with
  | some _ =>
    match x.inbox with
    | p :: ps =>
      let v := Nat.min p.1 (d.vidx c - 1)
      ((d.setCx c { x with inbox := ps }).acqSync c v).acqTake c v p.2
    | [] => d
  | none =>
    match x.inbox.find? (fun p => decide (p.1 < d.vidx c)) with
    | some p => (d.acqFlush c (p.1 - x.aTo)).acqTakeOne c p
    | none => d

/-- CAPTURE_TOKEN (R300): the bucket of a CAPTURE or FAILMAP slot gains the tokens of the program time that is complete. -/
def Dev.captureToken (d : Dev) (c i : Nat) : Dev :=
  let x := d.cx c
  let s := x.aslot i
  if (s.kind = 7 ∨ s.kind = 2) ∧ s.st ≠ .error then d.setCx c (x.setAslot i (s.tokens (x.aTo * d.ctxTv c))) else d

/-- Take every input that is left at vector `v`, and complete it. -/
def Dev.acqLast (d : Dev) (c v : Nat) : Dev :=
  let d := d.acqSync c v
  let x := d.cx c
  let d := x.inbox.foldl (fun d p => d.acqTake c v p.2) (d.setCx c { x with inbox := [] })
  if (d.cx c).aTo ≤ v then d.acqVector c v else d

/-- All inputs of an ended run have arrived: the last vector is complete, the ACQ ops behind it act (R119), the slots that are OPEN or STOPPED close
(R276, R284), and the records are numbered. -/
def Dev.acqEnd (d : Dev) (m : Tab Byte) (c : Nat) (faulted : Bool) : Dev :=
  let last := d.vidx c - 1
  let d := if d.vidx c = 0 then d.setCx c { d.cx c with inbox := [] } else d.acqLast c last
  let d := (d.cx c).endActs.foldl (fun d a => match a with | .acq sub mask desc => d.acqOp m c sub mask desc (d.vidx c) last | _ => d) d
  let d := d.forAll (List.range 8) (fun d i =>
    if ((d.cx c).aslot i).st = .live ∨ ((d.cx c).aslot i).st = .stopped then d.slotClose c i last (if faulted then 4 else 3) else d)
  let d := d.acqNumber c (last + 1)
  let d := (d.cx c).due.foldl (fun d r => d.acqRecord c r) d
  (d.setCx c { d.cx c with due := [], mstop := [], endActs := [] }).acqShow c

/-- An accepted arm closes every slot without records and clears the pool (R284). -/
def Dev.acqArm (d : Dev) (c : Nat) : Dev :=
  (d.setCx c { d.cx c with slots := [], inbox := [], due := [], mstop := [], endActs := [], ptrig := [], aTo := 0 }).acqShow c

/-- A run starts: its counters clear (R303). -/
def Dev.acqStart (d : Dev) (c : Nat) : Dev :=
  (d.put (acqCtx c) .ACQ_C_REC_COUNT 0).put (acqCtx c) .ACQ_C_LOST_COUNT 0

/-- The mask stop that a latch of boundary `b` finds (R294): its slot. -/
def Dev.maskStop (d : Dev) (c b lr : Nat) : Option MStop :=
  ((d.cx c).mstop.filter (fun s => decide (s.v + lr ≤ b))).foldl (fun (a : Option MStop) s =>
    match a with
    | some t => if s.v < t.v ∨ (s.v = t.v ∧ s.slot < t.slot) then some s else a
    | none => some s) none

end Sys2Proof.Machine
end

