-- ==== Sys2Proof/Machine/Seq.lean ====
section
/-! DEFINITION. The vector sequencer (04_vector_programs.md, 05_sequencer_microcode.md): routines and their order, the chain walk
over vector ops, decision tables, commits. -/

namespace Sys2Proof.Machine

/-! ### Routines (R134 to R136, R144) -/

/-- The class of a routine: 0 FAULT, 1 REQUEST, 2 DECIDE, 3 COMMAND, 4 SERVICE. -/
def rtnClass (slot : Nat) : Nat :=
  if slot = 0x27 then 0
  else if slot = 0x22 ∨ slot = 0x24 ∨ slot = 0x25 then 1
  else if slot = 0x23 then 2
  else if slot = 0x20 ∨ slot = 0x21 ∨ slot = 0x26 then 3
  else 4

/-- The latch deadline of a context: the system time at which the running op's last latch closes. -/
def Dev.deadline (d : Dev) (c : Nat) : Nat :=
  let x := d.cx c
  let left := match x.cur with | some y => y.count - (x.curPos + 1) | none => 0
  x.s + (left * 64 + 56 - x.vec) * d.ctxTv c

/-- The engine of a cluster may run routines: clocks NORMAL, in RUN, and in no self-test slice (R394, R400, R136). -/
def Dev.engUp (d : Dev) (n : Nat) : Bool := d.clkState == 2 && d.clState n == 0 && (d.clu n).bst.isNone

/-- Two routines of one context; SERVICE routines belong to none. -/
def Rtn.same (a b : Rtn) : Bool := a.ctx == b.ctx && decide (a.slot < 0x28) && decide (b.slot < 0x28)

/-- The clusters of a context's resources: its own, its site's, its generators', its device-power channels' (R403). -/
def Dev.ctxClusters (d : Dev) (c : Nat) : List Nat := d.clusters.filter (fun n => (d.ctxOfCluster n).contains c)

/-- A start of the context can be executed: every cluster of its resources is in RUN, in no self-test slice, and has flipped its tables (R16, R22, R379). -/
def Dev.startReady (d : Dev) (c : Nat) : Bool :=
  (d.ctxClusters c).all (fun n => d.clState n == 0 && (d.clu n).bst.isNone && !(d.clu n).tdWait)

/-- An ARM may run: FABRIC is at 400 MHz or more, as it stays until the context is done (R129: notes/assumptions/89.md), and no cluster that the slots of the
context name is in DORMANT (R103). -/
def Dev.armReady (d : Dev) (c : Nat) : Bool :=
  decide (d.get pwrB .PWR_DVFS_STAT_NOW < 4) && (d.siteRegs c).all (fun o => match o with | some g => d.clState (g / 32) != 3 | none => true)

/-- A waiting routine is eligible (R22, R103, R129, R135, R136, R150): it does not interleave with an incomplete routine of its context, but REACT does not wait. -/
def Dev.rtnReady (d : Dev) (n : Nat) (r : Rtn) : Bool :=
  let locked := d.bit (ucsBase n) .UCS_PATCH_STAT_LOCKED
  let pend := d.bit (ucsBase n) .UCS_PATCH_STAT_LOCK_PEND
  !(rtnClass r.slot == 4 && (locked || pend)) && (r.slot != 0x22 || d.startReady r.ctx) && (r.slot != 0x21 || d.armReady r.ctx) && !((r.slot == 0x20 || r.slot == 0x21) && (locked || pend)) &&
    (r.slot == 0x27 || ((match (d.eng n).run with | some u => !u.rtn.same r | none => true) &&
      (decide (0 < r.aband) || !(d.eng n).queue.any (fun q => q.same r && decide (0 < q.aband)))))

/-- Does a waiting routine go before another that arrived earlier (R135). -/
def Dev.rtnBefore (d : Dev) (a b : Rtn) : Bool :=
  decide (rtnClass a.slot < rtnClass b.slot) ||
    (rtnClass a.slot == 2 && rtnClass b.slot == 2 && decide (d.deadline a.ctx < d.deadline b.ctx))

/-- The next routine of the engine of cluster `n`. -/
def Dev.nextRtn (d : Dev) (n : Nat) : Option Rtn :=
  ((d.eng n).queue.filter (d.rtnReady n)).foldl (fun (a : Option Rtn) r =>
    match a with
    | some b => if d.rtnBefore r b then some r else some b
    | none => some r) none

/-- SEQ_STAT.QUEUED (R153): the routines that are eligible and wait; while no routine of the cluster may run, none is (R136, R145). -/
def Dev.seqQueued (d : Dev) (n : Nat) : Nat := if d.engUp n then Nat.min ((d.eng n).queue.filter (d.rtnReady n)).length 63 else 0

/-- PG_STAT.STATE of a SEQ page (R153): a routine or a tail runs, or what waits waits for the end of a self-test slice. -/
def Dev.seqState (d : Dev) (n : Nat) : Nat :=
  match (d.eng n).run with
  | some r => if r.tail.isSome then 2 else 1
  | none => if (d.eng n).queue ≠ [] ∧ (d.clu n).bst.isSome = true then 3 else 0

/-- SEQ_STAT follows the engine (R153). -/
def Dev.seqStat (d : Dev) (n : Nat) : Dev :=
  let b := seqBase n
  match (d.eng n).run with
  | some r =>
    (((d.setb b .SEQ_STAT_ACTIVE true).put b .SEQ_STAT_CTX (r.rtn.ctx % 32)).put b .SEQ_STAT_SLOT r.rtn.slot).put b .SEQ_STAT_CLASS (rtnClass r.rtn.slot)
  | none => d.setb b .SEQ_STAT_ACTIVE false

/-- Set the engine and its status. -/
def Dev.setEngS (d : Dev) (n : Nat) (e : Eng) : Dev := (d.setEng n e).seqStat n

/-- A SERVICE routine runs for no context (R134). -/
def Rtn.service (r : Rtn) : Bool := decide (0x28 ≤ r.slot)

/-- STAGE as committed (R146): of the context whose routine is staged, or of the cluster's SERVICE routine. -/
def Dev.stage (d : Dev) (n : Nat) (r : Rtn) : Nat := if r.service then (d.eng n).svc else d.get (ctxBase r.ctx) .CTX_SEQ_STAGE_STAGE

/-- A stage is committed, or the final commit sets STAGE to 0 (R146). -/
def Dev.setStage (d : Dev) (n : Nat) (r : Rtn) (k : Nat) : Dev :=
  if r.service then d.setEng n { d.eng n with svc := k % 256 } else d.put (ctxBase r.ctx) .CTX_SEQ_STAGE_STAGE k

/-- The step of an ARM behind its last stage works on a cleared run state (R103 step 4, R146). -/
def URun.cleared (r : URun) (h : Option Hdr) : URun :=
  match h with
  | some h => if r.rtn.slot = 0x21 ∧ h.slots < r.stage then { r with opidx := h.entry, map := 0, hf := 0, stack := [] } else r
  | none => r

/-- A routine starts: its shadows take the committed state. -/
def Dev.newRun (d : Dev) (n : Nat) (r : Rtn) : URun :=
  let x := d.cx r.ctx
  let guard := d.get (seqBase n) .SEQ_CTRL_GUARD
  let u : URun := { rtn := r, upc := r.slot, opidx := x.opidx, map := x.map, hf := x.hf, stack := x.stack, stage := d.stage n r, guarded := guard != 0 && decide (guard ≤ r.aband) }
  u.cleared x.hdr

/-- Words of an abandoned routine are wasted (R460). -/
def Dev.pmcWaste (d : Dev) (n : Nat) : Dev :=
  let k := (d.clu n).wordsP
  let d := d.setClu n { d.clu n with wordsP := 0 }
  if d.bit (pmccBase n) .PMC_CTRL_EN then d.satAdd (pmccBase n) .PMC_WASTED_COUNT k else d

/-- The cycles of an abandonment, at most 4 (R144), are wasted: their number is free. -/
def Dev.pmcAbandon (d : Dev) (n : Nat) : Dev :=
  if d.bit (pmccBase n) .PMC_CTRL_EN then let r := d.takeFree 5; r.1.satAdd (pmccBase n) .PMC_WASTED_COUNT r.2 else d

/-- Words of a committed routine retire (R460). -/
def Dev.pmcRetire (d : Dev) (n : Nat) : Dev :=
  let k := (d.clu n).wordsP
  let d := d.setClu n { d.clu n with wordsP := 0 }
  if d.bit (pmccBase n) .PMC_CTRL_EN then d.satAdd (pmccBase n) .PMC_RETIRED_COUNT k else d

/-- The running routine is abandoned (R144): it loses its shadows and waits again. -/
def Dev.abandon (d : Dev) (n : Nat) : Dev :=
  let e := d.eng n
  match e.run with
  | some r => (((d.setEngS n { e with run := none, queue := { r.rtn with aband := r.rtn.aband + 1 } :: e.queue }).satInc (seqBase n) .SEQ_ABANDON_CNT_COUNT)).pmcWaste n |>.pmcAbandon n
  | none => d

/-- The engine of a cluster between two microwords: a routine of a lower class gives way to an eligible one of a higher class, unless
it is in its tail or guarded (R136, R143, R144); a free engine starts the next routine (R135). -/
def Dev.engine (d : Dev) (n : Nat) : Dev :=
  if ¬ d.engUp n then d
  else
    let d := match (d.eng n).run, d.nextRtn n with
      | some r, some q =>
        if rtnClass q.slot < rtnClass r.rtn.slot ∧ r.tail.isNone = true ∧ (r.guarded = false ∨ rtnClass q.slot = 0) then d.abandon n else d
      | _, _ => d
    match (d.eng n).run, d.nextRtn n with
    | none, some q => d.setEngS n { d.eng n with run := some (d.newRun n q), queue := (d.eng n).queue.erase q }
    | _, _ => d

/-- The routine that runs now, after the engine has arbitrated. -/
def Dev.running (d : Dev) (n : Nat) : Option URun := (d.eng n).run

/-- Set the running routine. -/
def Dev.setRun (d : Dev) (n : Nat) (r : URun) : Dev := d.setEng n { d.eng n with run := some r }

/-- The running routine ends. -/
def Dev.endRun (d : Dev) (n : Nat) : Dev := d.setEngS n { d.eng n with run := none }

/-- An engine fault (R133): captured, counted in PG_FLT_STAT and reported for the context; the routine is abandoned. A SERVICE routine is
queued for local context 0, which its faults are reported for (DESIGN CHOICE: notes/assumptions/91.md). -/
def Dev.seqFault (d : Dev) (n c bit code upc : Nat) (inj : Bool) : Dev :=
  let b := seqBase n
  let d := if d.bit b .SEQ_UERR_VALID then d
    else ((((d.setb b .SEQ_UERR_VALID true).put b .SEQ_UERR_CODE code).put b .SEQ_UERR_CTX (c % 32)).put b .SEQ_UERR_UADDR upc).irq .seq b 2
  ((d.fltBit b bit).abandon n).faultEvt 0x20 n bit [c] inj

/-! ### Fetch (R128, R133, R148) -/

/-- The address that the engine fetches from: the lowest-numbered match register redirects a ROM address. -/
def Dev.fetchAddr (d : Dev) (n a : Nat) : Nat :=
  if a < 0x4000 then
    match (List.range 32).find? (fun i => d.bit (ucsBase n + 4 * i) .UCS_MATCH_EN && d.get (ucsBase n + 4 * i) .UCS_MATCH_RADDR == a) with
    | some i => 0x4000 + d.get (ucsBase n + 4 * i) .UCS_MATCH_PADDR
    | none => a
  else a

/-- The routine of an entry slot is the ROM's own: no enabled match register replaces its entry or, for one that walks a chain, the entry of an op handler
(R134, R148). -/
def Dev.romOwn (d : Dev) (n slot : Nat) : Bool :=
  (List.range 32).all (fun i =>
    let a := d.get (ucsBase n + 4 * i) .UCS_MATCH_RADDR
    !d.bit (ucsBase n + 4 * i) .UCS_MATCH_EN || (a != slot && (decide (0x20 ≤ a) || (slot != 0x21 && slot != 0x23 && slot != 0x24))))

/-! ### Context registers of the sequencer (R154) -/

/-- The registers of R154 follow the committed state. -/
def Dev.seqShow (d : Dev) (c : Nat) : Dev :=
  let b := ctxBase c
  let x := d.cx c
  let k := x.stack.length
  let d := (d.put b .CTX_SEQ_STAT_OPIDX x.opidx).put b .CTX_SEQ_STAT_LEAVES (match x.table with | some t => t.leaves.length - 1 | none => 0)
  let d := (d.setb b .CTX_SEQ_STAGE_TABLE x.table.isSome).put b .CTX_SEQ_STAGE_SP (Nat.min k 15)
  (d.setb b .CTX_SEQ_STAGE_FULL (decide (16 ≤ k))).put b .CTX_SEQ_COND_MAP x.map

/-! ### Vector ops (R109) -/

/-- Fields of an op word. -/
structure OpW where
  op  : Nat
  sub : Nat
  a   : Nat
  b   : Nat
  c   : Nat
  deriving DecidableEq, Repr

/-- Take an op word apart. -/
def opW (w : Nat) : OpW := { op := w / 2 ^ 59 % 32, sub := w / 2 ^ 56 % 8, a := w / 2 ^ 40 % 2 ^ 16, b := w / 2 ^ 20 % 2 ^ 20, c := w % 2 ^ 20 }

/-- The bytes that a context reads from the pattern store (R161). -/
def Dev.view (d : Dev) (m : Tab Byte) : Tab Byte := if d.storeReady then m else []

/-- The bytes that the microengine of cluster `n` reads: its op cache serves the words that it holds, whatever the store holds now (R128, R159). -/
def Dev.opView (d : Dev) (n : Nat) (m : Tab Byte) : Tab Byte :=
  (d.eng n).opc.foldl (fun m w => if storeLE m w.1 8 = w.2 then m else storeWrite m w.1 ((List.range 8).map (fun i => BitVec.ofNat 8 (w.2 / 256 ^ i)))) (d.view m)

/-- The op cache takes a word that has been read and that it did not hold. It holds 16 KiB; which word a full one gives up is stated nowhere and is free
(DESIGN CHOICE: notes/assumptions/90.md). -/
def Dev.opHold (d : Dev) (n : Nat) (m : Tab Byte) (a : Nat) : Dev :=
  let e := d.eng n
  if d.storeReady = false ∨ e.opc.any (fun w => w.1 == a) = true then d
  else if e.opc.length < 2048 then d.setEng n { e with opc := e.opc ++ [(a, storeLE m a 8)] }
  else
    let k := d.takeFree 2048
    k.1.setEng n { e with opc := e.opc.eraseIdx k.2 ++ [(a, storeLE m a 8)] }

/-- The op cache of a cluster is invalidated: at each CTX_LOAD and at each accepted CTX_ARM (R159). -/
def Dev.opDrop (d : Dev) (n : Nat) : Dev := d.setEng n { d.eng n with opc := [] }

/-- The byte address of the op at an index. -/
def Hdr.opAddr (h : Hdr) (i : Nat) : Nat := h.base + h.opsOff + 8 * i

/-- The ops that a walk has read are held. -/
def Dev.opHoldAll (d : Dev) (n : Nat) (m : Tab Byte) (h : Hdr) (ops : List (Nat × Nat)) : Dev :=
  ops.foldl (fun d o => d.opHold n m (h.opAddr o.1)) d

/-- The op at an index of an image. -/
def Hdr.opAt (h : Hdr) (m : Tab Byte) (i : Nat) : OpW := opW (storeLE m (h.opAddr i) 8)

/-- Close a leaf of the table under construction (R133, R137). -/
def URun.close (r : URun) (l : Leaf) : URun :=
  if 8 ≤ r.leaves.length ∨ 64 < (r.leaves.foldl (fun a x => a + x.acts.length) 0) + l.acts.length + (if r.mmask.isSome then 1 else 0)
  then { r with ovf := true } else { r with leaves := r.leaves ++ [l] }

/-- A path ends in a leaf with a descriptor. -/
def URun.pathLeaf (r : URun) (p : Path) (x : Desc) (next : Nat) : URun :=
  r.close { desc := { x with map := p.map, clrf := p.clrf }, acts := p.acts, care := p.care, value := p.value, next := next, stack := p.stack.map (fun f => { f with fresh := false }), map := p.map, hf := p.hf }

/-- A path ends in a leaf that carries HALT (R141). -/
def URun.pathHalt (r : URun) (p : Path) (cause : Nat) : URun :=
  r.close { desc := { kind := .none }, acts := p.acts.filter (fun a => match a with | .mark _ => true | _ => false), care := p.care, value := p.value, halt := some cause, next := p.opidx, stack := p.stack, map := p.map, hf := p.hf }

/-- Continue a path first. -/
def URun.go (r : URun) (p : Path) : URun := { r with work := p :: r.work }

/-- Follow both outcomes of an input, or the one that is fixed (R141). `yes` follows value 1. -/
def URun.fork (r : URun) (p : Path) (bit : Nat) (first : Bool) (yes no : Path → Path) : URun :=
  if bitOf p.care bit then r.go (if bitOf p.value bit then yes p else no p)
  else
    let y := yes { p with care := setBits p.care bit 1 1, value := setBits p.value bit 1 1 }
    let n := no { p with care := setBits p.care bit 1 1, value := setBits p.value bit 1 0 }
    if first then { r with work := y :: n :: r.work } else { r with work := n :: y :: r.work }

/-- A frame is pushed (R112). -/
def URun.pushF (r : URun) (p : Path) (f : Frame) (next : Nat) : URun :=
  if 16 ≤ p.stack.length then r.pathHalt p 0x13 else r.go { p with stack := p.stack ++ [f], opidx := next }

/-- The top frame and the stack below it. -/
def topF (s : List Frame) : Option (Frame × List Frame) := match s.getLast? with | some f => some (f, s.dropLast) | none => none

/-- Descriptors of an ACQ OPEN lie inside the reduction section (R282). -/
def descsOk (m : Tab Byte) (h : Hdr) : Nat → Nat → Bool
  | 0, _ => true
  | k + 1, i => decide (i < h.redCount) && decide (i + storeByte m (h.base + h.redOff + 32 * i + 3) < h.redCount)
      && descsOk m h k (i + 1 + storeByte m (h.base + h.redOff + 32 * i + 3))

/-- Number of set bits of a byte. -/
def bits8 (v : Nat) : Nat := ((List.range 8).filter (bitOf v)).length

/-- A HOST_TIMED mark on a path (R126). -/
def Path.timed (p : Path) : Path := { p with acts := p.acts ++ [.mark 4] }

/-- ENDM on a path whose top frame is a match frame (R116, R137). -/
def URun.endm (r : URun) (m : Tab Byte) (h : Hdr) (p : Path) (f : Frame) (below : List Frame) (i : Nat) : URun :=
  let o := h.opAt m f.op
  let depth := below.length
  let pass := fun (q : Path) => { q with stack := below, opidx := i + 1 }
  if f.fresh then r.go (pass p)
  else if p.judged ∨ (r.mframe.isSome ∧ r.mframe ≠ some (depth, f.op)) then r.pathHalt p 0x19
  else if h.maskCount ≤ o.a % 16 then r.pathHalt p 0x16
  else
    let r := { r with mmask := some (o.a % 16), mfrom := f.v0.getD 0, mframe := some (depth, f.op) }
    let fail := fun (q : Path) =>
      if f.count < Nat.max 1 o.c then { q with stack := below ++ [{ f with count := f.count + 1, v0 := none }], opidx := f.op + 1 }
      else { q with stack := below, opidx := o.b }
    r.fork { p with judged := true } 5 true pass fail

/-- The handler of one control op on a path (R110, R141). An op index is checked on the path that follows it, so an index outside the op
section halts only that path (notes/assumptions/16.md). -/
def URun.control (r : URun) (m : Tab Byte) (h : Hdr) (d : Dev) (p : Path) (o : OpW) : URun :=
  let i := p.opidx
  let next := { p with opidx := i + 1 }
  match o.op with
  | 0x00 => r.go next
  | 0x03 =>
    if o.c = 0 then r.go { p with opidx := o.b + 1 }
    else r.pushF p { kind := .loop, op := i, count := o.c } (i + 1)
  | 0x04 => match topF p.stack with
    | some (f, below) =>
      if f.kind ≠ .loop then r.pathHalt p 0x14
      else if f.count ≤ 1 then r.go { next with stack := below }
      else r.go { p with stack := below ++ [{ f with count := f.count - 1 }], opidx := f.op + 1 }
    | none => r.pathHalt p 0x14
  | 0x05 => r.pushF p { kind := .ret, op := i, count := 0 } o.c
  | 0x06 => match topF p.stack with
    | some (f, below) => if f.kind ≠ .ret then r.pathHalt p 0x14 else r.go { p with stack := below, opidx := f.op + 1 }
    | none => r.pathHalt p 0x14
  | 0x07 => r.go { p with opidx := o.c }
  | 0x08 =>
    let tk := fun (q : Path) => { q with opidx := o.c }
    let nt := fun (q : Path) => { q with opidx := i + 1 }
    match o.sub with
    | 0 => r.go (tk p)
    | 1 => r.fork p 0 true tk nt
    | 2 => r.fork p 0 false nt tk
    | 3 => r.fork p 1 true tk nt
    | 4 => r.fork p.timed 2 true tk nt
    | 5 => r.fork p.timed 3 true tk nt
    | 6 => r.fork p.timed 4 true tk nt
    | _ => r.go (if bitOf p.hf 0 then tk p.timed else nt p.timed)
  | 0x09 =>
    if h.maskCount ≤ o.a % 16 then r.pathHalt p 0x16
    else r.pushF p { kind := .mtch, op := i, count := 1, fresh := true, quiet := o.sub % 2 == 0 } (i + 1)
  | 0x0A => match topF p.stack with
    | some (f, below) => if f.kind ≠ .mtch then r.pathHalt p 0x14 else r.endm m h p f below i
    | none => r.pathHalt p 0x14
  | 0x0B => if o.a % 16 < h.wsmCount then r.go { next with map := o.a % 16 } else r.pathHalt p 0x16
  | 0x0C => r.go { next with acts := p.acts ++ [.ldstb (o.a % 64)] }
  | 0x0E =>
    if 4 ≤ o.sub then r.pathHalt p 0x11
    else if o.sub = 0 ∧ ¬ descsOk m h (bits8 (o.a % 256)) (o.b % 256) then r.pathHalt p 0x16
    else r.go { next with acts := p.acts ++ [.acq o.sub (o.a % 256) (o.b % 256)] }
  | 0x0F => r.go { next with clrf := true }
  | 0x10 => r.go { next.timed with hf := d.get (ctxBase r.rtn.ctx) .CTX_MAILBOX_DATA }
  | 0x11 => r.go { next.timed with acts := next.timed.acts ++ [.systime] }
  | 0x12 => r.pathLeaf p { kind := .none, last := true, opidx := i } i
  | _ => r.pathHalt p 0x11

/-- An emitting op closes its path (R110, R111). -/
def URun.emitting (r : URun) (h : Hdr) (p : Path) (o : OpW) : URun :=
  let g := o.b * 2 ^ 20 + o.c
  let n := if o.op = 0x0D then o.c else o.a
  if n < 4 then r.pathHalt p 0x12
  else if o.op ≠ 0x0D ∧ h.symCount < g + (if o.op = 0x01 then n else 1) then r.pathHalt p 0x16
  else r.pathLeaf p { gran := if o.op = 0x0D then 0 else g, count := n, kind := if o.op = 0x01 then .block else if o.op = 0x02 then .rpt else .gap, act := o.op == 0x0D && o.a % 2 == 1, opidx := p.opidx } (p.opidx + 1)

/-- An emitting opcode. -/
def isEmitting (op : Nat) : Bool := op == 1 || op == 2 || op == 0x0D

/-- The handler of the op at the head path of the walk. -/
def URun.stepOp (r : URun) (m : Tab Byte) (h : Hdr) (d : Dev) : URun :=
  match r.work with
  | [] => r
  | p :: rest =>
    let r := { r with work := rest }
    if h.opsCount ≤ p.opidx then r.pathHalt p 0x16
    else
      let o := h.opAt m p.opidx
      let r := if r.ops.any (fun x => x.1 == p.opidx) then r else { r with ops := r.ops ++ [(p.opidx, o.op)] }
      if isEmitting o.op then r.emitting h p o
      else if 32 ≤ p.n then r.pathHalt p 0x15
      else r.control m h d { p with n := p.n + 1 } o

/-- Walk until every path is closed. -/
def URun.walk (r : URun) (m : Tab Byte) (h : Hdr) (d : Dev) : Nat → URun
  | 0 => r
  | n + 1 => if r.work = [] ∨ r.ovf = true then r else (r.stepOp m h d).walk m h d n

/-- The settled state of a context (R139): what the chosen leaf brings, or the committed state. A leaf that a hold gap has not let start counts as well
(DESIGN CHOICE: notes/assumptions/88.md). -/
def Ctx.settled (x : Ctx) : Ctx :=
  match x.chosen with
  | some l => { x with opidx := l.next, stack := l.stack, map := l.map, hf := l.hf, chosen := none }
  | none => x

/-- The chain walk of a routine begins: DECIDE behind the settled op, ARM at ENTRY, REDIRECT at its target (R139, R140, R146). -/
def Dev.walkBegin (d : Dev) (h : Hdr) (r : URun) : URun :=
  if r.begun then r
  else
    let x := (d.cx r.rtn.ctx).settled
    let r := { r with begun := true, opidx := x.opidx, stack := x.stack, map := x.map, hf := x.hf }
    if r.rtn.slot = 0x21 then { r with work := [{ opidx := h.entry, stack := [], map := 0, hf := 0 }] }
    else if r.rtn.slot = 0x24 then
      { r with work := [{ opidx := (d.cx r.rtn.ctx).reqTgt, stack := if (d.cx r.rtn.ctx).reqKeep then x.stack else [], map := x.map, hf := x.hf }] }
    else { r with work := [{ opidx := x.opidx, stack := x.stack, map := x.map, hf := x.hf }] }

/-- The decision table that a routine publishes. -/
def URun.table (r : URun) (tag : TTag) : Table := { leaves := r.leaves, mmask := r.mmask, mfrom := r.mfrom, tag := tag }

/-- A table becomes the pending one, unless a stop or reaction is pending, which nothing but a reaction replaces (R123, R147). -/
def Dev.postTable (d : Dev) (c : Nat) (t : Table) : Dev :=
  let x := d.cx c
  let keep := match x.table with
    | some u => (match u.tag, t.tag with
      | .react, _ => true
      | .stop, .react => false
      | .stop, _ => true
      | .redirect, .decide => true
      | _, _ => false)
    | none => false
  (if keep then d else d.setCx c { x with table := some t }).seqShow c

end Sys2Proof.Machine
end

