-- ==== Sys2Proof/Machine/Wave.lean ====
section
/-! DEFINITION. Edge sets and wave sets (R78 to R86): the actions of one vector on a pin, and what each action does. -/

namespace Sys2Proof.Machine

/-! ### Edge sets and wave sets -/

/-- The action halves of a wave set, by edge. -/
def wsField : Nat → Fld
  | 0 => .PIN_WS_ACT01_E0 | 1 => .PIN_WS_ACT01_E1 | 2 => .PIN_WS_ACT23_E2 | _ => .PIN_WS_ACT23_E3

/-- The action code of edge `k` for a symbol in wave set `ws` of a pin (R81). -/
def Dev.wsAct (d : Dev) (g ws k sym : Nat) : Nat := d.get (pinBase g + 0x10 * ws) (wsField k) / 16 ^ sym % 16

/-- Time and UI number of edge `k` of the edge set that a wave set names (R79, R81). -/
def Dev.edgeOf (d : Dev) (g ws k : Nat) : Nat × Nat :=
  let b := pinBase g + 0x10 * d.get (pinBase g + 0x10 * ws) .PIN_WS_CFG_ESEL + 4 * k
  (d.get b .PIN_ES_T_TIME, d.get b .PIN_ES_T_UI)

/-- One action of a vector: its time T_k, its edge, its code. -/
structure WAct where
  t    : Nat
  edge : Nat
  code : Nat
  deriving DecidableEq, Repr

/-- Insert an action in the order of time, then edge (R83). -/
def wactInsert (a : WAct) : List WAct → List WAct
  | [] => [a]
  | x :: xs => if a.t < x.t ∨ (a.t = x.t ∧ a.edge < x.edge) then a :: x :: xs else x :: wactInsert a xs

/-- The actions of a vector on a pin under wave set `ws`, whose UI `j` carries symbol `sym j` (R78, R79, R81 to R83): in the order of
time. An edge at or beyond the period is not fired and sets EDGE_RANGE; a reserved action sets BAD_ACT. -/
def Dev.vectorActs (d : Dev) (g ws tv m : Nat) (sym : Nat → Nat) : Dev × List WAct :=
  (List.range 4).foldl (fun (acc : Dev × List WAct) k =>
    let d := acc.1
    let e := d.edgeOf g ws k
    let a := d.wsAct g ws k (sym (e.2 % m))
    if a = 0 then acc
    else if 5 ≤ a ∧ a ≤ 7 then (d.setb (pinBase g) .PIN_STAT_BAD_ACT true, acc.2)
    else if tv ≤ e.1 then ((d.setb (pinBase g) .PIN_STAT_EDGE_RANGE true).irq .pin (pinBase g) 6, acc.2)
    else (d, wactInsert { t := e.1, edge := k, code := a } acc.2)) (d, [])

/-- Storage of edge sets and wave sets is checked as it is read (R66). -/
def Dev.tgParity (d : Dev) (g : Nat) : Dev :=
  let r := d.evalInj 0x28 g 2
  if r.2 then (r.1.fltBit (pinBase g) 2).faultEvt 0x28 g 2 [] true else r.1

/-- L_TIP in fine units (R80). -/
def lTip : Nat := 32 * 1024

/-! ### Actions -/

/-- The level code behind a driver state; none for Z. -/
def Dev.drvCode (d : Dev) (g : Nat) : Drv → Option Nat
  | .z => none
  | .l => (d.lvlNow g)[1]?
  | .h => (d.lvlNow g)[0]?
  | .t => (d.lvlNow g)[2]?

/-- The direction of a drive edge to state `s` (R80): rise when the new driven level is above the old, fall when it is below and for DRV_Z. From Z,
or between equal levels, the spec states none: a free value. -/
def Dev.drvRise (d : Dev) (g k : Nat) (s : Drv) : Bool :=
  match d.drvCode g (d.drvNow g), d.drvCode g s with
  | _, none => false
  | some old, some new => if old < new then true else if new < old then false else Config.edgeDir g k
  | none, some _ => Config.edgeDir g k

/-- A drive action of edge `k` that acts at the tip at `tip` (R80, R82): the internal edge is fired P_drv earlier, and the driver of an enabled pin
takes the state. -/
def Dev.driveTo (d : Dev) (g k tip : Nat) (s : Drv) : Dev :=
  if d.pinLive g then
    let r := d.drvRise g k s
    d.setPin g { d.pin g with drv := s, edge := some { k := k, tip := tip, fire := (tip : Int) - d.pDrv g k (if r then 0 else 1), rise := r } }
  else d

/-- A strobe of a pin that stands for time `tip` at the tip samples the comparator P_rcv later (R80). -/
def Dev.smpAt (d : Dev) (g tip : Nat) : Dev := d.setPin g { d.pin g with smp := some { tip := tip, taken := (tip : Int) + d.pRcv g } }

/-- The driver state of a drive action. -/
def drvOfAct : Nat → Drv
  | 1 => .l | 2 => .h | 3 => .t | _ => .z

/-- A strobe or window result of a context at vector `v` (R84, R115, R116): it enters the fail window and the acquisition, or, inside a
match loop without REPORT, only the verdict. -/
def Dev.result (d : Dev) (c v : Nat) (i : Inp) : Dev :=
  let x := d.cx c
  let x := if i.fail && x.loop then { x with itFails := x.itFails ++ [(v, i.slot)] } else x
  if x.quiet then d.setCx c x
  else
    let x := if i.fail then { x with failV := some (match x.failV with | some f => Nat.min f v | none => v) } else x
    (d.setCx c x).acqPush c v i

/-- Close the open window of a pin with its result (R84). -/
def Dev.winClose (d : Dev) (c g v edge : Nat) : Dev :=
  let p := d.pin g
  match p.win with
  | some w => (d.setPin g { p with win := none }).result c v { src := .strobe, slot := p.slot, fail := w.failed, expect := true, win := true, edge := edge }
  | none => d

/-- WIN_L or WIN_H (R82, R84): a window opens, and an open one closes with its result. -/
def Dev.winOpen (d : Dev) (c g v edge : Nat) (high : Bool) : Dev :=
  let d := d.winClose c g v edge
  let now := d.bit (pinBase g) (if high then .PIN_CMP_STAT_CH else .PIN_CMP_STAT_CL)
  d.setPin g { d.pin g with win := some { high := high, failed := !now } }

/-- A strobe that samples {CH, CL} (R82): codes 8 to 11. -/
def Dev.strobeAt (d : Dev) (c g v edge code : Nat) (ch cl : Bool) : Dev :=
  let fail := match code with
    | 8 => !cl
    | 9 => !ch
    | 10 => ch || cl
    | _ => false
  d.result c v { src := if code = 11 then .cmp else .strobe, slot := (d.pin g).slot, fail := fail, expect := code != 11, ch := ch, cl := cl, edge := edge }

/-- The comparator state a strobe sees (R70): a sample that the command gives, or the outputs as they stand. A pin whose comparator is
OFF or whose outputs are held shows its outputs. -/
def Dev.sampleOf (d : Dev) (g : Nat) (s : Option Nat) : Bool × Bool :=
  let b := pinBase g
  let now := (d.bit b .PIN_CMP_STAT_CH, d.bit b .PIN_CMP_STAT_CL)
  match s with
  | some x => if (d.pin g).cmp = .off ∨ d.cmpHeld g = true then now else (bitOf x 1, bitOf x 0)
  | none => now

/-- One action of a vector of context `c` on its pin (R82 to R85). `s` is the system time of the vector, `hold` says that it is the hold
vector, and samples are taken from the list in order. -/
def Dev.actOn (acc : Dev × List Nat) (c g v s : Nat) (hold : Bool) (a : WAct) : Dev × List Nat :=
  let d := acc.1
  if a.code ≤ 4 then (d.driveTo g a.edge (s + a.t + lTip) (drvOfAct a.code), acc.2)
  else if hold then acc
  else if a.code ≤ 11 then
    let x := d.sampleOf g acc.2.head?
    ((d.smpAt g (s + a.t + lTip)).strobeAt c g v a.edge a.code x.1 x.2, acc.2.tail)
  else if a.code = 12 ∨ a.code = 13 then (d.winOpen c g v a.edge (a.code == 13), acc.2)
  else if a.code = 14 then (d.winClose c g v a.edge, acc.2)
  else (d.tdcTip g (s + a.t + lTip), acc.2)

/-- A vector on one pin of a context (R78 to R85). -/
def Dev.vectorPin (acc : Dev × List Nat) (c g v s ws tv m : Nat) (hold : Bool) (sym : Nat → Nat) : Dev × List Nat :=
  let d := acc.1.tgParity g
  let d := d.setPin g { d.pin g with wset := ws }
  let r := d.vectorActs g ws tv m sym
  r.2.foldl (fun acc a => Dev.actOn acc c g v s hold a) (r.1, acc.2)

/-! ### Symbols (R98, R99, R108) -/

/-- The symbol of slot `s` in UI `j` of vector `i` of a granule record. -/
def recSym (data : List Byte) (m s i j : Nat) : Nat :=
  let p := i * m + j
  (data.getD (s * 16 * m + p / 4) 0).toNat / 4 ^ (p % 4) % 4

/-- The wave set of slot `s` under map `w`. -/
def Hdr.mapWs (h : Hdr) (m : Tab Byte) (w s : Nat) : Nat := storeByte m (h.base + h.wsmOff + 64 * w + s / 2) / 16 ^ (s % 2) % 16

/-- The hold symbol of slot `s`. -/
def Hdr.holdSym (h : Hdr) (m : Tab Byte) (s : Nat) : Nat := storeByte m (h.base + h.auxOff + 0x80 + s / 4) / 4 ^ (s % 4) % 4

/-- The wave-set map of the hold vector. -/
def Hdr.holdWsm (h : Hdr) (m : Tab Byte) : Nat := storeByte m (h.base + h.auxOff + 0xA0)

/-- Bit `s` of match mask `k`. -/
def Hdr.maskBit (h : Hdr) (m : Tab Byte) (k s : Nat) : Bool := bitOf (storeByte m (h.base + h.auxOff + 0xC0 + 16 * k + s / 8)) (s % 8)

end Sys2Proof.Machine
end

