-- ==== Sys2Proof/Machine/Ras.lean ====
section
/-! DEFINITION. The array raster engine (13_array_raster.md): modes, lanes, composition, flips and releases, frames and their CRCs. -/

namespace Sys2Proof.Machine

/-! ### Mode checks (R322, R324, R325) -/

/-- Lane word `n` of the mode shadow. -/
def Dev.laneWord (d : Dev) (n : Nat) : Nat := d.word (rasB + 0x800 + 4 * n)

/-- ROLE of a lane word. -/
def laneRole (w : Nat) : Nat := w % 8

/-- Bits of a depth code. -/
def rasDepth (c : Nat) : Nat := if c = 0 then 8 else if c = 1 then 10 else if c = 2 then 12 else 16

/-- The rules of one direction of a mode: ACTIVE, TOTAL, sync START and WIDTH, the least blanking, and the multiple. -/
def timingOk (act tot st wid blank mult : Nat) : Bool :=
  decide (1 ≤ act) && decide (act ≤ 8192) && act % mult == 0 && tot % mult == 0 && st % mult == 0 && wid % mult == 0 &&
    decide (act + blank ≤ tot) && decide (act ≤ st) && decide (1 ≤ wid) && decide (st + wid ≤ tot)

/-- TIMING of the mode shadow. -/
def Dev.rasTiming (d : Dev) : Bool :=
  let p := 2 ^ d.get rasB .RAS_T_FMT_PPC
  timingOk (d.get rasB .RAS_T_HACT_ACTIVE) (d.get rasB .RAS_T_HACT_TOTAL) (d.get rasB .RAS_T_HSYNC_START) (d.get rasB .RAS_T_HSYNC_WIDTH) (8 * p) p &&
    timingOk (d.get rasB .RAS_T_VACT_ACTIVE) (d.get rasB .RAS_T_VACT_TOTAL) (d.get rasB .RAS_T_VSYNC_START) (d.get rasB .RAS_T_VSYNC_WIDTH) 1 1

/-- CLOCK of the mode shadow: 10 MHz to 400 MHz (R324). -/
def Dev.rasClockOk (d : Dev) : Bool :=
  if d.bit rasB .RAS_T_CLK_SRC then decide (4096 ≤ d.rangeTv (2 * d.get rasB .RAS_CTRL_GROUP))
  else
    let mul := d.get rasB .RAS_T_CLK_MUL
    let div := d.get rasB .RAS_T_CLK_DIV
    div != 0 && decide (div ≤ 10 * mul) && decide (mul ≤ 4 * div)

/-- LANE of the mode shadow: OUT, and for a DATA lane COMP, BIT and PIX. -/
def Dev.rasLaneOk (d : Dev) : Bool :=
  let out := d.get rasB .RAS_T_FMT_OUT
  let dep := rasDepth (d.get rasB .RAS_T_FMT_DEPTH)
  out != 3 && (List.range 256).all (fun n =>
    let w := d.laneWord n
    let comp := w / 16 % 4
    laneRole w != 1 || (decide (w / 256 % 16 < dep) && decide (w / 4096 % 8 < 2 ^ d.get rasB .RAS_T_FMT_PPC) &&
      (if out = 0 then comp == 0 else if out = 1 then decide (comp < 3) else comp == 0 || comp == 3)))

/-- The raster lanes of the shadow, as global channels of the group. -/
def Dev.rasShadowPins (d : Dev) : List Nat :=
  ((List.range 256).filter (fun n => laneRole (d.laneWord n) != 0)).map (fun n => 256 * d.get rasB .RAS_CTRL_GROUP + n)

/-- The cause for which the mode shadow is refused, the first in the order of the table of R325. -/
def Dev.rasCheck (d : Dev) : Option Nat :=
  if ¬ d.rasTiming then some 3
  else if ¬ d.rasClockOk then some 4
  else if ¬ d.rasLaneOk then some 5
  else if d.rasShadowPins.any (fun g => match (d.pin g).owner with | some c => d.ctxOwning c | none => false) then some 1
  else if ¬ (List.range 8).all (fun i => d.present (8 * d.get rasB .RAS_CTRL_GROUP + i)) then some 2
  else none

/-- A refusal with its cause. -/
def Dev.rasRefuse (d : Dev) (cause : Nat) : Dev := (d.put rasB .RAS_STAT_CAUSE cause).irq .ras rasB 6

/-! ### Layers (R325, R327) -/

/-- The pending set of a layer. -/
def Dev.layerRegs (d : Dev) (i : Nat) : List Nat := (List.range 11).map (fun k => d.word (rasB + 0x100 + 0x80 * i + 4 * k))

/-- Fields of a layer set. -/
def layEn (l : List Nat) : Bool := bitOf (l.getD 0 0) 31
def layFmt (l : List Nat) : Nat := l.getD 0 0 / 256 % 8
def layDepth (l : List Nat) : Nat := rasDepth (l.getD 0 0 / 16 % 4)
def layX (l : List Nat) : Nat := l.getD 1 0 % 2 ^ 14
def layY (l : List Nat) : Nat := l.getD 1 0 / 2 ^ 16 % 2 ^ 14
def layW (l : List Nat) : Nat := l.getD 2 0 % 2 ^ 14
def layH (l : List Nat) : Nat := l.getD 2 0 / 2 ^ 16 % 2 ^ 14
def layTag (l : List Nat) : Nat := l.getD 3 0 / 2 ^ 16
def layAlpha (l : List Nat) : Nat := l.getD 3 0 % 2 ^ 9
def layBase (l : List Nat) (p : Nat) : Nat := (l.getD (4 + 2 * p) 0 + l.getD (5 + 2 * p) 0 * 2 ^ 32) % 2 ^ 36 / 64 * 64
def layYS (l : List Nat) : Nat := l.getD 10 0 % 2 ^ 16 * 64
def layCS (l : List Nat) : Nat := l.getD 10 0 / 2 ^ 16 * 64

/-- Bytes of a sample. -/
def layBytes (l : List Nat) : Nat := if layDepth l = 8 then 1 else 2

/-- A plane lies in the store and its stride holds its lines: lines, bytes of a line, stride, base. -/
def planeOk (lines bytes stride base : Nat) : Bool := decide (bytes ≤ stride) && decide (base + (lines - 1) * stride + bytes ≤ storeBytes)

/-- LAYER of a layer set. -/
def layerOk (l : List Nat) : Bool :=
  let f := layFmt l
  let w := layW l
  let h := layH l
  let half := decide (3 ≤ f)
  let cw := (if half then w / 2 else w) * layBytes l
  let ch := if 5 ≤ f then h / 2 else h
  f != 7 && decide (1 ≤ w) && decide (w ≤ 8192) && decide (1 ≤ h) && decide (h ≤ 8192) && !(half && w % 2 == 1) && !(decide (5 ≤ f) && h % 2 == 1) &&
    planeOk h (w * layBytes l) (layYS l) (layBase l 0) &&
    (f == 0 || (if f % 2 = 1 then planeOk ch cw (layCS l) (layBase l 1) && planeOk ch cw (layCS l) (layBase l 2)
      else planeOk ch (2 * cw) (layCS l) (layBase l 1)))

/-! ### Composition (R327, R328) -/

/-- A sample of depth `n` as 16 bits. -/
def to16 (n s : Nat) : Nat := if n = 16 then s else s * 2 ^ (16 - n) + s / 2 ^ (2 * n - 16)

/-- Sample `i` of a line that starts at an address. -/
def laySample (m : Tab Byte) (l : List Nat) (a i : Nat) : Nat :=
  let n := layDepth l
  to16 n (if n = 8 then storeByte m (a + i) else storeLE m (a + 2 * i) 2 % 2 ^ n)

/-- Y, Cb and Cr of pixel (x, y) of a layer, 16 bits each. -/
def layPixel (m : Tab Byte) (l : List Nat) (x y : Nat) : List Nat :=
  let f := layFmt l
  let xc := if 3 ≤ f then x / 2 else x
  let yc := if 5 ≤ f then y / 2 else y
  let lum := laySample m l (layBase l 0 + y * layYS l) x
  if f = 0 then [lum, 0x8000, 0x8000]
  else if f % 2 = 1 then [lum, laySample m l (layBase l 1 + yc * layCS l) xc, laySample m l (layBase l 2 + yc * layCS l) xc]
  else [lum, laySample m l (layBase l 1 + yc * layCS l) (2 * xc), laySample m l (layBase l 1 + yc * layCS l) (2 * xc + 1)]

/-- Pixel (x, y) of the active area lies inside a layer that is shown. -/
def layInside (l : List Nat) (x y : Nat) : Bool :=
  layEn l && decide (layX l ≤ x) && decide (x < layX l + layW l) && decide (layY l ≤ y) && decide (y < layY l + layH l)

/-- Layer 1 over a base with alpha `a`. -/
def blend (a p q : Nat) : Nat := if a ≤ 256 then (p * a + q * (256 - a) + 128) / 256 else Config.alphaOver a p q

/-- The bytes of plane `p` that a layer reads for active line `y` of `act` pixels: where they start and how many; what lies outside the active area is not
read (R327, R328). -/
def layLine (l : List Nat) (act y p : Nat) : Option (Nat × Nat) :=
  let f := layFmt l
  let w := Nat.min (layW l) (act - layX l)
  let cw := (if 3 ≤ f then (w + 1) / 2 else w) * layBytes l
  let yl := y - layY l
  let yc := if 5 ≤ f then yl / 2 else yl
  if !layEn l || w == 0 || decide (y < layY l) || decide (layY l + layH l ≤ y) then none
  else if p = 0 then some (layBase l 0 + yl * layYS l, w * layBytes l)
  else if f = 0 then none
  else if f % 2 = 1 then some (layBase l p + yc * layCS l, cw)
  else if p = 1 then some (layBase l 1 + yc * layCS l, 2 * cw)
  else none

/-- The background of the active set. -/
def Dev.rasBg (d : Dev) : List Nat := [d.get rasB .RAS_A_BG0_Y, d.get rasB .RAS_A_BG0_CB, d.get rasB .RAS_A_BG1_CR]

/-- The composed pixel, 16 bits per component. -/
def Dev.rasPixel (d : Dev) (m : Tab Byte) (x y : Nat) : List Nat :=
  let l0 := d.ras.front.getD 0 []
  let l1 := d.ras.front.getD 1 []
  let base := if layInside l0 x y then layPixel m l0 (x - layX l0) (y - layY l0) else d.rasBg
  if layInside l1 x y then List.zipWith (blend (layAlpha l1)) (layPixel m l1 (x - layX l1) (y - layY l1)) base else base

/-- A component at the output depth. -/
def rasOut (n v : Nat) : Nat := if n = 16 then v else Nat.min ((v + 2 ^ (15 - n)) / 2 ^ (16 - n)) (2 ^ n - 1)

/-- A line as driven: every pixel's Y, Cb, Cr at the output depth; the pixels in `[lo, hi)` are the background (R329). -/
def Dev.rasLine (d : Dev) (m : Tab Byte) (y lo hi : Nat) : List (List Nat) :=
  let n := rasDepth (d.get rasB .RAS_A_T_FMT_DEPTH)
  (List.range (d.get rasB .RAS_A_T_HACT_ACTIVE)).map (fun x => ((if lo ≤ x ∧ x < hi then d.rasBg else d.rasPixel m x y).map (rasOut n)))

/-- Component COMP of pixel `x` of a line: Y, Cb, Cr, or the 4:2:2 chroma of its pair (R323). -/
def lineComp (px : List (List Nat)) (comp x : Nat) : Nat :=
  if comp < 3 then (px.getD x []).getD comp 0 else (px.getD (x / 2 * 2) []).getD (1 + x % 2) 0

/-- The components a pixel contributes to a CRC (R334). -/
def crcComps (out : Nat) : List Nat := if out = 0 then [0] else if out = 1 then [0, 1, 2] else [0, 3]

/-- The running CRC of a rectangle over a line. -/
def Dev.rectLine (d : Dev) (px : List (List Nat)) (y : Nat) (r : List Nat) (crc : Nat) : Nat :=
  let pos := r.getD 0 0
  let size := r.getD 1 0
  let y0 := pos / 2 ^ 16 % 2 ^ 14
  if bitOf pos 31 ∧ y0 ≤ y ∧ y < y0 + size / 2 ^ 16 % 2 ^ 14 then
    ((List.range px.length).filter (fun x => decide (pos % 2 ^ 14 ≤ x) && decide (x < pos % 2 ^ 14 + size % 2 ^ 14))).foldl (fun c x =>
      (crcComps (d.get rasB .RAS_A_T_FMT_OUT)).foldl (fun c k => let v := lineComp px k x; crcBytes c [v % 256, v / 256]) c) crc
  else crc

/-! ### Lanes (R323, R324) -/

/-- `k` pixel periods in fine units, rounded down (R324). -/
def Dev.rasTicks (d : Dev) (k : Nat) : Nat :=
  if d.bit rasB .RAS_A_T_CLK_SRC then k * d.rangeTv (2 * d.ras.group)
  else k * 16384 * d.get rasB .RAS_A_T_CLK_DIV / d.get rasB .RAS_A_T_CLK_MUL

/-- At least 64 pixel clocks have passed since a time. -/
def Dev.ras64 (d : Dev) (t : Nat) : Bool :=
  if d.bit rasB .RAS_A_T_CLK_SRC then decide (t + 64 * d.rangeTv (2 * d.ras.group) ≤ d.time)
  else decide (1048576 * d.get rasB .RAS_A_T_CLK_DIV ≤ (d.time - t) * d.get rasB .RAS_A_T_CLK_MUL)

/-- The symbol of a lane word at clock `j` of line `y`; `px` is the line as driven, empty in blanking or in a blanking frame. -/
def Dev.laneSym (d : Dev) (px : List (List Nat)) (y j w : Nat) : Nat :=
  let ppc := 2 ^ d.get rasB .RAS_A_T_FMT_PPC
  let act := decide (j * ppc < px.length)
  let within := fun (v st wid : Nat) => if st ≤ v ∧ v < st + wid then 1 else 0
  match laneRole w with
  | 1 => if act then lineComp px (w / 16 % 4) (j * ppc + w / 4096 % 8) / 2 ^ (w / 256 % 16) % 2 else 2
  | 2 => if px = [] then 2 else y / 2 ^ (w / 256 % 16) % 2
  | 3 => if act then j / 2 ^ (w / 256 % 16) % 2 else 2
  | 4 => within (j * ppc) (d.get rasB .RAS_A_T_HSYNC_START) (d.get rasB .RAS_A_T_HSYNC_WIDTH)
  | 5 => within y (d.get rasB .RAS_A_T_VSYNC_START) (d.get rasB .RAS_A_T_VSYNC_WIDTH)
  | 6 => if act then 1 else 0
  | _ => 1

/-- The active raster lanes, each with its global channel. -/
def Dev.rasLanes (d : Dev) : List (Nat × Nat) := (d.ras.lanes.filter (fun e => laneRole e.2 != 0)).map (fun e => (256 * d.ras.group + e.1, e.2))

/-- A channel is a raster lane of an engine that is not OFF (R322). -/
def Dev.rasOwns (d : Dev) (g : Nat) : Bool := d.rasOn && d.rasLanes.any (fun l => l.1 == g)

/-- One pixel clock on a lane: the drive and MARK actions of its wave set (R81 to R83); its strobes and windows form no result. -/
def Dev.laneClock (d : Dev) (g ws t sym : Nat) : Dev :=
  let r := d.vectorActs g ws (d.rasTicks 1) 1 (fun _ => sym)
  r.2.foldl (fun d a =>
    if a.code ≤ 4 then d.driveTo g a.edge (t + a.t + lTip) (drvOfAct a.code) else if a.code = 15 then d.tdcMark g (t + a.t + lTip) else d) r.1

/-- The clocks of a line on every lane. -/
def Dev.lineClocks (d : Dev) (px : List (List Nat)) (y : Nat) : Dev :=
  let n := d.get rasB .RAS_A_T_HACT_TOTAL / 2 ^ d.get rasB .RAS_A_T_FMT_PPC
  d.forAll (List.range n) (fun d j =>
    d.rasLanes.foldl (fun d l => d.laneClock l.1 (l.2 / 2 ^ 16 % 16) (d.ras.t0 + d.rasTicks (y * n + j)) (d.laneSym px y j l.2)) d)

/-! ### Modes (R322, R326, R336) -/

/-- The mode shadow becomes the active set. -/
def Dev.rasLoad (d : Dev) : Dev :=
  let d := d.forAll (List.range 8) (fun d i => d.setWord (rasB + 0xC0 + 4 * i) (d.word (rasB + 0x80 + 4 * i)))
  let ls := (List.range 256).filterMap (fun n => if laneRole (d.laneWord n) = 0 then none else some (n, d.laneWord n))
  { d with ras := { d.ras with lanes := ls, group := d.get rasB .RAS_CTRL_GROUP } }

/-- Set whether the clock change is under way. -/
def Dev.rasRelock (d : Dev) (b : Bool) : Dev := { d with ras := { d.ras with relock := b } }

/-- The clock of the active set is requested: its multiplexer and the RAS PLL (R326 step 2). -/
def Dev.rasClock (d : Dev) : Dev :=
  let src := if d.bit rasB .RAS_A_T_CLK_SRC then 1 else 0
  let wait := decide (src = 0) || decide (d.get (muxBase 2) .CLK_SW_STAT_CUR ≠ src)
  let d := if src = 0 then d.setBitN clkB .CLK_PLL_LOCK_PLL 6 false else d
  (d.muxRequest 2 src).rasRelock wait

/-- The lanes take PIN_CTRL.STATIC. -/
def Dev.lanesStatic (d : Dev) : Dev := d.rasLanes.foldl (fun d l => if d.pinLive l.1 then d.driveStatic l.1 else d) d

/-- The engine stops (R336): lanes STATIC, buffers released, STATE OFF. -/
def Dev.rasFinish (d : Dev) : Dev :=
  let d := d.lanesStatic.rasReleaseAll
  { d with ras := { d.ras with applyT := [], relock := false, done := false, lanes := [] } }.put rasB .PG_STAT_STATE 0

/-- A write of RAS_CTRL (R322, R336): enable, with its checks, or disable. -/
def Dev.rasCtrl (d : Dev) (v : Nat) : Dev :=
  let en := d.bit rasB .RAS_CTRL_EN
  let d := if en then d else d.put rasB .RAS_CTRL_GROUP (v % 4)
  let st := d.get rasB .PG_STAT_STATE
  if bitOf v 31 then
    if st ≠ 0 ∧ st ≠ 4 then d
    else match d.rasCheck with
    | some c => d.rasRefuse c
    | none =>
      let d := (d.setb rasB .RAS_CTRL_EN true).rasLoad
      let d := { d with ras := { d.ras with started := false, closing := false, inFrame := false, applyT := [], done := false } }
      let d := (d.put rasB .PG_STAT_STATE 1).rasClock
      d.forAll ((List.range 8).map (fun i => 8 * d.ras.group + i)) Dev.wakeReqFree
  else if en then
    let d := d.setb rasB .RAS_CTRL_EN false
    if d.ras.inFrame then { d with ras := { d.ras with closing := true } } else d.rasFinish
  else d

/-- RAS_MODE_APPLY.GO (R326). -/
def Dev.rasApply (d : Dev) : Dev :=
  if ¬ d.rasOn ∨ d.get rasB .PG_STAT_STATE = 4 then d
  else match d.rasCheck with
  | some c => d.rasRefuse c
  | none => { d with ras := { d.ras with applyT := d.ras.applyT ++ [d.time] } }

/-- RAS_FLIP (R330, R331). -/
def Dev.rasFlip (d : Dev) (v : Nat) : Dev :=
  let is := [0, 1].filter (bitOf v)
  if ¬ is.all (fun i => layerOk (d.layerRegs i)) then d.rasRefuse 6
  else d.forAll is (fun d i =>
    let r := d.ras
    let skips := match r.pend.getD i none with | some p => r.skips ++ [(i, layTag p)] | none => r.skips
    { d with ras := { r with pend := r.pend.set i (some (d.layerRegs i)), flipT := r.flipT.set i d.time, skips := skips } }.setb (rasB + 0x80 * i) .RAS_L_FRONT_PENDING true)

/-! ### Frames (R326, R330, R331, R335) -/

/-- The pixel period is held against the swing class of every lane, exactly (R68, R324). -/
def Dev.rasOverrate (d : Dev) : Dev :=
  d.rasLanes.foldl (fun d l =>
    let u := [256, 512, 1024].getD (d.get (pinBase l.1) .PIN_SWING_CLASS) 1024
    let short := if d.bit rasB .RAS_A_T_CLK_SRC then decide (d.rangeTv (2 * d.ras.group) < u)
      else decide (16384 * d.get rasB .RAS_A_T_CLK_DIV < u * d.get rasB .RAS_A_T_CLK_MUL)
    if short && d.pinLive l.1 then (d.setb (pinBase l.1) .PIN_STAT_OVERRATE true).irq .pin (pinBase l.1) 5 else d) d

/-- A frame starts: it is counted, and nothing has been driven. -/
def Dev.rasFrame (d : Dev) (flags : Nat) : Dev :=
  let d := d.rasOverrate
  let n := if d.ras.started then (d.get rasB .RAS_FRAME_CNT_COUNT + 1) % 2 ^ 32 else 0
  let d := d.put rasB .RAS_FRAME_CNT_COUNT n
  { d with ras := { d.ras with started := true, inFrame := true, flags := flags, t0 := d.time, line := 0, crcs := List.replicate 16 0xFFFFFFFF } }.irq .ras rasB 0

/-- The pending flip of a layer acts at frame `f`. -/
def Dev.rasFlipAct (d : Dev) (f i : Nat) : Dev :=
  match d.ras.pend.getD i none with
  | none => d
  | some p =>
    let d := (d.ras.skips.filter (fun s => s.1 == i)).foldl (fun d s => d.rasRelease i s.2 f true) d
    let old := d.ras.front.getD i []
    let d := if old = [] then d else d.rasRelease i (layTag old) f false
    let d := { d with ras := { d.ras with front := d.ras.front.set i p, pend := d.ras.pend.set i none, skips := d.ras.skips.filter (fun s => s.1 != i) } }
    (d.setb (rasB + 0x80 * i) .RAS_L_FRONT_PENDING false).put (rasB + 0x80 * i) .RAS_L_FRONT_TAG (layTag p)

/-- A normal frame starts, and the pending flips that are old enough act together (R330). -/
def Dev.rasNormal (d : Dev) : Dev :=
  let d := (d.rasFrame 0).put rasB .PG_STAT_STATE 2
  let is := [0, 1].filter (fun i => (d.ras.pend.getD i none).isSome && d.ras64 (d.ras.flipT.getD i 0))
  let d := if is = [] then d
    else
      let d := d.forAll is (fun d i => d.rasFlipAct (d.get rasB .RAS_FRAME_CNT_COUNT) i)
      let rs := (List.range 16).map (fun r => (List.range 3).map (fun k => d.word (rasB + 0x200 + 0x10 * r + 4 * k)))
      { d with ras := { d.ras with rects := rs, flags := 2 } }.put rasB .RAS_FLIP_TIME_TIME (d.time + lTip)
  if d.ras.done then { d with ras := { d.ras with done := false } }.irq .ras rasB 4 else d

/-- The clock of the mode shadow is that of the active set. -/
def Dev.rasSameClock (d : Dev) : Bool :=
  d.get rasB .RAS_T_CLK_SRC == d.get rasB .RAS_A_T_CLK_SRC && d.get rasB .RAS_T_CLK_MUL == d.get rasB .RAS_A_T_CLK_MUL &&
    d.get rasB .RAS_T_CLK_DIV == d.get rasB .RAS_A_T_CLK_DIV

/-- MODE_DONE is due at the next normal frame. -/
def Dev.rasDone (d : Dev) : Dev := { d with ras := { d.ras with done := true } }

/-- FRAME_START (R326, R330, R335): the next normal frame starts, or, where a mode apply with another clock is due, the pixel clock
stops and the change begins. -/
def Dev.frameStart (d : Dev) : Dev :=
  let st := d.get rasB .PG_STAT_STATE
  if ¬ d.bit rasB .RAS_CTRL_EN ∨ st = 0 ∨ st = 4 ∨ d.ras.inFrame ∨ d.ras.relock then d
  else if d.bit rasB .RAS_A_T_CLK_SRC = true ∧ ¬ d.bit (vpBase (2 * d.ras.group)) .CLK_VP_STAT_LOCKED then d
  else if ¬ d.ras.applyT.any d.ras64 then d.rasNormal
  else
    let d := { d with ras := { d.ras with applyT := d.ras.applyT.filter (fun t => !d.ras64 t) } }
    match d.rasCheck with
    | some c => (d.rasRefuse c).rasNormal
    | none =>
      if d.rasSameClock then d.rasLoad.rasDone.rasNormal
      else (d.rasLoad.put rasB .PG_STAT_STATE 3).rasClock

/-- RAS_PLL_LOCK (R326): the clock change is complete; after a mode apply the blanking frame starts. -/
def Dev.rasPllLock (d : Dev) : Dev :=
  if ¬ d.ras.relock ∨ ¬ d.rasOn then d
  else
    let b := muxBase 2
    let d := (d.put b .CLK_SW_STAT_CUR (d.get b .CLK_SW_STAT_REQ)).put b .CLK_SW_STAT_STATE 0
    let d := if d.bit rasB .RAS_A_T_CLK_SRC then d else d.setBitN clkB .CLK_PLL_LOCK_PLL 6 true
    let d := d.rasRelock false
    if d.get rasB .PG_STAT_STATE = 3 then d.rasFrame 8 else d

/-- The ECC of the fetches of line `y` (R160, R329): the bytes read are counted; a word that cannot be corrected is counted and captured, and its data,
stated nowhere, are free. Answers the store as it is read, and whether the frame carries ECC. -/
def Dev.lineEcc (d : Dev) (m : Tab Byte) (y : Nat) (e : LineEcc) : Dev × Tab Byte × Bool :=
  let act := d.get rasB .RAS_A_T_HACT_ACTIVE
  let at_ := fun (i p : Nat) => layLine (d.ras.front.getD i []) act y p
  let all := [0, 1].flatMap (fun i => [0, 1, 2].filterMap (fun p => at_ i p))
  if all = [] then (d, m, false)
  else
    let d := d.satAdd patB .PAT_RD_BYTES_BYTES ((all.map Prod.snd).sum)
    let i := d.evalInj 0x0B 0 0
    let d := if i.2 then i.1.patUe (all.getD 0 (0, 0)).1 true else i.1
    match e with
    | .clean => (d, m, i.2)
    | .corrected => (d.satInc patB .PAT_ECC_CE_CNT_COUNT, m, i.2)
    | .lost k p o =>
      match at_ k.val p.val with
      | some (a, n) =>
        if o.toNat < n then
          let v := d.takeFree (2 ^ 64)
          (v.1.patUe (a + o.toNat) false, storeWrite m ((a + o.toNat) / 8 * 8) ((List.range 8).map (fun j => BitVec.ofNat 8 (v.2 / 256 ^ j))), true)
        else (d, m, i.2)
      | none => (d, m, i.2)

/-- RAS_LINE_FETCH (R327 to R329, R334): the next active line is fetched, composed and driven; the pixels in `[lo, hi)` were not there
in time. -/
def Dev.rasLineFetch (d : Dev) (m : Tab Byte) (lo hi : Nat) (ecc : LineEcc) : Dev :=
  let y := d.ras.line
  if ¬ d.ras.inFrame ∨ bitOf d.ras.flags 3 = true ∨ d.get rasB .RAS_A_T_VACT_ACTIVE ≤ y then d
  else
    let late := decide (lo < hi) && decide (lo < d.get rasB .RAS_A_T_HACT_ACTIVE)
    let par := d.evalInj 0x0D 0 0
    let d := if par.2 then (par.1.fltBit rasB 0).faultEvt 0x0D 0 0 [] true else par.1
    let f := d.lineEcc m y ecc
    let d := f.1
    let px := d.rasLine f.2.1 y lo hi
    let crcs := List.zipWith (fun r c => d.rectLine px y r c) d.ras.rects d.ras.crcs
    let flags := Nat.lor (Nat.lor d.ras.flags (if late then 4 else 0)) (if f.2.2 then 1 else 0)
    let d := { d with ras := { d.ras with crcs := crcs ++ d.ras.crcs.drop crcs.length, flags := flags, line := y + 1 } }
    let d := if late then d.irq .ras rasB 5 else d
    d.lineClocks px y

/-- The rectangle CRCs of a normal frame (R334): the state after it, and MISMATCH. -/
def Dev.rasCrcs (d : Dev) : Dev × Nat :=
  (d.ras.rects.zipIdx).foldl (fun (acc : Dev × Nat) p =>
    if bitOf (p.1.getD 0 0) 31 then
      let v := Nat.xor (acc.1.ras.crcs.getD p.2 0) 0xFFFFFFFF
      (acc.1.put (rasB + 0x10 * p.2) .RAS_R_CRC_CRC v, if v = p.1.getD 2 0 then acc.2 else acc.2 + 2 ^ p.2)
    else acc) (d, 0)

/-- The blanking lines of the frame in progress, or all of its lines in a blanking frame, on the lanes. -/
def Dev.blankLines (d : Dev) : Dev :=
  let k := d.ras.line
  d.forAll ((List.range (d.get rasB .RAS_A_T_VACT_TOTAL - k)).map (· + k)) (fun d y => d.lineClocks [] y)

/-- FRAME_END (R334, R335, R326, R336): the frame in progress ends, once every active line has been driven. -/
def Dev.frameEnd (d : Dev) : Dev :=
  let blank := bitOf d.ras.flags 3
  if ¬ d.ras.inFrame ∨ (blank = false ∧ d.ras.line < d.get rasB .RAS_A_T_VACT_ACTIVE) then d
  else
    let d := d.blankLines
    let r := if blank then (d, 0) else d.rasCrcs
    let d := if r.2 = 0 then r.1 else r.1.irq .ras rasB 2
    let e := rasPush d.ras.frames (2 ^ 63 + d.ras.flags * 2 ^ 59 + r.2 * 2 ^ 32 + d.get rasB .RAS_FRAME_CNT_COUNT)
    let d := if e.2 then d else d.satInc rasB .RAS_LOST_CNT_COUNT
    let d := { d with ras := { d.ras with frames := e.1, inFrame := false, done := d.ras.done || blank } }.irq .ras rasB 3
    if d.ras.closing then d.rasFinish else d

/-! ### Pops (R333) -/

/-- A pop of RAS_FRAME_POP: the state after it and the 64-bit value. -/
def Dev.rasFramePop (d : Dev) : Dev × Nat :=
  match d.ras.frames with
  | e :: es => ({ d with ras := { d.ras with frames := es, popF := e % 2 ^ 32 } }, e)
  | [] => (d, d.ras.popF)

/-- A pop of RAS_REL_POP. -/
def Dev.rasRelPop (d : Dev) : Dev × Nat :=
  match d.ras.rels with
  | e :: es => ({ d with ras := { d.ras with rels := es, popR := e % 2 ^ 32 } }, e)
  | [] => (d, d.ras.popR)

end Sys2Proof.Machine
end

