-- ==== Sys2Proof/Machine/Live.lean ====
section
/-! DEFINITION. Register values as they stand (R35): what a read of a register computes from the rest of the state, and the staged
writes of transactions as the TXN page shows them (R31, R45). -/

namespace Sys2Proof.Machine

/-- The address of a slot register block (R52). -/
def txnSlot (s : Nat) : Nat := txnB + 0x100 + s * 0x40

/-- The channel of a DPS page. -/
def dpsOf (base : Nat) : Nat := (base - 0x20000) / 0x1000

/-- The words that a staged write covers: a 64-bit value is one write (R32). -/
def stagedWords (w : Nat × Nat × Nat) : List Nat := if 2 ^ 32 ≤ w.2.1 then [w.1, w.1 + 4] else [w.1]

/-- Bit s: slot s holds a staged write to the page (PG_TXN). -/
def Dev.pageTxn (d : Dev) (base : Nat) : Nat :=
  (List.range 8).foldl (fun a s =>
    if (d.slot s).writes.any (fun w => decide (base ≤ w.1) && decide (w.1 < base + 0x1000)) then a + 2 ^ s else a) 0

/-- The last write staged in a slot to a word, if any (R45). -/
def Dev.peek (d : Dev) (s a : Nat) : Option Nat :=
  (d.slot s).writes.foldl (fun r w =>
    if w.1 = a then some (w.2.2 % 2 ^ 32) else if (stagedWords w).contains a then some (w.2.2 / 2 ^ 32) else r) none

/-- PG_STAT.STATE of a PIN page. -/
def Dev.pinState (d : Dev) (g : Nat) : Nat :=
  let b := pinBase g
  let p := d.pin g
  if p.safe then 5
  else if p.phase = .disSlew then 8
  else if d.bit b .PG_CTRL_EN = false then 0
  else if d.bit b .PIN_STAT_PARKED = true ∨ p.phase = .enaSlew then 1
  else if p.phase = .spanToZero ∨ p.phase = .spanFromZero then 6
  else if d.clState (g / 32) = 2 then 4
  else if d.clState (g / 32) = 3 then 7
  else if (d.service g).isSome then 3
  else 2

/-- A slot of some context of cluster `n` is OPEN. -/
def Dev.acqOpenIn (d : Dev) (n : Nat) : Bool :=
  (List.range 32).any (fun i => (List.range 8).any (fun k => ((d.cx (32 * n + i)).aslot k).st == .live))

/-- PG_STAT.STATE of the pages that compute it from their block; `none`: it is stored. -/
def Dev.pageState (d : Dev) (kind : PageKind) (base : Nat) : Option Nat :=
  let n := (pageCluster kind base).getD 0
  let b2n := fun (b : Bool) => if b then 1 else 0
  match kind with
  | .pin => some (d.pinState (32 * n + base / 0x1000 % 32))
  | .tdc => if d.get base .PG_STAT_STATE = 2 then none else some (b2n ((clPins n).any (fun g => decide (d.tdcState g ≠ 0))))
  | .wfg => some (b2n ((List.range 4).any (fun x => d.genActive (4 * n + x))))
  | .acq => some (b2n (d.acqOpenIn n))
  | .patc => some (b2n (d.fills.any (fun f => f.ctx / 32 == n)))
  | .calc => match (d.eng n).run with
    | some r => if r.rtn.slot = 0x28 then some 2 else none
    | none => none
  | .seq => some (d.seqState n)
  | .pmcc => some (b2n (d.bit base .PMC_CTRL_EN))
  | .res => some (b2n (d.bufs ≠ [] || (List.range 8).any (fun m => d.mb m ≠ [])))
  | .pwr => some (b2n (d.pow.queue ≠ [] || d.pow.prog ≠ []))
  | .flt => some (if d.get base .FLT_SAFE_MAP_CLUSTER ≠ 0 then 2 else b2n (d.bit base .FLT_FIRST_VALID))
  | .msp => some (if d.bit base .MSP_CFG_MASTER then 2 else b2n d.msp.cmd.isSome)
  | _ => none

/-- The block instance of PG_ID. -/
def pageInstance (kind : PageKind) (base : Nat) : Nat :=
  match kind with
  | .pin => base / 0x1000 % 32
  | .dps => (base - 0x20000) / 0x1000
  | _ => (pageCluster kind base).getD 0

/-- A register of the page header (R31). -/
def Dev.liveHdr (d : Dev) (kind : PageKind) (base off : Nat) : Nat :=
  match off with
  | 0x00 => kind.code * 2 ^ 24 + pageInstance kind base * 2 ^ 16 + (if d.fuse.step = 0 then 0 else Config.revision kind.code d.fuse.step % 2 ^ 16)
  | 0x04 => kind.cap
  | 0x0C => match d.pageState kind base with
    | some st => setBits (d.word (base + off)) 8 4 st
    | none => d.word (base + off)
  | 0x2C => d.pageTxn base
  | _ => d.word (base + off)

/-- The pages of cluster `n`: cluster pages, PIN pages, DPS pages. -/
def clusterPages (n : Nat) : List Nat :=
  (List.range 8).map (fun i => clBase n + i * 0x1000) ++ (clPins n).map pinBase ++ [dpsBase (2 * n), dpsBase (2 * n + 1)]

/-- Bits of the numbers below `k` at which a condition holds. -/
def mapBits (k : Nat) (f : Nat → Bool) : Nat := (List.range k).foldl (fun a i => if f i then a + 2 ^ i else a) 0

/-- The word of a frame of a committed stack, as SEQ_DBG_SEL selects it. -/
def Dev.dbgFrame (d : Dev) (base : Nat) : Nat :=
  let n := (pageCluster .seq base).getD 0
  let x := d.cx (32 * n + d.get base .SEQ_DBG_SEL_CTX)
  match x.stack[d.get base .SEQ_DBG_SEL_FRAME]? with
  | some f =>
    if d.bit base .SEQ_DBG_SEL_HALF then f.count % 2 ^ 20
    else (match f.kind with | .loop => 0 | .mtch => 1 | .ret => 2) * 2 ^ 28 + f.op % 2 ^ 20
  | none => if d.bit base .SEQ_DBG_SEL_HALF then 0 else 3 * 2 ^ 28

/-- UCS_CRC (R155): over the patch words and the match registers. -/
def Dev.ucsCrc (d : Dev) (n : Nat) : Nat :=
  let c := (List.range 1024).foldl (fun c w => crcBytes c (wordBytes (Tab.get (fun _ => 0) (d.eng n).pram w))) 0xFFFFFFFF
  Nat.xor ((List.range 32).foldl (fun c i => crcBytes c (wordBytes (d.word (ucsBase n + 0x100 + 4 * i)))) c) 0xFFFFFFFF

/-- A register of a block (offsets from 0x040), as one word. -/
def Dev.liveBlock (d : Dev) (kind : PageKind) (base off : Nat) : Nat :=
  let a := base + off
  let n := (pageCluster kind base).getD 0
  match kind with
  | .glb =>
    if off = 0x40 then d.clusters.length * 2 ^ 16 + (mapBits 8 (fun r => d.present (4 * r)) |> fun m => ((List.range 8).filter (bitOf m)).length) * 2 ^ 8
      + d.fuse.code % 16 * 16 + d.fuse.step % 16
    else if off = 0x44 then d.fuse.present % 2 ^ 32
    else d.word a
  | .txn =>
    if 0x100 ≤ off ∧ off % 0x40 = 0x18 then (d.peek ((off - 0x100) / 0x40) (d.word (a - 4))).getD 0
    else if 0x100 ≤ off ∧ off % 0x40 = 0x1C then (if (d.peek ((off - 0x100) / 0x40) (d.word (a - 8))).isSome then 1 else 0)
    else d.word a
  | .flt =>
    if off = 0x40 then setBits (d.word a) 30 1 (if d.bit base .FLT_FIRST_VALID && d.detecting (d.get base .FLT_FIRST_SOURCE) then 1 else 0)
    else if off = 0x78 then mapBits 16 (fun t => d.get (t * 0x1000) .PG_FLT_STAT_BITS != 0)
    else if off = 0x7C then mapBits 32 (fun n => (clusterPages n).any (fun b => d.get b .PG_FLT_STAT_BITS != 0))
    else d.word a
  | .lcs => if 0x80 ≤ off ∧ off < 0xA0 then 0 else d.word a
  | .bst => if off = 0x58 then d.repData else d.word a
  | .calg => if off = 0x58 then mapBits 32 (fun n => d.present n && (d.get (calcBase n) .CAL_CL_DUE_DUE != 0 || d.get (calcBase n) .CAL_CL_REQ_KIND != 0)) else d.word a
  | .msl => if off = 0x50 then lo32 d.time else if off = 0x54 then hi32 d.time else d.word a
  | .pwr =>
    if 0x100 ≤ off ∧ off < 0x300 ∧ off % 0x10 = 8 then
      let k := (off - 0x100) / 0x10
      setBits (setBits (d.word a) 24 4 (d.pwrTarget k)) 0 7 (blockBits (d.pwrBlock k))
    else d.word a
  | .patc =>
    if off = 0x40 then (d.cache.filter (fun r => r.ctx / 32 == n)).foldl (fun s r => s + (r.data.length + 63) / 64) 0
    else if 0x180 ≤ off then
      let c := 32 * n + (off - 0x180) / 4
      (if (List.range 16).any (fun q => d.bit (strBase q) .PAT_STR_CTRL_EN && d.get (strBase q) .PAT_STR_CTRL_CTX == c) then 2 ^ 31 else 0)
        + (d.recsOf c).length
    else d.word a
  | .tdc =>
    if off = 0x48 then mapBits 32 (fun i => d.word (pinBase (32 * n + i) + 0x350) != 0)
    else if off = 0x64 then
      let g := 32 * n + d.get base .TDC_HIST_SEL_CH
      d.word a / 2 ^ 31 * 2 ^ 31 + Tab.get (fun _ => 0) d.hist (histKey g ((if d.bit base .TDC_HIST_SEL_INTERP then 512 else 0) + d.get base .TDC_HIST_SEL_BIN)) % 2 ^ 20
    else d.word a
  | .wfg =>
    if off = 0xF18 then mapBits 32 (fun i => d.word (pinBase (32 * n + i) + 0x21C) % 128 != 0)
    else if off = 0xF20 then mapBits 32 (fun i => d.word (pinBase (32 * n + i) + 0x258) != 0)
    else d.word a
  | .ucs =>
    if off = 0x4C then
      let w := d.get base .UCS_PRAM_IDX_WORD
      (if (d.eng n).pbad.contains w then 2 ^ 31 else 0) + Tab.get (fun _ => 0) (d.eng n).pram w % 2 ^ 20
    else if off = 0x50 then d.ucsCrc n
    else if off = 0x54 then Config.romVersion d.fuse.step % 2 ^ 16
    else d.word a
  | .dps => if off = 0x58 then setBits (d.word a) 6 1 (if d.dpsOrphan (dpsOf base) then 1 else 0) else d.word a
  | .seq => if off = 0x44 then setBits (d.word a) 0 6 (d.seqQueued n) else if off = 0x54 then d.dbgFrame base else d.word a
  | .calc => if off = 0x64 then d.calCrc n else d.word a
  | .res =>
    if 0x900 ≤ off ∧ off < 0xC00 then
      let m := (off - 0x900) / 0x60
      let o := (off - 0x900) % 0x60
      if o = 0x10 then lo32 (d.mbPeek m) else if o = 0x14 then hi32 (d.mbPeek m)
      else if 0x40 ≤ o then d.mbHead m ((o - 0x40) / 4)
      else d.word a
    else d.word a
  | _ => d.word a

/-- The word at an offset of a page as it stands. -/
def Dev.live (d : Dev) (kind : PageKind) (base off : Nat) : Nat :=
  if kind.header ∧ off < 0x40 then d.liveHdr kind base off else d.liveBlock kind base off

end Sys2Proof.Machine
end

