-- ==== Sys2Proof/Machine/SoftRst.lean ====
section
/-! DEFINITION. Soft resets of pages (R497) and what a cluster reset refuses (R471). -/

namespace Sys2Proof.Machine

/-- Words that a reset keeps. -/
def Dev.keep (d old : Dev) (l : List Nat) : Dev := d.forAll l (fun d a => d.setWord a (old.word a))

/-- The words from `a` up to `b`. -/
def wordRange (a b : Nat) : List Nat := (List.range ((b - a) / 4)).map (fun i => a + 4 * i)

/-- The registers of a page from offset 0x040, PG_IRQ_STAT, PG_IRQ_EN, PG_FLT_STAT, PG_ERR_ADDR, the shadows and the PG_SNAP_HI
holders return to reset (R497). -/
def Dev.pageClear (d : Dev) (base : Nat) : Dev :=
  let d := d.dropWords (base + 0x40) (base + 0x1000)
  let d := d.forAll [0x10, 0x14, 0x1C, 0x28] (fun d o => d.setWord (base + o) 0)
  { d with snap := Tab.dropRange d.snap base (base + 0x1000), snapHi := Tab.dropRange d.snapHi base (base + 2) }

/-- A cluster reset of cluster `n` is refused (R471). -/
def Dev.clBusy (d : Dev) (n : Nat) : Bool := (d.ctxOfCluster n).any d.ctxOwning || d.rasOnCluster n

/-- The global channel of a PIN page. -/
def pinOf (base : Nat) : Nat := 32 * ((base - 0x800000) / 0x40000) + base / 0x1000 % 32

/-- A soft reset of a cluster page is accepted. -/
def Dev.srstCluster (d : Dev) (kind : PageKind) (n : Nat) : Bool :=
  !d.clBusy n && (d.clu n).slice == 0 && (d.clu n).bst.isNone &&
    (kind != .seq || n % 4 != 0 || !(d.rangeCtx (n / 4)).any d.ctxActive) && (kind != .acq || d.bufLevel n == 0)

/-- The condition of the page's row in R497. -/
def Dev.srstOk (d : Dev) (kind : PageKind) (base : Nat) : Bool :=
  match kind with
  | .glb | .hif | .thm | .ctx => true
  | .txn => (List.range 8).all (fun s => d.get (txnReg s) .TXN_STAT_STATE != 2)
  | .clk => d.clkState == 2 && (List.range 4).all (fun m => d.get (muxBase m) .CLK_SW_STAT_STATE != 1) && !d.allCtx.any d.ctxOwning && !d.rasOn
  | .pwr => d.pow.queue == [] && d.pow.prog == [] && !d.bit pwrB .PWR_DVFS_STAT_BUSY
  | .flt => d.get fltB .FLT_SAFE_MAP_CLUSTER == 0 && !d.bit fltB .FLT_STAT_DEV_SHADOW && d.get fltB .FLT_SHADOW_MAP_CLUSTER == 0
  | .bst => d.bst.todo == [] && !d.bstRuns && d.get bstB .PG_STAT_STATE != 2
  | .calg => d.get calB .CAL_RUN_MAP_CLUSTER == 0
  | .msl => !d.mslOn
  | .patg => (List.range 16).all (fun q => !d.bit (strBase q) .PAT_STR_CTRL_EN)
  | .res => !d.allCtx.any d.ctxOwning && d.pageState .res resB == some 0
  | .ras => !d.bit rasB .RAS_CTRL_EN
  | .msp => !d.bit mspB .MSP_M_CTRL_BUSY
  | .lcs => !d.bit lcsB .LCS_STAT_BUSY
  | .pmcg => !d.bit pmcB .PMC_DUMP_CTRL_EN
  | .dps => d.dpsState (dpsOf base) == 0
  | .pin => d.pinState (pinOf base) == 0 && !d.rasOwns (pinOf base)
  | _ => d.srstCluster kind ((pageCluster kind base).getD 0)

/-- The CLK page (R497): CLK_REF_LOSS_CNT is kept; CLK_STAT and CLK_PLL_LOCK show the oscillators and PLLs, which run on (notes/assumptions/76.md); the multiplexers take their reset source, the vector PLLs relock to the reset period. -/
def Dev.srstClk (d old : Dev) : Dev :=
  let d := d.keep old [clkB + 0x40, clkB + 0x44, clkB + 0x50]
  let d := d.forAll (List.range 4) (fun d m =>
    (d.put (muxBase m) .CLK_SW_STAT_CUR (old.get (muxBase m) .CLK_SW_STAT_CUR)).muxRequest m (d.get (muxBase m) .CLK_MUX_CTRL_SEL))
  d.forAll (List.range 8) (fun d r =>
    let d := d.setb (vpBase r) .CLK_VP_STAT_OFF (old.bit (vpBase r) .CLK_VP_STAT_OFF)
    d.vpRelock r)

/-- The PWR page (R497): cluster states stay; tolerances and the DVFS target are those of reset. -/
def Dev.srstPwr (d old : Dev) : Dev :=
  let d := d.keep old ((pwrB + 0x60) :: (List.range 32).map (fun n => pwrB + 0x108 + 0x10 * n))
  let d := { d with pow := { d.pow with avsHold := false, avsOk := false, avsTry := 0 } }
  ((d.faultEnd 0x05 0 0).forAll d.clusters Dev.tooDeep).dvfsCheck

/-- The sinters and waiting inputs of a context are dropped (R470, R497). -/
def Ctx.noAcq (x : Ctx) : Ctx := { x with slots := [], inbox := [], due := [], mstop := [] }

/-- The pages of a cluster (R497). -/
def Dev.srstClPage (d : Dev) (kind : PageKind) (n : Nat) : Dev :=
  match kind with
  | .seq =>
    let d := if n % 4 = 0 then { d with blankArm := d.blankArm.filter (fun b => b / 4 != n / 4), blankOpen := d.blankOpen.filter (fun b => b / 4 != n / 4) } else d
    (d.setEngS n { d.eng n with queue := [], run := none, opc := [], svc := 0 }).calRequest n
  | .ucs => d.setEng n { d.eng n with pram := [], pbad := [] }
  | .patc => { d with cache := d.cache.filter (fun r => r.ctx / 32 != n), fills := d.fills.filter (fun f => f.ctx / 32 != n) }
  | .acq => d.forAll ((List.range 32).map (fun i => 32 * n + i)) (fun d c => d.setCx c (d.cx c).noAcq)
  | .tdc => { d with hist := Tab.dropRange d.hist (n * 32 * 1024) ((n + 1) * 32 * 1024) }
  | .wfg =>
    let d := d.forAll [4 * n, 4 * n + 1, 4 * n + 2, 4 * n + 3] (fun d w => d.setGen w {})
    let d := d.forAll [2 * n, 2 * n + 1] (fun d k => d.setDp k { d.dp k with held := none })
    d.setClu n { d.clu n with held := none }
  | .calc => ((d.setClu n { d.clu n with failT := [], failAt := [] }).calDueMap n).calStaged n
  | .pmcc => d.setClu n { d.clu n with cap := none, wordsP := 0 }
  | _ => d

/-- A parked channel's pin, PMU and TDC return to reset; a context keeps its claim on the channel (R497, R13). -/
def Dev.srstPin (d : Dev) (g : Nat) : Dev :=
  ((d.setPin g { owner := (d.pin g).owner, slot := (d.pin g).slot }).setPmu g {}).setTdc g {}

/-- The block behind a page returns to its reset condition, except for what R497 keeps. -/
def Dev.srstBody (d : Dev) (kind : PageKind) (base : Nat) : Dev :=
  let old := d
  let d := d.pageClear base
  match kind with
  | .glb => d.keep old [glbB + 0x4C, glbB + 0x54]
  | .hif => d.keep old [hifB + 0x40]
  | .txn => { d with txn := [] }
  | .clk => d.srstClk old
  | .pwr => d.srstPwr old
  | .thm => (d.keep old ((thmB + 0x70) :: wordRange (thmB + 0x200) (thmB + 0x2C0))).thmStat
  | .flt => d.keep old (wordRange (fltB + 0x40) (fltB + 0x60))
  | .bst => { d with bst := { d.bst with todo := [], wait := none } }
  | .msl => ({ d with lnk := {} }).forAll (List.range 8) (fun d s => d.setSlot s { d.slot s with tick := none }) -- a tick not yet effective goes; its commits wait for the next
  | .patg => { d.keep old [patB + 0x40] with strms := [] }
  | .res => { d with coal := [], mbs := [] }
  | .ras => { (if old.rasOn then old.rasFinish else old).pageClear base with ras := {} }.put base .PG_STAT_STATE 0
  | .msp => { d with msp := {} }
  | .lcs => ((d.keep old [lcsB + 0x40]).put lcsB .LCS_STAT_FAILS (old.get lcsB .LCS_STAT_FAILS)).setb lcsB .LCS_STAT_LOCKOUT (old.bit lcsB .LCS_STAT_LOCKOUT)
  | .pmcg => { d with dumps := 0 }
  | .dps => d.setDp (dpsOf base) {}
  | .pin => d.srstPin (pinOf base)
  | .calg | .ctx => d
  | .seq | .ucs | .patc | .acq | .tdc | .wfg | .calc | .pmcc => d.srstClPage kind ((pageCluster kind base).getD 0)

/-- A soft reset that is accepted starts (R497): SRST and BUSY read 1 until it completes. A soft reset of the MSP page written through the
MSP waits for the end of its frame. -/
def Dev.srstStart (d : Dev) (p : HPort) (kind : PageKind) (base : Nat) : Dev :=
  if kind = .msp ∧ p = .msp then
    { d.setb base .PG_CTRL_SRST true with msp := { d.msp with srst := true } }
  else ((d.srstBody kind base).setb base .PG_CTRL_SRST true).setb base .PG_STAT_BUSY true

end Sys2Proof.Machine
end

