-- ==== Sys2Proof/Machine/Reset.lean ====
section
/-! DEFINITION. Resets (R468 to R474, R498), loss and return of the reference (R395 to R397), the end of HIBERNATE (R409). A reset
starts from a fresh block and keeps what R470 lists. -/

namespace Sys2Proof.Machine

/-! ### What resets keep -/

/-- A block at reset: fuses stay; POR_N, the supplies and PERST_N stand as they do outside; what was driven out and the index of the
free values are the model's own. -/
def Dev.fresh (d : Dev) : Dev :=
  let b : Dev := {}
  { b with fuse := d.fuse, free := d.free, out := d.out, rst := { por := d.rst.por, supply := d.rst.supply, perst := d.rst.perst, scan := d.rst.scan } }

/-- The fuse load of a cold reset during fuse programming or a life-cycle advance (R474): entries not verified are ignored and FUSE_FAIL
sets; the state read is the old one or the new one. -/
def Dev.fuseLoad (d old : Dev) : Dev :=
  let r := if old.lcs.adv.isSome then d.takeFree 2 else (d, 0)
  let d := match old.lcs.adv with
    | some t =>
      if r.2 = 1 then { r.1 with fuse := { r.1.fuse with life := t, key := r.1.fuse.key && t != 4 } } else r.1
    | none => r.1
  let d := d.lcsShow
  if old.get bstB .PG_STAT_STATE = 2 then (d.fltBit bstB 0).faultEvt 0x08 0 0 [] false else d

/-- The AON records of R431 and the thermal history of R418, as addresses. -/
def aonWords : List Nat := wordRange (fltB + 0x40) (fltB + 0x60) ++ (thmB + 0x70) :: wordRange (thmB + 0x200) (thmB + 0x2C0)

/-- The causes that stand: POR_N or the supplies (GLB_RST_CAUSE). -/
def Dev.coldCause (d : Dev) : Nat := (if d.rst.por then 1 else 0) + (if d.rst.supply then 2 else 0)

/-- A cold reset (R469, R470): FLT_FIRST is copied into FLT_PREV_FIRST (R431). -/
def Dev.cold (d : Dev) : Dev :=
  let f := d.fresh
  let f := (f.setWord (fltB + 0x5C) (d.word (fltB + 0x40))).setWord (glbB + 0x4C) d.coldCause
  f.fuseLoad d

/-- The end of HIBERNATE, or of SAFE-WAIT by the return of REF (R397, R409): as after a cold reset, with the AON records and the thermal
history kept. -/
def Dev.hibExit (d : Dev) (cause : Nat) : Dev :=
  let f := d.fresh.keep d aonWords
  let f := (f.setWord (glbB + 0x4C) (2 ^ cause)).setb pwrB .PWR_STAT_HIB_WAKE (cause == 5)
  f.fuseLoad d

/-- CAL_K_AGE of every cluster and kind. -/
def ageWords : List Nat := (List.range 32).flatMap (fun n => (List.range 7).map (fun k => calcBase n + 0x114 + 0x10 * k))

/-- What a warm reset keeps (R470): soft repairs, calibration tables and ages, the AON records and thermal history, the pattern store,
GLB_RST_CAUSE, the LCS failure count with its lockout; an advance under way goes on. -/
def Dev.warmKeep (d : Dev) (store : Bool) : Dev :=
  let f := d.fresh.keep d (aonWords ++ ageWords ++ [glbB + 0x4C, clkB + 0x50] ++ (if store then [patB + 0x40] else []))
  let f := if store then f.put patB .PG_STAT_STATE (d.get patB .PG_STAT_STATE) else f
  let f := { f with bst := { f.bst with soft := d.bst.soft }, calS := d.calS, calA := d.calA, calI := d.calI, lcs := { f.lcs with failT := d.lcs.failT, failOld := d.lcs.failT.isSome, adv := d.lcs.adv } }
  let f := (f.put lcsB .LCS_STAT_FAILS (d.get lcsB .LCS_STAT_FAILS)).setb lcsB .LCS_STAT_LOCKOUT (d.bit lcsB .LCS_STAT_LOCKOUT)
  (f.setb lcsB .LCS_STAT_BUSY (d.bit lcsB .LCS_STAT_BUSY)).lcsShow

/-- The ranges with a present cluster. -/
def Dev.rangesOn (d : Dev) : List Nat := (List.range 8).filter (fun r => (List.range 4).any (fun i => d.present (4 * r + i)))

/-- The clocks across a warm reset (R469): they go on, unless they restart because only AON or the fallback clock ran. System time of the
root starts at 0 (R348). -/
def Dev.warmClocks (d old : Dev) : Dev :=
  if 2 < old.clkState then d
  else
    let d := d.keep old [clkB + 0xC, clkB + 0x40, clkB + 0x44, clkB + 0x4C]
    let d := (d.put clkB .CLK_PLL_LOCK_VCLK 0).put clkB .CLK_PLL_LOCK_PLL (old.get clkB .CLK_PLL_LOCK_PLL % 64)
    let d := { d with rst := { d.rst with qualN := old.rst.qualN, bkosc := old.rst.bkosc } }
    if old.clkState = 2 then d.forAll d.rangesOn Dev.vpOn else d

/-- A warm reset or Function-Level Reset with its cause bit (R469, R470, R498). The outputs are parked and every access waits for the end
of the reset; only a Function-Level Reset keeps the link. -/
def Dev.warm (d : Dev) (cause : Nat) : Dev :=
  let f := (d.warmKeep (d.clkState != 4)).warmClocks d
  let f := f.setWord (glbB + 0x4C) (setBits (d.word (glbB + 0x4C)) cause 1 1)
  let f := if cause = 4 then f.keep d [hifB + 0x40] else f
  { (f.forAll f.clusters Dev.calStaged) with rst := { f.rst with busy := some (if cause = 4 then 1 else 0) } }

/-! ### Loss of the reference -/

/-- What a master transfer of the MSP that FALLBACK cuts leaves (R457). -/
def Dev.mspAbort (d old : Dev) : Dev :=
  if old.bit mspB .MSP_M_CTRL_BUSY then
    let r := d.takeFree (2 ^ 32)
    (r.1.setWord (mspB + 0x68) r.2).setb mspB .MSP_STAT_M_ABORT true
  else d

/-- What asynchronous logic holds of the pins through FALLBACK and SAFE-WAIT (R92, R252): driver Z, pull on, levels, clamps and comparator as they
were; HOST measurements go on. -/
def Dev.pinsHeld (f d : Dev) : Dev :=
  let f := d.pins.foldl (fun f e =>
    let g := e.1
    let p := e.2
    let f := f.keep d ((List.range 6).map (fun i => pinBase g + 0x60 + 4 * i) ++ [pinBase g + 0x8C, pinBase g + 0x90])
    f.setPin g { cmp := p.cmp, mode := p.mode, hyst := p.hyst, margin := p.margin, rawCH := p.rawCH, rawCL := p.rawCL, clamp := p.clamp, pull := true,
                 tgt := d.lvlNow g, safe := true }) f
  d.tdcs.foldl (fun f e =>
    if (d.tdcBusy e.1 ∧ e.2.ctx = none) ∨ e.2.res.any (fun r => r.ctx.isNone) then (f.keep d ((List.range 64).map (fun i => pinBase e.1 + 0x300 + 4 * i))).setTdc e.1 e.2 else f) f

/-- A READ frame of the MSP that FALLBACK meets: the data words that have not gone out return as access errors (R458). -/
def Dev.mspFall (d old : Dev) : Dev :=
  match old.msp.cmd with
  | some c =>
    if c / 2 ^ 28 = 1 then
      let n := c / 2 ^ 24 % 16 + 1
      let rd := if old.msp.rd = [] then (0x5AA50000 + n) :: List.replicate n (2 ^ 32 - 1)
        else if old.msp.rd.length ≤ n then List.replicate old.msp.rd.length (2 ^ 32 - 1) else (0x5AA50000 + n) :: List.replicate n (2 ^ 32 - 1)
      { d.satAdd mspB .MSP_ACC_ERR_CNT_COUNT (Nat.min n rd.length) with msp := { d.msp with cmd := some c, rd := rd, flags := setBits d.msp.flags 4 1 1 } }
    else d
  | none => d

/-- FALLBACK (R395): the data plane is held in reset and the management pages return to reset, on BKOSC. The reaction's shadow is open (R432). -/
def Dev.fallback (d : Dev) : Dev :=
  let f := ((d.warmKeep true).pinsHeld d).mspAbort d
  let f := (f.put pwrB .PWR_DVFS_STAT_VCORE_MV (d.get pwrB .PWR_DVFS_STAT_VCORE_MV)).keep d [clkB + 0x4C]
  let f := (((f.put clkB .PG_STAT_STATE 3).setb clkB .CLK_STAT_BKOSC_QUAL true).fltBit clkB 0).mspFall d
  let f := (f.forAll [3, 0, 1] (fun f m => f.muxForced m 1)).openShadow true [] []
  { f with flt := { f.flt with active := [srcWord 0x04 0 0] } }

/-- SAFE-WAIT (R396): only AON runs; the reaction's shadow is open (R432). -/
def Dev.safeWait (d : Dev) : Dev :=
  let f := ((d.warmKeep false).pinsHeld d).mspAbort d
  let f := ((f.put clkB .PG_STAT_STATE 4).fltBit clkB 0).openShadow true [] []
  { f with flt := { f.flt with active := [srcWord 0x04 0 0] }, rst := { f.rst with bkosc := false } }

/-- The block has a reference to lose: no cold reset stands, it does not hibernate. -/
def Dev.refWatched (d : Dev) : Bool := !d.rst.por && !d.rst.supply && !d.pow.stop

/-- Loss of REF is detected (R395, R396), or injected (R435). In FALLBACK it only clears REF_OK. -/
def Dev.refLost (d : Dev) (inj : Bool) : Dev :=
  if !d.refWatched ∨ d.clkState = 4 then d
  else if d.clkState = 3 then d.setb clkB .CLK_STAT_REF_OK false
  else
    let q := d.bit clkB .CLK_STAT_BKOSC_QUAL
    let d := (d.satInc clkB .CLK_REF_LOSS_CNT_COUNT).fltLog (srcWord 0x04 0 0) 2 inj (!q)
    if q then d.fallback else d.safeWait

/-- REF_LOSS (R395, R396). -/
def Dev.refLoss (d : Dev) : Dev := let r := d.evalInj 0x04 0 0; r.1.refLost r.2

/-- REF_RETURN (R397): REF has been present for 65,536 AON cycles in SAFE-WAIT. -/
def Dev.refReturn (d : Dev) : Dev := if d.clkState = 4 ∧ d.refWatched = true then d.hibExit 6 else d

/-- BKOSC_FAIL (R393, R398): BKOSC is qualified no longer; in FALLBACK the device enters SAFE-WAIT and FLT_FIRST stays: the detection counts where it
would not be the first (R430, R433). -/
def Dev.bkoscFail (d : Dev) : Dev :=
  let s := srcWord 0x04 0 1
  if ¬ d.bit clkB .CLK_STAT_BKOSC_QUAL then d
  else if d.clkState = 3 then
    let d := if d.consequential s ∨ d.bit fltB .FLT_FIRST_VALID = true then d.fltLog s (d.srcClass s) false false else d
    (d.safeWait).fltBit clkB 1
  else (((d.setb clkB .CLK_STAT_BKOSC_QUAL false).fltBit clkB 1).faultSrc 0x04 0 1)

/-- PLL_UNLOCK (R393): a system PLL loses lock; the loss of MTB counts as a loss of REF. -/
def Dev.pllUnlock (d : Dev) (i : Nat) : Dev :=
  if ¬ d.bitN clkB .CLK_PLL_LOCK_PLL i then d
  else
    let d := (d.setBitN clkB .CLK_PLL_LOCK_PLL i false).unlockBit i
    if i = 0 then d.refLost false else (d.fltBit clkB 3).faultSrc 0x04 0 3

/-! ### Cold and warm resets -/

/-- POR_N (R469): the cold reset wins over everything (R474). -/
def Dev.porN (d : Dev) : Dev := Dev.cold { d with rst := { d.rst with por := true } }

/-- POR_N_RELEASE (R394 step 1). -/
def Dev.porNRelease (d : Dev) : Dev := { d with rst := { d.rst with por := false } }

/-- SUPPLY (R468); in HIBERNATE the board may remove the supplies (R409). -/
def Dev.supplyLow (d : Dev) : Dev := if d.pow.stop then d else Dev.cold { d with rst := { d.rst with supply := true } }

/-- SUPPLY_RETURN (R468). -/
def Dev.supplyReturn (d : Dev) : Dev := { d with rst := { d.rst with supply := false } }

/-- VAON_LOSS (R431): a cold reset that also clears FLT_PREV_FIRST. -/
def Dev.vaonLoss (d : Dev) : Dev := d.porN.setWord (fltB + 0x5C) 0

/-- A cold reset stands. -/
def Dev.coldHeld (d : Dev) : Bool := d.rst.por || d.rst.supply

/-- PERST (R498): ignored in HIBERNATE (R474). -/
def Dev.perst (d : Dev) : Dev :=
  if d.pow.stop ∨ d.rst.perst = true then d
  else
    let d := { d with rst := { d.rst with perst := true } }
    if d.coldHeld then d else d.warm 2

/-- PERST_N_RELEASE (R472). -/
def Dev.perstRelease (d : Dev) : Dev := { d with rst := { d.rst with perst := false } }

/-- FLR (R28, R498): through a link that is up. -/
def Dev.flr (d : Dev) : Dev := if d.bit hifB .HIF_LINK_UP then d.warm 4 else d

/-- A warm reset through GLB_RST_CTRL with its key (R469). -/
def Dev.swWarm (d : Dev) (v : Nat) : Dev := if v / 256 % 256 = 0xC7 ∧ v % 2 = 1 then d.warm 3 else d

/-- WARM_RESET_DONE (R469): accesses are served once the clocks are in NORMAL. -/
def Dev.warmResetDone (d : Dev) : Dev :=
  if d.rst.busy.isNone = true ∨ d.rst.perst = true then d
  else { d with rst := { d.rst with busy := none }, hif := { d.hif with served := d.clkState == 2 } }

/-- LINK_UP (R472): training completes, after R394 step 5 and with PERST_N high. -/
def Dev.linkUp (d : Dev) (speed width : Nat) : Dev :=
  if ¬ d.bit clkB .CLK_STAT_MTB_LOCK ∨ d.rst.perst = true ∨ d.pow.stop = true ∨ 2 < d.clkState then d
  else ((d.setb hifB .HIF_LINK_UP true).put hifB .HIF_LINK_SPEED speed).put hifB .HIF_LINK_WIDTH width

/-- PCIE_LINK_DOWN (R319). -/
def Dev.pcieLinkDown (d : Dev) : Dev := d.setb hifB .HIF_LINK_UP false

/-- WAKE_N (R403, R409). -/
def Dev.wakeN (d : Dev) : Dev :=
  if d.pow.stop then d.hibExit 5
  else if d.clkState ≠ 2 then d
  else ((d.satInc pwrB .PWR_WAKEN_CNT_COUNT).irq .pwr pwrB 3).forAll (d.clusters.filter (fun n => d.bit (pwrCl n) .PWR_CL_CFG_WAKEN_EN)) Dev.wakeReq

/-! ### Cluster reset (R471) -/

/-- What a cluster reset leaves of a context: its run numbers (R306, R470). -/
def Ctx.afterReset (x : Ctx) : Ctx := { run := x.run, runNext := x.runNext }

/-- The region, context sets and DPS pages of a cluster return to reset; CAL_K_AGE and the calibration tables stay (R470). Outputs that a safe
state forces stay forced. -/
def Dev.clBody (d : Dev) (n : Nat) : Dev :=
  let old := d
  let d := d.calAbandon n
  let d := (d.dropWords (clBase n) (clBase n + 0x40000)).dropWords (dpsBase (2 * n)) (dpsBase (2 * n) + 0x2000)
  let d := d.keep old ((List.range 7).map (fun k => calcBase n + 0x114 + 0x10 * k))
  let inCl := fun (a : Nat) => decide (clBase n ≤ a) && decide (a < clBase n + 0x40000) || decide (dpsBase (2 * n) ≤ a) && decide (a < dpsBase (2 * n) + 0x2000)
  let d := { d with snap := d.snap.filter (fun e => !inCl e.1), snapHi := d.snapHi.filter (fun e => !inCl e.1) }
  let d := d.forAll (clPins n) (fun d g => ((d.setPin g {}).setPmu g {}).setTdc g {})
  let d := d.forAll [2 * n, 2 * n + 1] (fun d k => d.setDp k { safeOf := (d.dp k).safeOf })
  let d := d.forAll [2 * n, 2 * n + 1] (fun d k => if d.dpsHeldSafe k then d.setDpsState k 7 else d)
  let d := d.forAll [4 * n, 4 * n + 1, 4 * n + 2, 4 * n + 3] (fun d w => d.setGen w {})
  let d := d.forAll ((List.range 32).map (fun i => 32 * n + i)) (fun d c => d.setCx c (d.cx c).afterReset)
  let d := (d.setEng n {}).setClu n { saving := (d.clu n).saving, aim := (d.clu n).aim }
  let d := (d.srstClPage .patc n).srstClPage .tdc n
  let d := if n % 4 = 0 then { d with blankArm := d.blankArm.filter (fun b => b / 4 != n / 4), blankOpen := d.blankOpen.filter (fun b => b / 4 != n / 4) } else d
  let d := { d with startQ := d.startQ.filter (fun q => q.1 / 32 != n) }
  let d := ((d.dropRecs (fun r => r.ctx / 32 == n) false).calDueMap n).calStaged n
  if d.forced n then d.forceCluster n else d

/-- A write of GLB_CL_RST for cluster `n` (R471). Answers whether it is refused. A self-test slice is waited for (R16). -/
def Dev.clReset (d : Dev) (n : Nat) : Dev × Bool :=
  if !d.present n || d.bitN glbB .GLB_CL_RST_BUSY_CLUSTER n then (d, false)
  else if d.clBusy n then (d.setBitN glbB .GLB_CL_RST_REF_CLUSTER n true, true)
  else
    let d := d.setBitN glbB .GLB_CL_RST_BUSY_CLUSTER n true
    if (d.clu n).bst.isSome then (d.setClu n { d.clu n with rstWait := true }, false) else (d.clBody n, false)

/-- A write of GLB_CL_RST; any refusal logs the write as LOCKED. -/
def Dev.clResets (d : Dev) (v : Nat) : Dev × Bool :=
  ((List.range 32).filter (bitOf v)).foldl (fun (acc : Dev × Bool) n => let r := acc.1.clReset n; (r.1, acc.2 || r.2)) (d, false)

end Sys2Proof.Machine
end

