-- ==== Sys2Proof/Machine/Apply.lean ====
section
/-! DEFINITION. What a register write does (R8, R43): the value it stores under the access codes, and the effects that the registers'
own rules give it. -/

namespace Sys2Proof.Machine

/-! ### Values -/

/-- The bits of `x` that are not in `y`. -/
def andNot (x y : Nat) : Nat := x - Nat.land x y

/-- Bits that a write can affect. -/
def RegRow.acc (r : RegRow) : Nat := Nat.lor (Nat.lor r.rw r.w1c) (Nat.lor r.w1s r.wo)

/-- The value a write presents: the bits under the mask from the value, the rw bits outside it as they are. -/
def RegRow.present (r : RegRow) (old mask v : Nat) : Nat := Nat.lor (andNot (Nat.land old r.rw) mask) (Nat.land (Nat.land v mask) r.acc)

/-- The value a register holds after a write that presents `v` (R8): ro bits stay, rw bits are taken, w1c bits clear, w1s bits set. -/
def RegRow.store (r : RegRow) (old v : Nat) : Nat :=
  Nat.lor (andNot (Nat.lor (andNot old r.rw) (Nat.land v r.rw)) (Nat.land v r.w1c)) (Nat.land v r.w1s)

/-- The register of a row as one number. -/
def Dev.regVal (d : Dev) (wide : Bool) (a : Nat) : Nat := if wide then d.word a + d.word (a + 4) * 2 ^ 32 else d.word a

/-- Set the register of a row. -/
def Dev.setReg (d : Dev) (wide : Bool) (a v : Nat) : Dev :=
  if wide then (d.setWord a (v % 2 ^ 32)).setWord (a + 4) (v / 2 ^ 32) else d.setWord a v

/-! ### Clock gates (R390, R391) -/

/-- The bus-idle handshake of a gate: the clock stops, or the gate is deferred. -/
def Dev.gateTry (d : Dev) (base : Nat) (idle : Bool) : Dev :=
  if d.bit base .PG_STAT_SELFTEST then d.setb base .PG_STAT_GATE_DEFER true
  else if idle then (d.setb base .PG_STAT_GATED true).setb base .PG_STAT_GATE_DEFER false
  else if d.bit base .PG_STAT_GATE_DEFER then d
  else ((d.setb base .PG_STAT_GATE_DEFER true).satInc clkB .CLK_GATE_DEFER_CNT_COUNT).irq .clk clkB 2

/-- The handshake whose outcome no command gives: idle or not is a free value. -/
def Dev.gateFree (d : Dev) (base : Nat) : Dev := let r := d.takeFree 2; r.1.gateTry base (r.2 == 1)

/-- A gate is released: the clock runs. -/
def Dev.gateOff (d : Dev) (base : Nat) : Dev := (d.setb base .PG_STAT_GATED false).setb base .PG_STAT_GATE_DEFER false

/-- An access to a block register of a gated page ungates it; the gate applies again through the handshake (R391). -/
def Dev.gateAccess (d : Dev) (base : Nat) : Dev :=
  if d.bit base .PG_STAT_GATED then (d.setb base .PG_STAT_GATED false).gateFree base else d

/-- A write of GATE_REQ. -/
def Dev.gateWrite (d : Dev) (base : Nat) (req : Bool) : Dev :=
  let was := d.bit base .PG_CTRL_GATE_REQ
  let d := d.setb base .PG_CTRL_GATE_REQ req
  if req ∧ ¬ was then d.gateFree base else if was ∧ ¬ req then d.gateOff base else d

/-! ### The page header (R31) -/

/-- Copy the rsnap registers of a page into their shadows (R38). -/
def Dev.pageSnap (d : Dev) (kind : PageKind) (base : Nat) : Dev :=
  let offs := ((rowsOf kind).filter (fun r => r.snap != 0)).flatMap (fun r =>
    (List.range r.c1).flatMap (fun i => (List.range r.c2).flatMap (fun j =>
      let o := r.off + i * r.s1 + j * r.s2
      if r.wide then [o, o + 4] else [o])))
  { d with snap := offs.foldl (fun t o => Tab.set (fun _ => 0) t (base + o) (BitVec.ofNat 32 (d.word (base + o)))) d.snap }

/-- A write of EN: the PIN and DPS pages act on it (R89 to R93, R231), any other page stores it. Answers whether it is refused. -/
def Dev.enWrite (d : Dev) (kind : PageKind) (base : Nat) (en : Bool) : Dev × Bool :=
  let was := d.bit base .PG_CTRL_EN
  match kind with
  | .pin =>
    let g := pinOf base
    if en ∧ ¬ was then (if (d.pin g).safe then (d, true) else (channelEnable d g, false))
    else if was ∧ ¬ en then (channelDisable d g, false) else (d, false)
  | .dps =>
    let k := dpsOf base
    if en ∧ ¬ was then (if d.dpsHeldSafe k then (d, true) else (d.dpsEnable k, false))
    else if was ∧ ¬ en then (d.dpsDisable k, false) else (d, false)
  | _ => (d.setb base .PG_CTRL_EN en, false)

/-- Effects of a write to the page header. `d` is the state before it, `st` the state with the value stored. -/
def Dev.hookHdr (d st : Dev) (p : HPort) (kind : PageKind) (base off v : Nat) : Dev × Bool :=
  match off with
  | 0x08 =>
    if bitOf v 1 ∧ ¬ d.srstOk kind base then (d, true)
    else
      let r := (if bitOf v 1 then d.srstStart p kind base else d).enWrite kind base (bitOf v 0)
      (r.1.gateWrite base (bitOf v 2), r.2)
  | 0x14 =>
    let old := d.word (base + 0x14)
    let new := Nat.land v kind.irqMask
    let d := d.setWord (base + 0x14) new
    (d.forAll ((List.range 32).filter (fun i => bitOf new i && !bitOf old i && d.bitN base .PG_IRQ_STAT_BITS i)) (fun d i => d.msix (irqVector kind base i)), false)
  | 0x18 => (d.forAll ((List.range 32).filter (bitOf (Nat.land v kind.irqMask))) (fun d i => d.irq kind base i), false)
  | 0x1C => (if kind = .pwr ∧ bitOf v 0 = true then st.avsClear else st, false)
  | 0x20 => (d.pageSnap kind base, false)
  | _ => (st, false)

/-! ### Transactions: slots (R44 to R49, R499) -/

/-- The state of a slot. -/
def Dev.txnState (d : Dev) (s : Nat) : Nat := d.get (txnReg s) .TXN_STAT_STATE

/-- Set the state of a slot. -/
def Dev.setTxn (d : Dev) (s st : Nat) : Dev := d.put (txnReg s) .TXN_STAT_STATE st

/-- A command in a state that does not take it. -/
def Dev.txnIgnored (d : Dev) (s : Nat) : Dev := d.setb (txnReg s) .TXN_STAT_IGNORED true

/-- A slot leaves OPEN: capture that points at it ends. -/
def Dev.txnLeave (d : Dev) (s : Nat) : Dev :=
  if d.get txnB .TXN_CAPTURE_SLOT = s then d.setb txnB .TXN_CAPTURE_EN false else d

/-- TXN_BEGIN (R47). -/
def Dev.txnBegin (d : Dev) (s tag : Nat) : Dev :=
  if [0, 4, 5].contains (d.txnState s) then
    let a := txnSlot s
    let d := ((d.setSlot s {}).setWord (a + 0xC) (2 ^ 28)).put (txnReg s) .TXN_TAG_TAG tag
    let d := (d.put (txnReg s) .TXN_LATE_TICKS_TICKS 0).put (txnReg s) .TXN_APPLY_TIME_TIME 0
    (d.put txnB .TXN_CAPTURE_SLOT s).setb txnB .TXN_CAPTURE_EN true
  else d.txnIgnored s

/-- A slot enters FAILED with a cause (R52). -/
def Dev.txnFail (d : Dev) (s cause : Nat) : Dev := ((d.setTxn s 5).put (txnReg s) .TXN_STAT_FAIL cause).irq .txn txnB s

/-- Two lists of staged writes share an aligned word (R49). -/
def stagedClash (a b : List (Nat × Nat × Nat)) : Bool :=
  a.any (fun x => b.any (fun y => (stagedWords x).any (fun w => (stagedWords y).contains w)))

/-- The point or target of a commit is not valid (R48). -/
def Dev.badTarget (d : Dev) (point target : Nat) : Bool :=
  decide (3 < point) || (point == 1 && (decide (31 < target) || !d.present target)) || (point == 2 && !d.present (target / 32))

/-- TXN_COMMIT (R47, R49, R499). -/
def Dev.txnCommit (d : Dev) (s v : Nat) : Dev :=
  if d.txnState s ≠ 1 then d.txnIgnored s
  else
    let point := v / 2 ^ 28 % 16
    let target := v % 1024
    let x := d.slot s
    let d := (d.setSlot s { x with point := point, target := target }).txnLeave s
    if d.bit (txnReg s) .TXN_STAT_CONFLICTED then d.txnFail s 1
    else if x.ovr then d.txnFail s 2
    else if d.badTarget point target then d.txnFail s 5
    else
      let others := (List.range 8).filter (fun t => t != s && [1, 2, 3].contains (d.txnState t) && stagedClash (d.slot t).writes x.writes)
      (d.forAll others (fun d t => d.setb (txnReg t) .TXN_STAT_CONFLICTED true)).setTxn s 2

/-- TXN_ROLLBACK (R47). -/
def Dev.txnRollback (d : Dev) (s : Nat) : Dev :=
  if d.txnState s = 0 then d.txnIgnored s
  else (((if d.txnState s = 1 then d.txnLeave s else d).setSlot s {}).put (txnReg s) .TXN_STAT_COUNT 0).setTxn s 0

/-- A write is staged (R43, R44, R49). -/
def Dev.txnStage (d : Dev) (s a mask v : Nat) : Dev :=
  let x := d.slot s
  if 4096 ≤ x.writes.length then d.setSlot s { x with ovr := true }
  else
    let w := [(a, mask, v)]
    let clash := (List.range 8).any (fun t => t != s && (d.txnState t == 2 || d.txnState t == 3) && stagedClash (d.slot t).writes w)
    let d := d.setSlot s { x with writes := x.writes ++ w }
    let d := d.put (txnReg s) .TXN_STAT_COUNT (x.writes.length + 1)
    if clash then d.setb (txnReg s) .TXN_STAT_CONFLICTED true else d

/-- TXN_CAPTURE (R43): a write with EN = 1 that names a slot not OPEN is ignored as a whole. -/
def Dev.txnCapture (d : Dev) (v : Nat) : Dev :=
  if bitOf v 4 ∧ d.txnState (v % 8) ≠ 1 then d
  else (d.put txnB .TXN_CAPTURE_SLOT v).setb txnB .TXN_CAPTURE_EN (bitOf v 4)

/-- Writes to the TXN page (R47). -/
def Dev.hookTxn (d st : Dev) (off v : Nat) : Dev × Bool :=
  if off = 0x40 then (d.txnCapture v, false)
  else
    let s := (off - 0x100) / 0x40
    match off % 0x40 with
    | 0x00 => (d.txnBegin s v, false)
    | 0x04 => (d.txnCommit s v, false)
    | 0x08 => (if bitOf v 0 then d.txnRollback s else d, false)
    | _ => (st, false)

/-! ### Global pages -/

/-- Writes to the GLB page (R469, R471). -/
def Dev.hookGlb (d st : Dev) (off v : Nat) : Dev × Bool :=
  match off with
  | 0x48 => (d.swWarm v, false)
  | 0x50 => d.clResets v
  | _ => (st, false)

/-- The domain of a multiplexer has been put in reset (R389): it loses its state as a soft reset of its block does. A self-test slice ends
with the steps completed by then. -/
def Dev.muxLost (d : Dev) (m : Nat) : Dev :=
  if m = 0 then { d with pow := { d.pow with avsTry := 0 } }
  else if m = 1 then (d.srstBody .bst bstB).forAll (List.range 32) Dev.bstCut
  else if m = 2 then d.srstBody .ras rasB
  else d

/-- Writes to the CLK page (R387 to R389). -/
def Dev.hookClk (d st : Dev) (off v : Nat) : Dev × Bool :=
  if 0x80 ≤ off ∧ off < 0xC0 then
    let r := (off - 0x80) / 8
    if d.vpBusy r then (d, true) else (st.vpRelock r, false)
  else if 0x100 ≤ off ∧ off % 0x10 = 0 then
    let m := (off - 0x100) / 0x10
    let r := d.muxWrite m v
    (if r.2 then r.1.muxLost m else r.1, false)
  else (st, false)

/-- Writes to the PWR page (R401 to R403, R406, R409, R411): VALID of PWR_LAT_MISS clears the capture. -/
def Dev.hookPwr (d st : Dev) (off v : Nat) : Dev × Bool :=
  if off = 0x5C then (st.dvfsCheck, false)
  else if off = 0x58 then (if bitOf v 31 then st.setWord (pwrB + 0x58) 0 else st, false)
  else if off = 0x6C then (if v / 256 % 256 = 0x5A then d.hibernate else d, false)
  else if 0x100 ≤ off ∧ off < 0x300 then
    let n := (off - 0x100) / 0x10
    match off % 0x10 with
    | 0x0 => (st.tolWritten n, false)
    | 0x4 => (st.tooDeep n, false)
    | 0xC => (if bitOf v 0 then pwrClWake d n else d, false)
    | _ => (st, false)
  else (st, false)

/-- Writes to the THM page: THM_IGNORE only in SERVICE (R475), THM_MAX returns to its reset value (R418). -/
def Dev.hookThm (d st : Dev) (off : Nat) : Dev × Bool :=
  if off = 0x68 then (if d.lcsState = 3 then (st, false) else (d, true))
  else if 0x200 ≤ off ∧ off < 0x2C0 then (d.thmMaxReset ((off - 0x200) / 4), false)
  else (st, false)

/-- The monitor of a PMU's switches fails if it is armed (R215, R435). -/
def Dev.swMon (d : Dev) (g : Nat) : Dev :=
  let r := d.evalInj 0x28 g 17
  if r.2 then
    let d := (r.1.setb (pinBase g) .PMU_FLT_SW_MISMATCH true).fltBit (wfgBase (g / 32)) 31
    (d.setBitN (wfgBase (g / 32)) .WFG_PMU_FLT_CH (g % 32) true).faultEvt 0x28 g 17 [] true
  else r.1

/-- The switch monitors run all the time: the one that is named meets its next check at once, and of all, each in turn, or any one of them where one check
is taken. -/
def Dev.swMons (d : Dev) : Dev :=
  let s := d.get fltB .FLT_INJ_SEL_SOURCE
  if srcType s ≠ 0x28 ∨ srcBit s ≠ 17 then d
  else if ¬ d.bit fltB .FLT_INJ_SEL_ALL then (if d.present (srcUnit s / 32) then d.swMon (srcUnit s) else d)
  else
    let ps := d.clusters.flatMap clPins
    if d.bit fltB .FLT_INJ_CTRL_CONT then d.forAll ps Dev.swMon
    else let r := d.takeFree ps.length; r.1.swMon (ps.getD r.2 0)

/-- The stage monitors run while a loop is closed: the one that is named, or of all that run each in turn or any one, meets its next check (R234). -/
def Dev.stageMons (d : Dev) : Dev :=
  let s := d.get fltB .FLT_INJ_SEL_SOURCE
  let on := (List.range 64).filter (fun k => d.present (k / 2) && (d.dp k).loop)
  if srcType s ≠ 0x11 ∨ srcBit s ≠ 3 then d
  else if d.bit fltB .FLT_INJ_SEL_ALL ∧ ¬ d.bit fltB .FLT_INJ_CTRL_CONT ∧ on ≠ [] then
    let r := d.takeFree on.length; r.1.stageMon (on.getD r.2 0)
  else d.forAll on Dev.stageMon

/-- Arming an injection (R435); an armed monitor that runs acts at once: REF_LOSS (R393), the PMU switches, the upstream port, the stages. -/
def Dev.injWrite (d : Dev) (v : Nat) : Dev × Bool :=
  if v / 256 % 256 ≠ 0xA5 then (d, false)
  else if d.lcsState = 4 then (d, true)
  else
    let d := ((d.setb fltB .FLT_INJ_CTRL_CONT (bitOf v 1)).setb fltB .FLT_INJ_CTRL_ARM (bitOf v 0)).injArm
    let r := d.evalInj 0x04 0 0
    (if r.2 then r.1.refLost true else r.1.swMons.upstreamMon.stageMons, false)

/-- Writes to the FLT page (R424, R427, R428 to R433, R435). -/
def Dev.hookFlt (d st : Dev) (off v : Nat) : Dev × Bool :=
  if off = 0x50 then (if bitOf v 31 then st.put fltB .FLT_OVF_COUNT 0 else st, false)
  else if off = 0x54 then (if bitOf v 31 then st.put fltB .FLT_CONSEQ_COUNT 0 else st, false)
  else if off = 0x74 then (d.forAll ((List.range 32).filter (bitOf v)) Dev.safeRel, false)
  else if off = 0x84 then d.injWrite v
  else if 0x400 ≤ off then
    let a := fltB + off
    let fixed := fltClassFixed ((off - 0x400) / 8)
    (d.setReg true a (Nat.lor (Nat.land (d.regVal true a) fixed) (andNot v fixed)), false)
  else (st, false)

/-- Writes to the BST page (R438, R447). -/
def Dev.hookBst (d st : Dev) (off v : Nat) : Dev × Bool :=
  match off with
  | 0x44 => d.bstReq (v % 256)
  | 0x50 => if v / 256 % 256 = 0x3C ∧ bitOf v 0 = true then d.bstFuse else (d, false)
  | _ => (st, false)

/-- Writes to the MSL page (R339, R353, R356 to R364). -/
def Dev.hookMsl (d st : Dev) (off v : Nat) : Dev × Bool :=
  if off = 0x40 then (d.mslCtrl v, false)
  else if off = 0x60 then (if bitOf v 0 then d.tickReq else d, false)
  else if off = 0x68 then (if bitOf v 0 then d.tdRaise (tickUp d.time) else d, false)
  else if off = 0xC0 then (st.barAll, false)
  else if off = 0xA0 then (d.trigRaises v, false)
  else if off = 0xA8 then (st.toutWrite 0, false)
  else if off = 0xAC then (st.toutWrite 1, false)
  else if off = 0xC4 then (d.barArrive v, false)
  else if 0x100 ≤ off ∧ off < 0x200 ∧ off % 0x40 = 0 then (d.mslPortCtrl ((off - 0x100) / 0x40) v, false)
  else if 0x800 ≤ off then d.ctxTrigWrite ((off - 0x800) / 4) v
  else (st, false)

/-- Writes to the global PAT page (R173 to R177). -/
def Dev.hookPatg (d st : Dev) (off v : Nat) : Dev × Bool :=
  if off < 0x100 then (st, false)
  else
    let q := (off - 0x100) / 0x40
    match off % 0x40 with
    | 0x00 => (d.strCtrl q v, false)
    | 0x14 => (st.strShow q, false)
    | 0x1C | 0x20 => (if d.bit (strBase q) .PAT_STR_CTRL_EN then d else st, false)
    | _ => (st, false)

/-- Writes to the RES page (R309 to R313). -/
def Dev.hookRes (d st : Dev) (off v : Nat) : Dev × Bool :=
  if off = 0x68 then (st.coalClear false v, false)
  else if off = 0x6C then (st.coalClear true v, false)
  else if 0x100 ≤ off ∧ off < 0x900 then
    let k := (off - 0x100) / 0x20
    match off % 0x20 with
    | 0x00 => (if d.bit (ringBase k) .RES_RING_CFG_EN then d else st, false)
    | 0x08 => (d.ringCfgWrite k v, false)
    | 0x0C => (d.consWrite k v, false)
    | _ => (st, false)
  else if 0x900 ≤ off ∧ off < 0xC00 then
    if (off - 0x900) % 0x60 = 0 then d.mbCfgWrite ((off - 0x900) / 0x60) v else (st, false)
  else if 0xC00 ≤ off then d.routeWrite ((off - 0xC00) / 4) v
  else (st, false)

/-- Writes to the RAS page (R322, R326, R330). -/
def Dev.hookRas (d st : Dev) (off v : Nat) : Dev × Bool :=
  match off with
  | 0x40 => (d.rasCtrl v, false)
  | 0x58 => (if bitOf v 0 then d.rasApply else d, false)
  | 0x5C => (d.rasFlip v, false)
  | _ => (st, false)

/-- The bits of a master transfer (R459): 0 and above 32 act as 32. -/
def Dev.mspBits (d : Dev) : Nat := let n := d.get mspB .MSP_M_CTRL_BITS; if n = 0 ∨ 32 < n then 32 else n

/-- MSP_M_CTRL.GO (R457): a transfer starts, is refused while one runs, and stops at once while REF is lost. -/
def Dev.mspGo (d : Dev) : Dev :=
  if d.bit mspB .MSP_M_CTRL_BUSY then d.setb mspB .MSP_STAT_GO_REFUSED true
  else if ¬ d.bit mspB .MSP_CFG_MASTER then d
  else if d.clkState = 3 then
    let r := d.takeFree (2 ^ 32)
    (r.1.setWord (mspB + 0x68) r.2).setb mspB .MSP_STAT_M_ABORT true
  else
    let cs := d.get mspB .MSP_M_CTRL_CS
    { (d.setb mspB .MSP_M_CTRL_BUSY true).emit (.mspM cs d.mspBits (d.word (mspB + 0x64) % 2 ^ d.mspBits)) with msp := { d.msp with sel := some cs } }

/-- Writes to the MSP page: MASTER waits for the end of a frame in progress (R458). -/
def Dev.hookMsp (d st : Dev) (p : HPort) (off v : Nat) : Dev × Bool :=
  match off with
  | 0x40 =>
    if p = .msp ∨ d.msp.cmd.isSome = true then
      (({ st with msp := { st.msp with master := some (v / 2 ^ 31) } }).put mspB .MSP_CFG_MASTER (d.get mspB .MSP_CFG_MASTER), false)
    else (st, false)
  | 0x60 => (if bitOf v 31 then st.mspGo else st, false)
  | _ => (st, false)

/-- Writes to the LCS page (R475 to R477): LCS_CTRL with its key; the response words are held. -/
def Dev.hookLcs (d st : Dev) (off v : Nat) : Dev × Bool :=
  if off = 0x44 then (if v / 2 ^ 24 = 0x96 then d.lcsCtrl v else (d, false))
  else if 0x80 ≤ off ∧ off < 0xA0 then (d.setWord (lcsB + off) v, false)
  else (st, false)

/-- Writes to the global PMC page (R463, R464). -/
def Dev.hookPmcg (d st : Dev) (off v : Nat) : Dev × Bool :=
  match off with
  | 0x40 => d.dumpCtrl v
  | 0x48 => if d.bit pmcB .PMC_DUMP_CTRL_EN then (d, true) else (st, false)
  | 0x5C => (d.dumpCons v, false)
  | _ => (st, false)

/-! ### Device-power and cluster pages -/

/-- A write of DPS_GANG (R229): discarded while a channel of the range with GANG.EN = 1 is not OFF. -/
def Dev.gangWrite (d st : Dev) (k : Nat) : Dev :=
  if ((List.range 8).map (fun i => k / 8 * 8 + i)).any (fun j => d.bit (dpsBase j) .DPS_GANG_EN && d.dpsState j != 1)
  then d.setb (dpsBase k) .DPS_STAT_GANG_REJ true else st

/-- Writes to a DPS page. A change of DPS_MEAS_CFG restarts the averaging of MODE FREE. -/
def Dev.hookDps (d st : Dev) (base off v : Nat) : Dev × Bool :=
  let k := dpsOf base
  match off with
  | 0x5C => ((st.guardSync k).calIdle (k / 2), false)
  | 0x60 => (d.gangWrite st k, false)
  | 0x70 => (st.setDp k { st.dp k with free := {}, freeI := {} }, false)
  | 0x80 => (if bitOf v 0 then dpsMeasGo d k else d, false)
  | _ => (st, false)

/-- The patch lock (R150): LOCK written 1 requests it, 0 releases it. In RETIRED the lock is not granted and the write is LOCKED. -/
def Dev.patchWrite (d st : Dev) (base v : Nat) : Dev × Bool :=
  let was := d.bit base .UCS_PATCH_CTRL_LOCK
  if bitOf v 0 ∧ ¬ was then
    if d.lcsState = 4 then (st.setb base .UCS_PATCH_CTRL_LOCK false, true) else (st.setb base .UCS_PATCH_STAT_LOCK_PEND true, false)
  else if was ∧ ¬ bitOf v 0 then
    ((st.setb base .UCS_PATCH_STAT_LOCK_PEND false).setb base .UCS_PATCH_STAT_LOCKED false, false)
  else (st, false)

/-- A patch write is accepted (R149): the lock is held and the write comes from a commit. -/
def Dev.patchOpen (d : Dev) (n : Nat) (commit : Bool) : Bool := commit && d.bit (ucsBase n) .UCS_PATCH_STAT_LOCKED

/-- Writes to a UCS page. -/
def Dev.hookUcs (d st : Dev) (base off v : Nat) (commit : Bool) : Dev × Bool :=
  if off = 0x40 then d.patchWrite st base v
  else if 0x100 ≤ off then
    if d.patchOpen ((pageCluster .ucs base).getD 0) commit then (st, false)
    else (d.setb base .UCS_PATCH_STAT_REJECTED true, false)
  else (st, false)

/-- Writes to a WFG page (R187, R257 to R267). `fire` fires the load strobe of a cluster. -/
def Dev.hookWfg (d st : Dev) (fire : Dev → Nat → Dev) (base off v : Nat) : Dev × Bool :=
  let n := (pageCluster .wfg base).getD 0
  if off = 0xF04 then (if bitOf v 0 then fire d n else d, false)
  else if off = 0xF1C then
    -- a bit of WFG_PMU_EVT & WFG_PMU_EVT_EN goes from 0 to 1 (R217)
    (if (List.range 32).any (fun i => !bitOf (d.word (base + off)) i && bitOf (st.word (base + off)) i && decide (d.get (pinBase (32 * n + i)) ⟨0x21C, 0, 7⟩ ≠ 0))
     then st.irq .wfg base 31 else st, false)
  else if 0x100 ≤ off ∧ off < 0x200 then
    let w := 4 * n + (off - 0x100) / 0x40
    match off % 0x40 with
    | 0x00 => ((st.genOwn w).calIdle n, false)
    | 0x04 => (if bitOf v 0 then wfgStartGo d w else d, false)
    | 0x08 => (if bitOf v 0 then wfgStopGo d w else d, false)
    | 0x0C => (if bitOf v 31 then wfgJumpGo st w else st, false)
    | 0x14 => (st.genHoldOut w, false)
    | _ => (st, false)
  else (st, false)

/-! ### Contexts (R101 to R104, R122, R403) -/

/-- A request for a command routine of a context, and the wake of its cluster without a promise. -/
def Dev.ctxCommand (d : Dev) (c slot arg : Nat) : Dev :=
  (d.reqRtn (c / 32) { slot := slot, ctx := c, arg := arg }).wakeReqFree (c / 32)

/-- CTX_ARM (R102, R103): the routine is requested; the cluster is woken to RUN, a site cluster in DORMANT to NAP, and FABRIC leaves P4 (R129). -/
def Dev.ctxArm (d : Dev) (c : Nat) : Dev :=
  if [1, 5, 6].contains (d.ctxState c) then
    let d := (d.reqRtn (c / 32) { slot := 0x21, ctx := c }).wakeReq (c / 32)
    let d := d.forAll ((d.siteRegs c).filterMap (fun o => o.map (· / 32))).eraseDups (fun d n => if d.clState n = 3 then d.wakeReqTo n true false 2 else d)
    d.dvfsCheck
  else d

/-- A cluster of the context's resources is in a self-test slice. -/
def Dev.inSlice (d : Dev) (c : Nat) : Bool := (d.ctxClusters c).any (fun n => (d.clu n).bst.isSome)

/-- A start that is executed late: the context is RUNNING, and START_LATE will carry the effect time `eff` (R22, R355). -/
def Dev.startLate (d : Dev) (c eff : Nat) : Dev := (d.setCx c { d.cx c with late := some eff }).put (ctxBase c) .CTX_STATE_STATE 3

/-- The contexts of cluster `n` with a START waiting. -/
def Dev.startsWaiting (d : Dev) (n : Nat) : List Nat := ((d.eng n).queue.filter (fun r => r.slot == 0x22)).map (·.ctx)

/-- What a commit point `f` starts is late from `eff` on, if `late` (R22, R50, R355). -/
def Dev.lateFrom (d : Dev) (late : Bool) (eff : Nat) (f : Dev → Dev) : Dev :=
  let before := d.clusters.flatMap d.startsWaiting
  let d := f d
  let new := (d.clusters.flatMap d.startsWaiting).filter (fun c => !before.contains c)
  if late then d.forAll new (fun d c => d.startLate c eff) else d

/-- CTX_START as requested at `t` (R22, R33, R104, R403): an ARMED context's start is requested with its effect time and the clusters are woken, and it is RUNNING
at once where they are not ready, its vectors to follow late; a start of a FAULTED
context is dropped and counted. -/
def Dev.ctxStartAt (d : Dev) (c t : Nat) : Dev :=
  if d.ctxState c = 7 then d.logErr true .startFaulted (ctxBase c + 0x18)
  else if d.ctxState c = 2 then
    let d := (d.reqRtn (c / 32) { slot := 0x22, ctx := c, arg := d.time }).forAll (d.ctxClusters c) Dev.wakeReq
    if d.startReady c ∧ t = d.time then d else d.startLate c t
  else d

/-- CTX_START written now. In a self-test slice of one of its clusters the start of an ARMED context waits for the end of the slice (R16, R443). -/
def Dev.ctxStart (d : Dev) (c : Nat) : Dev :=
  if d.ctxState c = 2 ∧ d.inSlice c = true then
    (if d.startQ.any (fun q => q.1 == c) then d else { d with startQ := d.startQ ++ [(c, d.time)] })
  else d.ctxStartAt c d.time

/-- The starts that no slice holds any more, in arrival order. -/
def Dev.startsServe (d : Dev) : Dev :=
  let go := d.startQ.filter (fun q => !d.inSlice q.1)
  go.foldl (fun d q => d.ctxStartAt q.1 q.2) { d with startQ := d.startQ.filter (fun q => d.inSlice q.1) }

/-- CTX_STOP (R122, R123): a pending stop discards a redirect. -/
def Dev.ctxStop (d : Dev) (c : Nat) : Dev :=
  if d.ctxActive c ∧ (d.cx c).req ≠ 2 then
    (d.setCx c { d.cx c with req := 2 }).reqRtn (c / 32) { slot := 0x25, ctx := c }
  else d

/-- CTX_REDIRECT (R122, R123): the last one written before a latch acts. -/
def Dev.ctxRedirect (d : Dev) (c v : Nat) : Dev :=
  if d.ctxActive c ∧ (d.cx c).req ≠ 2 then
    (d.setCx c { d.cx c with req := 1, reqKeep := bitOf v 31, reqTgt := v % 2 ^ 20 }).reqRtn (c / 32) { slot := 0x24, ctx := c }
  else d

/-- CTX_CLEAR (R104). UNLOAD wins over GO. -/
def Dev.ctxClear (d : Dev) (c v : Nat) : Dev :=
  if bitOf v 1 then (if d.ctxActive c then d else d.ctxCommand c 0x26 1)
  else if bitOf v 0 ∧ [2, 5, 6, 7].contains (d.ctxState c) then d.ctxCommand c 0x26 0
  else d

/-- The context of a register set. -/
def ctxOf (base : Nat) : Nat := 32 * ((base - 0x800000) / 0x40000) + base % 0x40000 / 0x400 % 32

/-- Writes to a context register set (R127). -/
def Dev.hookCtx (d st : Dev) (base off v : Nat) : Dev × Bool :=
  let c := ctxOf base
  match off with
  | 0x10 => (if bitOf v 0 ∧ [0, 1, 5, 6].contains (d.ctxState c) then d.ctxCommand c 0x20 (d.get base .CTX_IMAGE_ADDR * 64) else d, false)
  | 0x14 => (if bitOf v 0 then d.ctxArm c else d, false)
  | 0x18 => (if bitOf v 0 then d.ctxStart c else d, false)
  | 0x1C => (if bitOf v 0 then d.ctxStop c else d, false)
  | 0x20 => (d.ctxRedirect c v, false)
  | 0x24 => (d.ctxClear c v, false)
  | _ => if 0x40 ≤ off ∧ off < 0xC0 ∧ d.ctxOwning c = true then (d, true) else (st, false)

/-! ### Pins (R59) -/

/-- The fields of PIN_CTRL that act when their write applies. `old` is the register before it. -/
def Dev.pinCtrl (d : Dev) (g old : Nat) : Dev :=
  let b := pinBase g
  if ¬ d.pinLive g then d
  else
    let cl := d.clState (g / 32)
    let d := d.setPin g { d.pin g with pull := d.bit b .PIN_CTRL_PULL, clamp := d.bit b .PIN_CTRL_CLAMP_EN && cl != 3 }
    if cl = 2 then d.setPin g { d.pin g with drv := drvOfCode (d.get b .PIN_CTRL_NAP_STATE) }
    else if old / 256 % 4 ≠ d.get b .PIN_CTRL_STATIC ∧ cl ≤ 1 ∧ (d.service g).isNone = true ∧ d.rasOwns g = false then d.driveStatic g
    else d

/-- HYST, LO_MARGIN and STEP of an enabled channel come into force as their write applies. -/
def Dev.pinNow (d : Dev) (g : Nat) : Dev :=
  let b := pinBase g
  if d.pinLive g then d.setPin g { d.pin g with hyst := d.get b .PIN_CMP_HYST, margin := d.get b .PIN_CLAMP_LO_MARGIN, step := d.get b .PIN_LVL_STEP_STEP }
  else if d.bit b .PG_CTRL_EN && !(d.bit b .PIN_STAT_PARKED) && (d.pin g).phase != .disSlew then d.setPin g { d.pin g with step := d.get b .PIN_LVL_STEP_STEP }
  else d

/-- The fields of PIN_CMP that act when their write applies; BLANK waits for the next vector-clock period (`blankLatch`). -/
def Dev.pinCmp (d : Dev) (g : Nat) : Dev :=
  let b := pinBase g
  let cl := d.clState (g / 32)
  if d.pinLive g ∧ (cl = 2 ∨ cl = 3) then (d.pinNow g).setCmpMode g (sleepMode (d.get b .PIN_CMP_SLEEP_MODE) (cl == 3)) else d.pinNow g

/-- An alarm limit shows its sign above the field. -/
def Dev.signExt (d : Dev) (a : Nat) : Dev := d.setWord a (d.word a % 2 ^ 20 + (if bitOf (d.word a) 19 then 0xFFF00000 else 0))

/-- Writes to a PIN page. -/
def Dev.hookPin (d st : Dev) (base off v : Nat) : Dev × Bool :=
  let g := pinOf base
  match off with
  | 0x40 => (st.pinCtrl g (d.word (base + off)), false)
  | 0x84 => (st.pinCmp g, false)
  | 0x78 | 0x80 => (st.pinNow g, false)
  | 0x220 => (st.setPmu g { st.pmu g with free := {} }, false)
  | 0x230 => (if bitOf v 0 then pmuAdcGo d g else d, false)
  | 0x240 | 0x244 => (st.signExt (base + off), false)
  | 0x300 | 0x308 | 0x310 =>
    (if d.regVal (off == 0x308) (base + off) = st.regVal (off == 0x308) (base + off) then st else st.tdcChanged g, false)
  | 0x314 => (if bitOf v 0 then tdcGo d g else d, false)
  | _ => (st, false)

/-! ### One register write -/

/-- The rule of a block register, by page: `d` before the write, `st` with the value stored, `v` the value presented. -/
def Dev.hook (d st : Dev) (fire : Dev → Nat → Dev) (p : HPort) (commit : Bool) (kind : PageKind) (base off v : Nat) : Dev × Bool :=
  match kind with
  | .glb => d.hookGlb st off v
  | .txn => d.hookTxn st off v
  | .clk => d.hookClk st off v
  | .pwr => d.hookPwr st off v
  | .thm => d.hookThm st off
  | .flt => d.hookFlt st off v
  | .bst => d.hookBst st off v
  | .calg => (if off = 0x44 then (if bitOf v 0 then d.calOpen else d.calClose) else if off = 0x48 ∨ off = 0x4C then st.forAll st.clusters Dev.calJudge else st, false)
  | .msl => d.hookMsl st off v
  | .patg => d.hookPatg st off v
  | .res => d.hookRes st off v
  | .ras => d.hookRas st off v
  | .msp => d.hookMsp st p off v
  | .lcs => d.hookLcs st off v
  | .pmcg => d.hookPmcg st off v
  | .dps => d.hookDps st base off v
  | .ucs => d.hookUcs st base off v commit
  | .patc => (if 0x100 ≤ off then d.quotaWrite (32 * (pageCluster .patc base).getD 0 + (off - 0x100) / 4) v else st, false)
  | .wfg => d.hookWfg st fire base off v
  | .calc =>
    let n := (pageCluster .calc base).getD 0
    (if off = 0x40 then (st.calJudge n).calIdle n else if off = 0x44 then st.calDueMap n else st, false)
  | .pmcc => (if off = 0x7C then (if bitOf v 0 then d.pmcClr ((pageCluster .pmcc base).getD 0) else d) else st, false)
  | .ctx => d.hookCtx st base off v
  | .pin => d.hookPin st base off v
  | .hif | .seq | .acq | .tdc => (st, false)

/-- A write of a register (R8): `mask` selects the bits written, `commit` says that a transaction applies it. Answers the state and whether
the register refused it as LOCKED. -/
def Dev.regWrite (d : Dev) (fire : Dev → Nat → Dev) (p : HPort) (commit : Bool) (kind : PageKind) (base off : Nat) (row : RegRow) (mask val : Nat) : Dev × Bool :=
  let a := base + off
  let old := d.regVal row.wide a
  let v := row.present old mask val
  let st := d.setReg row.wide a (row.store old v)
  if Nat.land mask row.acc = 0 then (d, false)
  else if kind.header ∧ off < 0x40 then d.hookHdr st p kind base off v
  else d.hook st fire p commit kind base off v

/-- A write through the broadcast aperture (R156): patch word or match register of every present cluster with BCAST_EN = 1. -/
def Dev.bcastWrite (d : Dev) (off v : Nat) (commit : Bool) : Dev :=
  d.forAll (d.clusters.filter (fun n => d.bit (ucsBase n) .UCS_PATCH_CTRL_BCAST_EN)) (fun d n =>
    if ¬ d.patchOpen n commit then d.setb (ucsBase n) .UCS_PATCH_STAT_REJECTED true
    else if off < 0x1000 then
      d.setEng n { d.eng n with pram := Tab.set (fun _ => 0) (d.eng n).pram (off / 4) (v % 2 ^ 20), pbad := (d.eng n).pbad.filter (· ≠ off / 4) }
    else d.setWord (ucsBase n + 0x100 + (off - 0x1000)) (Nat.land v 0xBFF03FFF))

/-- A write at an address that R30 maps to a register or to the aperture; a refusal is logged as LOCKED. -/
def Dev.applyWrite (d : Dev) (fire : Dev → Nat → Dev) (p : HPort) (commit : Bool) (a mask v : Nat) : Dev :=
  match areaOf a with
  | .page kind base off => match rowAt kind base off with
    | some (row, _) =>
      let r := d.regWrite fire p commit kind base off row mask v
      if r.2 then r.1.logErr true .locked a else r.1
    | none => d
  | .bcast off => d.bcastWrite off v commit
  | _ => d

/-! ### Transactions: apply (R46, R48, R50) -/

/-- The pages that a staged write reaches. -/
def Dev.stagedPages (d : Dev) (a : Nat) : List Nat :=
  match areaOf a with
  | .page kind base _ => if kind.header then [base] else []
  | .bcast _ => (d.clusters.filter (fun n => d.bit (ucsBase n) .UCS_PATCH_CTRL_BCAST_EN)).map ucsBase
  | _ => []

/-- The context that a staged write starts: GO of its CTX_START, in a write of 32 bits or the high half of one of 64. -/
def stagedStart (w : Nat × Nat × Nat) : Option Nat :=
  match areaOf w.1 with
  | .page .ctx base off => if (off = 0x18 ∧ bitOf w.2.2 0 = true) ∨ (off = 0x14 ∧ bitOf w.2.2 32 = true) then some (ctxOf base) else none
  | _ => none

/-- A target page of a slot is in a self-test slice, or a context that it starts is (R50, R443). -/
def Dev.txnBlocked (d : Dev) (s : Nat) : Bool :=
  (d.slot s).writes.any (fun w => (d.stagedPages w.1).any (fun b => d.bit b .PG_STAT_SELFTEST) ||
    (match stagedStart w with | some c => d.inSlice c | none => false))

/-- The request bits (wo) of the register at an address. -/
def requestBits (a : Nat) : Nat :=
  match areaOf a with
  | .page kind base off => match rowAt kind base off with | some (row, _) => row.wo | none => 0
  | _ => 0

/-- The writes of a slot take effect at one instant (R44, R46, R52): all values in staging order, then the requests in staging order, so that a request
finds every value that was committed with it. -/
def Dev.txnApply (d : Dev) (fire : Dev → Nat → Dev) (s : Nat) : Dev :=
  let ws := (d.slot s).writes
  let d := (d.setSlot s { d.slot s with waitT := none, tick := none }).setTxn s 4
  let d := d.put (txnReg s) .TXN_APPLY_TIME_TIME d.time
  let d := ws.foldl (fun d w => d.applyWrite fire .pcie true w.1 (andNot w.2.1 (requestBits w.1)) w.2.2) d
  let qs := ws.filter (fun w => decide (Nat.land w.2.1 (requestBits w.1) ≠ 0))
  (qs.foldl (fun d w => d.applyWrite fire .pcie true w.1 (Nat.land w.2.1 (requestBits w.1)) w.2.2) d).irq .txn txnB s

/-- The commit point of a slot has come: it applies, or waits for the slices (R50). -/
def Dev.txnPoint (d : Dev) (fire : Dev → Nat → Dev) (s : Nat) : Dev :=
  if d.txnBlocked s then
    (if (d.slot s).waitT.isNone then d.setSlot s { d.slot s with waitT := some d.time } else d)
  else d.txnApply fire s

/-- A slot is PENDING and waits for nothing but its commit point. -/
def Dev.txnWaits (d : Dev) (s point : Nat) : Bool := d.txnState s == 3 && (d.slot s).point == point && (d.slot s).waitT.isNone

/-! ### Load strobes (R187 to R189) -/

/-- The strobe of cluster `n` acts: LOAD_STROBE commits that wait for it apply first, in the same cycle. A WFG_STB_FIRE that such a commit applies for the
same cluster fires nothing more (R188). `k` bounds the commits that fire further strobes: each takes one of the eight slots. -/
def strobeNow : Nat → Dev → Nat → Nat → List Nat → Dev
  | 0, d, n, src, ctxs => d.stbAct n src ctxs d.time
  | k + 1, d, n, src, ctxs =>
    let fire := fun (d : Dev) (m : Nat) =>
      if m = n ∨ ¬ d.bit (wfgBase m) .WFG_STB_CFG_HOST_EN then d
      else if d.stbHolds m then d.setClu m { d.clu m with held := some (holdStb (d.clu m).held 2 [] d.time) }
      else strobeNow k d m 2 []
    let d := d.forAll ((List.range 8).filter (fun s => d.txnWaits s 1 && (d.slot s).target == n)) (fun d s => d.txnPoint fire s)
    d.stbAct n src ctxs d.time

/-- A source of cluster `n` fires (R187): ignored if disabled; held in NAP, DORMANT or a self-test slice, joining what is held (R189);
in the cycle of a strobe that has acted, part of that strobe (R188). `i` is the source:
0 sequencer, 1 host, 2 and 3 trigger inputs, 4 MSL trigger. -/
def Dev.strobeOne (d : Dev) (n i : Nat) (ctxs : List Nat) : Dev :=
  if !d.present n || !bitOf (d.word (wfgBase n + 0xF00)) i then d
  else if d.stbHolds n then (d.setClu n { d.clu n with held := some (holdStb (d.clu n).held (2 ^ i) ctxs d.time) }).gangWakes n
  else match d.stbJoin n (2 ^ i) ctxs with
    | some y => d.stbJoined n (2 ^ i) ctxs y
    | none => strobeNow 9 d n (2 ^ i) ctxs

/-- The strobes of several clusters at one time. -/
def Dev.strobeReq (d : Dev) (ns : List Nat) (i : Nat) (ctxs : List Nat) : Dev := d.forAll ns (fun d n => d.strobeOne n i ctxs)

/-- A write of WFG_STB_FIRE.GO. -/
def hostFire (d : Dev) (n : Nat) : Dev := d.strobeOne n 1 []

/-- HELD_STROBE_RELEASE (R189, R230): a held strobe acts once nothing holds it. -/
def Dev.heldRelease (d : Dev) (n : Nat) : Dev :=
  let d := d.gangRelease n
  match (d.clu n).held with
  | some h => if d.stbHolds n then d else strobeNow 9 (d.setClu n { d.clu n with held := none }) n h.src h.ctxs
  | none => d

/-! ### Commit points -/

/-- TXN_PREPARE_DONE (R47, R48): the slot enters PENDING. -/
def Dev.txnPrepareDone (d : Dev) (s : Nat) : Dev :=
  if d.txnState s ≠ 2 then d
  else
    let x := d.slot s
    let d := (d.setSlot s { x with pendT := d.time, tick := none, waitT := none }).setTxn s 3
    if x.point = 0 then d.txnPoint hostFire s
    else if x.point = 2 ∧ d.ctxActive x.target = false then d.txnFail s 3
    else d

/-- TXN_LATE_APPLY (R50): the slices have ended. -/
def Dev.txnLateApply (d : Dev) (s : Nat) : Dev :=
  match (d.slot s).waitT with
  | some t =>
    if d.txnState s ≠ 3 ∨ d.txnBlocked s = true then d
    else
      let d := (d.setb (txnReg s) .TXN_STAT_LATE true).put (txnReg s) .TXN_LATE_TICKS_TICKS (Nat.min ((d.time - t) / 1024) (2 ^ 32 - 1))
      d.lateFrom true t (fun d => d.txnApply hostFire s)
  | none => d

/-- A context leaves RUNNING and HOLDING: GRANULE commits that wait for it fail with TARGET_ENDED (R48). -/
def Dev.txnEnded (d : Dev) (c : Nat) : Dev :=
  d.forAll ((List.range 8).filter (fun s => d.txnWaits s 2 && (d.slot s).target == c)) (fun d s => d.txnFail s 4)

end Sys2Proof.Machine
end

