-- ==== Sys2Proof/Machine/Pump.lean ====
section
/-! DEFINITION. The vector pump and the decision unit (04_vector_programs.md, 05_sequencer_microcode.md, 06_pattern_memory_streaming.md):
vectors, latches, granule boundaries, holds, and how a run ends. -/

namespace Sys2Proof.Machine

/-- Change the record of a context. -/
def Dev.modCx (d : Dev) (c : Nat) (f : Ctx → Ctx) : Dev := d.setCx c (f (d.cx c))

/-- The result lag L_R of a vector period (R114): 64 ns are 104,857.6 fine units. -/
def lagOf (tv : Nat) : Nat := 8 + (1048576 + 10 * Nat.max 1 tv - 1) / (10 * Nat.max 1 tv)

/-- The clusters that hold a site channel of a context. -/
def Dev.siteClusters (d : Dev) (c : Nat) : List Nat := ((d.cx c).site.map (· / 32)).eraseDups

/-! ### Marks -/

/-- The first use of a host-timed source in a run writes HOST_TIMED (R126). -/
def Dev.hostTimed (d : Dev) (c : Nat) : Dev :=
  if (d.cx c).hostT then d else (d.dbreak c 4).modCx c (fun x => { x with hostT := true })

/-- The payload of a gap mark (R170, R307, R317). -/
def Gap.words (g : Gap) (seq : Nat) : List Nat :=
  [lo32 g.gidx, hi32 g.gidx % 256 + g.cause * 256, Nat.min g.h (2 ^ 32 - 1), seq, lo32 g.t, hi32 g.t]

/-- The gap in progress ends with its mark. -/
def Dev.gapMark (d : Dev) (c : Nat) : Dev :=
  match (d.cx c).gap with
  | some g => (d.annot c (if g.bp then 4 else 3) (g.words (d.cx c).seq)).modCx c (fun x => { x with gap := none })
  | none => d

/-! ### A context leaves RUNNING and HOLDING (R84, R87, R104, R120, R122, R244, R266) -/

/-- The pins of a site are given back: windows close with their results at the end of the last vector, drivers take STATIC. The edge of such a
window result is stated nowhere: a value of the slot and the vector, so that runs of one premise agree (R24). -/
def Dev.pinLeave (d : Dev) (c g : Nat) : Dev :=
  let d := if (d.pin g).win.isSome then d.winClose c g (d.vidx c - 1) (Config.runFree (d.pin g).slot (d.vidx c - 1) 0 % 4) else d
  if d.pinLive g then d.driveStatic g else d

/-- The CONTEXT sample schedules of a context end with its last vector (R207, R227); what they have taken may still arrive. -/
def Dev.schedEnd (d : Dev) (c : Nat) : Dev :=
  let e := d.vidx c * d.ctxTv c
  let d := d.forAll (d.cx c).site (fun d g => let p := d.pmu g; if p.sched.on then d.setPmu g { p with sched := { p.sched with stop := some (c, (d.pin g).slot, e) } } else d)
  d.forAll ((List.range 64).filter (fun k => decide (d.dpsOwner k = some c)))
    (fun d k => let p := d.dp k; if p.sched.on then d.setDp k { p with sched := { p.sched with stop := some (c, k % 8, e) } } else d)

/-- The site channels of a context are released (R13, R104), and what waited for that moment goes on (R379). -/
def Dev.siteFree (d : Dev) (c : Nat) : Dev :=
  let cl := d.clusters.filter (fun n => (d.ctxOwnersIn n).contains c)
  let d := d.forAll (d.cx c).site (fun d g => if (d.pin g).owner = some c then (d.setPin g { d.pin g with owner := none }).blankSync g else d)
  let d := d.modCx c (fun x => { x with site := [] })
  d.forAll cl Dev.calIdle

/-- What of a run ends with it. -/
def Ctx.runOver (x : Ctx) (st cause : Nat) : Ctx :=
  { x with table := none, chosen := none, cur := none, succ := none, want := none, req := 0, bpHold := false, ldstb := [], gapEnd := none, crec := none, nkey := none, endSt := some (st, cause) }

/-- A context enters DONE, STOPPED or FAULTED from RUNNING or HOLDING. RUN_END waits for the last inputs (R276, R307). -/
def Dev.leaveRun (d : Dev) (c st cause : Nat) : Dev :=
  let b := ctxBase c
  let n := c / 32
  let d := d.runLate c
  let d := (d.gapMark c).forAll (d.cx c).site (fun d g => d.pinLeave c g)
  let d := ((((d.schedEnd c).tdcOwnerEnd c).wfgOwnerEnd c).calGapCut c).txnEnded c
  let d := ((d.put b .CTX_STATE_STATE st).put b .CTX_STATE_CAUSE cause).setb b .CTX_STATE_CALGAP false
  let d := (d.modCx c (fun x => x.runOver st cause)).seqShow c
  let d := d.siteFree c
  let old := d.bitN (seqBase n) .SEQ_CTX_EVT_END (c % 32)
  let d := d.setBitN (seqBase n) .SEQ_CTX_EVT_END (c % 32) true
  let d := if old then d else d.irq .seq (seqBase n) 1
  d.cacheLeave c

/-- SLOT_END_CLOSE (R276, R284, R307): every input of an ended run reaches the acquisition; the slots close and RUN_END is written. -/
def Dev.slotEndClose (d : Dev) (m : Tab Byte) (c : Nat) : Dev :=
  match (d.cx c).endSt with
  | some (st, cause) =>
    let d := (d.tdcHandAll c).acqEnd m c (st == 7)
    let x := d.cx c
    let v := d.vidx c
    let d := d.annot c 9 [st + cause * 256, x.seq, lo32 v, hi32 v, d.get (ctxBase c) .CTX_HOLDS_COUNT, (~~~x.crc).toNat]
    d.setCx c { d.cx c with endSt := none, isOpen := false }
  | none => d

/-! ### The decision unit (R115, R116, R121 to R123, R137, R138) -/

/-- The six inputs at the latch of boundary `b` for a table. -/
def Dev.inputs (d : Dev) (m : Tab Byte) (c b : Nat) (t : Table) : Nat :=
  let x := d.cx c
  let lr := lagOf (d.ctxTv c)
  let fail := match x.failV with | some f => decide (f + lr ≤ b) | none => false
  let pt := x.ptrig.any (fun v => decide (v + lr ≤ b))
  let bad := match t.mmask, x.hdr with
    | some k, some h => x.itFails.any (fun p => decide (t.mfrom ≤ p.1) && decide (p.1 + lr ≤ b) && h.maskBit m k p.2)
    | _, _ => false
  (if fail then 1 else 0) + (if pt then 2 else 0) + x.trig % 8 * 4 + (if bad then 0 else 32)

/-- The first leaf whose key matches, with its number. -/
def pickLeaf (i : Nat) : Nat → List Leaf → Option (Leaf × Nat)
  | _, [] => none
  | k, l :: ls => if Nat.land i l.care = l.value then some (l, k) else pickLeaf i (k + 1) ls

/-- A leaf that is selected for boundary `b`: match iterations that it opens begin there. -/
def Leaf.opens (l : Leaf) (b : Nat) : Leaf := { l with stack := l.stack.map (fun f => if f.v0.isNone then { f with v0 := some b } else f) }

/-- A leaf that ends the run: no op follows it. -/
def Leaf.ends (l : Leaf) : Bool := l.halt.isSome || l.desc.last

/-- A decision has consumed what it judged: the table, the trigger inputs, the pattern triggers within the lag. -/
def Ctx.consume (x : Ctx) (l : Leaf) (b lr : Nat) : Ctx :=
  { x with table := none, trig := 0, ptrig := x.ptrig.filter (fun v => decide (b < v + lr)), chosen := if l.ends then x.chosen else some l }

/-- The decision unit selects a leaf of the pending table (R138). A leaf behind which the run goes on starts DECIDE (R134). -/
def Dev.decideLeaf (d : Dev) (m : Tab Byte) (c b : Nat) : Dev × Option Succ :=
  match (d.cx c).table with
  | none => (d, none)
  | some t =>
    let i := d.inputs m c b t
    match pickLeaf i 0 t.leaves with
    | none => (d, none)
    | some (l, k) =>
      let l := l.opens b
      let d := (d.put (ctxBase c) .CTX_SEQ_COND_INPUTS i).put (ctxBase c) .CTX_SEQ_COND_LEAF k
      let d := (d.modCx c (fun x => x.consume l b (lagOf (d.ctxTv c)))).seqShow c
      (if l.ends then d else d.reqRtn (c / 32) { slot := 0x23, ctx := c }, some (.leaf l t.tag))

/-- The slot whose mask violation stops the context carries STOPPED (R294). -/
def Dev.maskMark (d : Dev) (c : Nat) (s : MStop) : Dev :=
  d.modCx c (fun x => x.setAslot s.slot { x.aslot s.slot with stopBy := true })

/-- The tag of the pending table. -/
def Ctx.tag (x : Ctx) : Option TTag := x.table.map (fun t => t.tag)

/-- The running op has a further granule. -/
def Ctx.more (x : Ctx) : Bool := match x.cur with | some o => decide (x.curPos + 1 < o.count) | none => false

/-- The successor of boundary `b` if nothing holds it (R121, R123, R294): a reaction, a stop, a mask stop, a redirect, the granule that a gap
awaits, the next granule of the op, the leaf of the table. -/
def Dev.latchSucc (d : Dev) (m : Tab Byte) (c b : Nat) : Dev × Option Succ :=
  let x := d.cx c
  let ms := d.maskStop c b (lagOf (d.ctxTv c))
  if x.tag = some .react then d.decideLeaf m c b
  else
    let d := match ms with | some s => d.maskMark c s | none => d
    if x.tag = some .stop then d.decideLeaf m c b
    else if ms.isSome then (d, some .maskStop)
    else if x.tag = some .redirect then d.decideLeaf m c b
    else if x.want.isSome then (d, x.want)
    else if x.more then (d, some .cont)
    else d.decideLeaf m c b

/-- A successor that needs no granule. -/
def Succ.ends : Succ → Bool
  | .leaf l _ => l.ends
  | .maskStop => true
  | _ => false

/-- The cause of an underrun for a successor, if it has one (R168, R169). -/
def Dev.judgeSucc (d : Dev) (c : Nat) (w : Option Succ) : Dev × Option Nat :=
  let d := d.modCx c (fun x => { x with nkey := none })
  match w with
  | none => (d, some 2)
  | some _ => match d.succGran c w with
    | some g => d.judge c g (d.isAgain c w)
    | none => (d, none)

/-- Fix the successor of the next boundary. -/
def Ctx.fix (x : Ctx) (s w : Option Succ) : Ctx := { x with succ := s, want := w }

/-- The latch of boundary `b` (R19, R121, R124, R168 to R172, R316, R317). At a start only the first granule is judged. -/
def Dev.latchAt (d : Dev) (m : Tab Byte) (c b : Nat) (start : Bool) : Dev :=
  let r := d.latchSucc m c b
  if (r.2.map Succ.ends) = some true then r.1.modCx c (fun x => x.fix r.2 none)
  else
    let j := r.1.judgeSucc c r.2
    let bp := !start && j.1.bpJudge c
    let d := j.1.modCx c (fun x => { x with bpHold := bp })
    let inGap := match (d.cx c).gap with | some g => !g.bp | none => false
    match j.2 with
    | some cause =>
      let d := if inGap then d.modCx c (fun x => { x with gap := x.gap.map (fun g => { g with cause := cause }) }) else d
      if !inGap && d.bit (ctxBase c) .CTX_CFG_POLICY then d.modCx c (fun x => x.fix (some (.strict cause)) none)
      else d.modCx c (fun x => x.fix (some (.hold cause)) r.2)
    | none => if bp then d.modCx c (fun x => x.fix (some (.hold 0)) r.2) else d.modCx c (fun x => x.fix r.2 none)

/-- The GRANULE commits that wait for this context act at the boundary whose latch closes now (R48). -/
def Dev.txnMark (d : Dev) (c : Nat) : Dev :=
  d.forAll ((List.range 8).filter (fun s => d.txnWaits s 2 && (d.slot s).target == c)) (fun d s => d.setSlot s { d.slot s with tick := some 0 })

/-- The marked GRANULE commits apply before the first vector of the successor (R48, R123, R172). -/
def Dev.txnMarked (d : Dev) (c : Nat) : Dev :=
  d.forAll ((List.range 8).filter (fun s => d.txnWaits s 2 && (d.slot s).target == c && (d.slot s).tick.isSome)) (fun d s => d.txnPoint hostFire s)

/-! ### Granules -/

/-- At every boundary the UI of the context is held against the swing class of its pins (R68). -/
def Dev.overrate (d : Dev) (c : Nat) : Dev :=
  match (d.cx c).hdr with
  | some h => d.forAll (d.cx c).site (fun d g =>
      let u := [256, 512, 1024].getD (d.get (pinBase g) .PIN_SWING_CLASS) 1024
      if h.tv < h.mux * u then (d.setb (pinBase g) .PIN_STAT_OVERRATE true).irq .pin (pinBase g) 5 else d)
  | none => d

/-- A granule begins behind `v` program vectors; a change between hold and program vectors opens a span (R244). -/
def Ctx.begin (x : Ctx) (k : GKind) (v : Nat) : Ctx :=
  let h := decide (k = .hold)
  let new := match x.spans with | sp :: _ => sp.hold != h | [] => true
  { x with gk := k, vec := 0, succ := none, spans := if new then { s := x.s, hold := h, v := v } :: x.spans else x.spans }

/-- One more hold granule of a gap, or the first. -/
def Ctx.gapNext (x : Ctx) (bp : Bool) (cause b : Nat) : Ctx :=
  let g : Gap := match x.gap with
    | some g => { g with h := g.h + 1, cause := cause }
    | none => { bp := bp, cause := cause, h := 1, gidx := b / 64, t := x.s }
  { x with gap := some g }

/-- An underrun of cluster `n` counts and raises its interrupt (R170, R179). -/
def Dev.underrun (d : Dev) (n : Nat) : Dev := (d.irq .patc (patcBase n) 0).satInc (patcBase n) .PAT_UNDERRUN_CNT_COUNT

/-- A hold granule starts (R20, R170, R266, R316, R317). -/
def Dev.holdStart (d : Dev) (c cause : Nat) : Dev :=
  let bp := cause == 0
  let n := c / 32
  let same := match (d.cx c).gap with | some g => g.bp == bp | none => false
  let d := if same then d
    else if bp then (d.gapMark c).irq .res resB 1
    else (d.gapMark c).underrun n
  let d := if bp then d.satInc resB .RES_BP_HOLD_CNT_COUNT else d.satInc (patcBase n) .PAT_HOLD_CNT_COUNT
  let d := ((d.satInc (ctxBase c) .CTX_HOLDS_COUNT).put (ctxBase c) .CTX_STATE_STATE 4).setb (ctxBase c) .CTX_STATE_CALGAP false
  let b := d.vidx c
  let d := (d.modCx c (fun x => x.gapNext bp cause b)).modCx c (fun x => x.begin .hold b)
  let d := if d.isAgain c (d.cx c).want then d else d.recEnd c
  d.wfgHold c (64 * d.ctxTv c / 1024)

/-- Program vectors go on behind a gap, or at once. -/
def Dev.resume (d : Dev) (c : Nat) : Dev := ((d.gapMark c).put (ctxBase c) .CTX_STATE_STATE 3).wfgResume c

/-- Windows that a hold suspended go on at the first vector after it, and see the outputs as they stand (R85). -/
def Dev.winsResume (d : Dev) (c : Nat) : Dev := d.forAll (d.cx c).site (fun d g => if d.winHeld g then d else d.winSee g)

/-- The granule kind of an op that starts or continues with record `g`, if it needs one. -/
def granKind (g : Option Nat) : GKind := match g with | some g => .prog g | none => .gap

/-- A program granule of the running op starts. -/
def Dev.granBegin (d : Dev) (c : Nat) (g : Option Nat) (again : Bool) : Dev :=
  let d := match g with | some i => d.granStart c i again | none => d.recEnd c
  ((d.modCx c (fun x => x.begin (granKind g) (d.vidx c))).setb (ctxBase c) .CTX_STATE_CALGAP g.isNone).winsResume c

/-- The next granule of the running op starts. -/
def Dev.contStart (d : Dev) (c : Nat) : Dev :=
  let g := d.contGran c
  let again := d.isAgain c (some .cont)
  ((d.resume c).granBegin c g again).modCx c (fun x => { x with curPos := x.curPos + 1 })

/-- Actions of a leaf at boundary `b` whose first vector has system time `s` (R119, R126, R138). -/
def Dev.leafActs (d : Dev) (m : Tab Byte) (c b s : Nat) (acts : List Act) : Dev :=
  acts.foldl (fun d a => match a with
    | .acq sub mask desc => d.acqOp m c sub mask desc b (b - 1)
    | .ldstb off => d.modCx c (fun x => { x with ldstb := x.ldstb ++ [off] })
    | .mark k => if k = 4 then d.hostTimed c else d.dbreak c k
    | .systime => d.annot c 8 [lo32 b, hi32 b, lo32 s, hi32 s]) d

/-- The op of a leaf becomes the one that is emitted; CLRF opens a new fail window, and match results are kept while a match loop runs (R115, R116). -/
def Ctx.take (x : Ctx) (l : Leaf) : Ctx :=
  { x with cur := some l.desc, curPos := 0, ldstb := [], failV := if l.desc.clrf then none else x.failV, itFails := if l.stack.any (fun f => f.kind == .mtch) then x.itFails else [], loop := l.stack.any (fun f => f.kind == .mtch), quiet := l.stack.any (fun f => f.kind == .mtch && f.quiet) }

/-- The op of a leaf starts at boundary `b` (R107, R115, R119, R121). -/
def Dev.leafStart (d : Dev) (m : Tab Byte) (c b : Nat) (l : Leaf) (tag : TTag) : Dev :=
  let d := d.resume c
  let d := if tag = .redirect then d.hostTimed c else d
  let d := (d.modCx c (fun x => x.take l)).put (ctxBase c) .CTX_OPIDX_OP l.desc.opidx
  (d.leafActs m c b (d.cx c).s l.acts).granBegin c l.desc.head false

/-- An ACQ op. -/
def Act.isAcq : Act → Bool
  | .acq .. => true
  | _ => false

/-- A leaf that ends the run acts (R105, R120, R122, R139, R141): only its marks where it halts, and no strobe, which has no vector. Its ACQ ops act at
the end of the last vector, behind the inputs that are placed there (R119, R276 to R278). -/
def Dev.leafEnd (d : Dev) (m : Tab Byte) (c b : Nat) (l : Leaf) (tag : TTag) : Dev :=
  let d := if tag = .stop ∨ tag = .redirect then d.hostTimed c else d
  let d := d.leafActs m c b (d.cx c).s (l.acts.filter (fun a => !a.isAcq))
  let d := d.modCx c (fun x => { x with endActs := l.acts.filter Act.isAcq })
  match l.halt with
  | some cause => d.leaveRun c 7 cause
  | none => d.leaveRun c (if tag = .stop then 5 else 6) 0

/-- The CALGAP op that is emitted ends at this boundary (R373, R379). -/
def Dev.gapOpEnd (d : Dev) (c : Nat) : Dev :=
  let x := d.cx c
  let goes := match x.succ, x.want with
    | some .cont, _ => true
    | some (.hold _), some .cont => true
    | _, _ => false
  match x.cur with
  | some o =>
    if o.kind = .gap ∧ goes = false then
      let d := (d.calGapCut c).modCx c (fun x => { x with cur := none, gapEnd := if o.act then some x.s else x.gapEnd })
      let all := fun (d : Dev) (n : Nat) => (d.ctxOwnersIn n).all (fun e => !d.ctxActive e || decide ((d.cx e).gapEnd = some x.s))
      if o.act then d.forAll (d.clusters.filter (fun n => (d.ctxOwnersIn n).contains c && all d n)) Dev.calGapPoint else d
    else d
  | none => d

/-- A mask stop ends the context (R294). -/
def Dev.maskEnd (d : Dev) (c : Nat) : Dev :=
  let b := acqBase (c / 32)
  ((d.setBitN b .ACQ_STOP_MAP_CTX (c % 32) true).irq .acq b 1).leaveRun c 6 0

/-- The vectors that are complete in the acquisition when boundary `b` acts: all, where ACQ ops act there; else all but the last, which may take the
result of a window that the end of the run closes (R84, R276, R289). -/
def Ctx.acqBound (x : Ctx) (b : Nat) : Nat :=
  match x.succ with
  | some (.leaf l _) => if !l.ends && l.acts.any Act.isAcq then b else b - 1
  | _ => b - 1

/-- What was fixed for this boundary takes effect (R18, R20, R121 to R125, R171). -/
def Dev.boundaryAt (d : Dev) (m : Tab Byte) (c : Nat) : Dev :=
  let b := d.vidx c
  let e := (d.cx c).acqBound b
  let d := (d.acqSync c e).gapOpEnd c
  let go := fun (f : Dev → Dev) => ((f (d.txnMarked c)).acqNumber c e).overrate c
  match (d.cx c).succ with
  | none => d
  | some (.hold cause) => go (fun d => d.holdStart c cause)
  | some .cont => go (fun d => d.contStart c)
  | some (.strict _) => ((d.underrun (c / 32)).dbreak c 3).leaveRun c 7 0x10
  | some .maskStop => d.maskEnd c
  | some (.leaf l tag) => if l.ends then d.leafEnd m c b l tag else go (fun d => d.leafStart m c b l tag)

/-! ### Vectors -/

/-- The context's own load strobe acts on vector `v` (R117, R207, R224): where it fires a strobe it restarts the sample schedules that are anchored
at it, those of the device-power channels that the context owns in any cluster among them. -/
def Dev.ldstbFire (d : Dev) (c v : Nat) : Dev :=
  let cl := d.siteClusters c
  let p := v * d.ctxTv c
  let d := d.strobeReq cl 0 [c]
  let fired := cl.filter (fun n => bitOf (d.word (wfgBase n + 0xF00)) 0)
  let d := d.forAll ((d.cx c).site.filter (fun g => fired.contains (g / 32) && d.get (pinBase g) .PMU_ADC_CFG_MODE == 3 && d.bit (pinBase g) .PMU_ADC_CFG_ANCHOR)) (fun d g => d.pmuAnchor g p)
  d.forAll ((List.range 64).filter (fun k => decide (fired ≠ []) && decide (d.dpsOwner k = some c) && d.get (dpsBase k) .DPS_MEAS_CFG_MODE == 3))
    (fun d k => d.dpsAnchor k p)

/-- The map whose wave sets a granule uses (R107, R108). -/
def Ctx.emitMap (x : Ctx) (h : Hdr) (m : Tab Byte) : Nat :=
  match x.gk with
  | .prog _ => match x.cur with | some o => o.map | none => 0
  | _ => h.holdWsm m

/-- Advance the pump past a vector. -/
def Ctx.advance (x : Ctx) (tv : Nat) : Ctx := { x with vec := x.vec + 1, s := x.s + tv, ldstb := x.ldstb.filter (fun o => o != x.vec) }

/-- The actions of one vector on every pin of the site, in slot order (R78, R99, R106, R108). -/
def Dev.emitPins (d : Dev) (m : Tab Byte) (c v : Nat) (h : Hdr) (smp : List Nat) : Dev :=
  let x := d.cx c
  let map := x.emitMap h m
  let hold := decide (x.gk = .hold) || decide (x.gk = .gap)
  let data := d.curData c
  (x.site.zipIdx.foldl (fun acc p =>
    let sym := fun (j : Nat) => if hold then h.holdSym m p.2 else recSym data h.mux p.2 x.vec j
    Dev.vectorPin acc c p.1 v x.s (h.mapWs m map p.2) h.tv h.mux hold sym) (d, smp)).1

/-- A run that has started: not one whose start is executed late (R22). -/
def Dev.emitting (d : Dev) (c : Nat) : Bool := d.ctxActive c && (d.cx c).late.isNone

/-- The pump may emit: the clocks run and the range clock is locked. -/
def Dev.pumpUp (d : Dev) (c : Nat) : Bool := d.clkState == 2 && d.bit (vpBase (c / 128)) .CLK_VP_STAT_LOCKED && d.emitting c

/-- A latch is due and has not closed. -/
def Dev.latchDue (d : Dev) (c : Nat) : Bool := (d.cx c).vec == 56 && (d.cx c).succ.isNone

/-! ### Meanings -/

/-- VECTOR_EMIT (R78, R114): the pump emits the next vector. Samples {CH, CL} go to its strobes in order. -/
def Dev.vectorEmit (d : Dev) (m : Tab Byte) (c : Nat) (smp : List (BitVec 2)) : Dev :=
  match (d.cx c).hdr with
  | some h =>
    if ¬ d.pumpUp c ∨ 64 ≤ (d.cx c).vec ∨ d.latchDue c = true then d
    else
      let v := d.vidx c
      let s := (d.cx c).s
      let d := { d with time := Nat.max d.time s }
      let d := if (d.cx c).ldstb.contains (d.cx c).vec then d.ldstbFire c v else d
      let d := (d.tdcPass c).forAll (d.cx c).site Dev.blankLatch
      let d := (d.emitPins m c v h (smp.map (fun b => b.toNat))).modCx c (fun x => x.advance h.tv)
      if (d.cx c).gk = .hold then d else d.put (ctxBase c) .CTX_VIDX_INDEX (v + 1)
  | none => d

/-- DECISION_LATCH (R19, R138): the latch of the next boundary closes. -/
def Dev.decisionLatch (d : Dev) (m : Tab Byte) (c : Nat) : Dev :=
  if ¬ d.emitting c ∨ d.latchDue c = false then d
  else
    let d := (({ d with time := Nat.max d.time (d.cx c).s }).acqSync c (d.vidx c)).acqNumber c (d.vidx c - 1)
    ((d.latchAt m c (d.vidx c + (if (d.cx c).gk = .hold then 0 else 8)) false).txnMark c)

/-- GRANULE_BOUNDARY (R18). -/
def Dev.granuleBoundary (d : Dev) (m : Tab Byte) (c : Nat) : Dev :=
  if ¬ d.emitting c ∨ (d.cx c).vec ≠ 64 then d else ({ d with time := Nat.max d.time (d.cx c).s }).boundaryAt m c

/-- The edge of the active wave set that carries an action; edge 0 where none does. -/
def Dev.actEdge (d : Dev) (g code : Nat) : Nat :=
  ((List.range 4).find? (fun k => (List.range 4).any (fun y => d.wsAct g (d.pin g).wset k y == code))).getD 0

/-- The time at the tip of that edge in the vector emitted last (R80). -/
def Dev.actTip (d : Dev) (g code : Nat) : Nat := d.time + (d.edgeOf g (d.pin g).wset (d.actEdge g code)).1 + lTip

/-- The context whose program vectors act on a pin now: not in a hold or CALGAP granule, whose strobes, windows and marks are suppressed (R85). -/
def Dev.actCtx (d : Dev) (g : Nat) : Option Nat :=
  match d.service g with
  | some c => if (d.cx c).gk = .hold ∨ (d.cx c).gk = .gap then none else some c
  | none => none

/-- DRV_L, DRV_H, DRV_T, DRV_Z (R82). -/
def Dev.actDrive (d : Dev) (g code : Nat) : Dev :=
  if (d.service g).isSome then d.driveTo g (d.actEdge g code) (d.actTip g code) (drvOfAct code) else d

/-- CMP_L, CMP_H, CMP_M, CMP_X (R82): a strobe on the vector emitted last, sampling {CH, CL}. -/
def Dev.actCmp (d : Dev) (g k : Nat) (x : BitVec 2) : Dev :=
  match d.actCtx g with
  | some c => let s := d.sampleOf g (some x.toNat); (d.smpAt g (d.actTip g (8 + k))).strobeAt c g (d.vidx c - 1) (d.actEdge g (8 + k)) (8 + k) s.1 s.2
  | none => d

/-- WIN_L, WIN_H (R82, R84). -/
def Dev.actWin (d : Dev) (g : Nat) (high : Bool) : Dev :=
  match d.actCtx g with
  | some c => d.winOpen c g (d.vidx c - 1) (d.actEdge g (if high then 13 else 12)) high
  | none => d

/-- WIN_END (R82, R84). -/
def Dev.actWinEnd (d : Dev) (g : Nat) : Dev :=
  match d.actCtx g with
  | some c => d.winClose c g (d.vidx c - 1) (d.actEdge g 14)
  | none => d

/-- MARK at system time `t` (R82, R235). -/
def Dev.actMark (d : Dev) (g t : Nat) : Dev := if (d.actCtx g).isSome then d.tdcMark g t else d

/-- A reserved action (R82): BAD_ACT, and nothing else. -/
def Dev.actBad (d : Dev) (g : Nat) : Dev := if (d.service g).isSome then d.setb (pinBase g) .PIN_STAT_BAD_ACT true else d

end Sys2Proof.Machine
end

