-- ==== Sys2Proof/Machine/ExecAcq.lean ====
section
/-! DEFINITION. The meanings of the commands whose work is in Machine/Acq.lean and Machine/Pump.lean: one definition for each command. -/

namespace Sys2Proof.Machine

/-- ACQ_INPUT (R277). -/
def execAcqInput (c : Fin 1024) (st : State) : Host.Outcome State Fault Refusal :=
  upd st (fun _ d => d.acqInput c.val)

/-- CAPTURE_TOKEN (R300). -/
def execCaptureToken (c : Fin 1024) (s : Fin 8) (st : State) : Host.Outcome State Fault Refusal :=
  upd st (fun _ d => d.captureToken c.val s.val)

/-- SLOT_END_CLOSE (R284). -/
def execSlotEndClose (c : Fin 1024) (st : State) : Host.Outcome State Fault Refusal :=
  upd st (fun m d => d.slotEndClose m c.val)

end Sys2Proof.Machine
end

