-- ==== Sys2Proof/Machine/ExecApply.lean ====
section
/-! DEFINITION. The meanings of the commands whose work is in Machine/Apply.lean: one definition for each command. -/

namespace Sys2Proof.Machine

/-- LOAD_STROBE (R187). -/
def execLoadStrobe (n : Fin 32) (src : Fin 5) (c : Option (Fin 1024)) (st : State) : Host.Outcome State Fault Refusal :=
  upd st (fun _ d => d.strobeReq [n.val] src.val (if src = 0 then (c.map (fun c => c.val)).toList else []))

/-- HELD_STROBE_RELEASE (R189). -/
def execHeldStrobeRelease (n : Fin 32) (st : State) : Host.Outcome State Fault Refusal :=
  upd st (fun _ d => d.heldRelease n.val)

end Sys2Proof.Machine
end

