-- ==== Sys2Proof/Machine/ExecBst.lean ====
section
/-! DEFINITION. The meanings of the commands whose work is in Machine/Bst.lean: one definition for each command. -/

namespace Sys2Proof.Machine

/-- BIST_SLICE_START (R442). -/
def execBistSliceStart (n : Fin 32) (st : State) : Host.Outcome State Fault Refusal :=
  upd st (fun _ d => d.bistSliceStart n.val)

/-- FUSE_DONE (R447). -/
def execFuseDone (bad : List (Fin 64)) (st : State) : Host.Outcome State Fault Refusal :=
  upd st (fun _ d => d.fuseDone (bad.map (fun i => i.val)))

end Sys2Proof.Machine
end

