-- ==== Sys2Proof/Machine/BstRows.lean ====
section
/-! DEFINITION. The end of a self-test slice (R440, R441, R443, R444, R446): signature, repairs, results, and what waited for it. -/

namespace Sys2Proof.Machine

/-- SIG of a part (R440): the CRC-32 of the output words and of the count of completed steps. -/
def bstSigOf (ws : List Nat) : Nat := Nat.xor (crcBytes 0xFFFFFFFF ((ws ++ [ws.length % 2 ^ 32]).flatMap wordBytes)) 0xFFFFFFFF

/-- A spare row of a repair has failed. -/
def Rep.fails (r : Rep) (bad : List Nat) (cl elem : Nat) : Bool := r.cl == cl && r.elem == elem && bad.contains r.spare

/-- A failing spare, marked in the soft map. -/
def badSpare (cl elem spare : Nat) : Rep := { cl := cl, elem := elem, spare := spare, used := false, bad := true }

/-- Failing spares are marked in the soft map (R446) and never used: a row that had one, by a soft repair or by one in fuses, loses it. Answers these rows. -/
def Dev.sparesFail (d : Dev) (cl elem : Nat) (bad : List Nat) : Dev × List Nat :=
  let keep := d.bst.soft.filter (fun r => !r.fails bad cl elem)
  let lost := ((d.fuse.reps ++ d.bst.soft).filter (fun r => r.used && r.fails bad cl elem)).map (fun (r : Rep) => r.row)
  let held := keep.filter (fun r => r.used && r.cl == cl && r.elem == elem)
  ({ d with bst := { d.bst with soft := keep ++ bad.map (badSpare cl elem) } }, lost.filter (fun w => !held.any (fun r => r.row == w)))

/-- The soft repairs of a part (R446): the state after them, the rows mapped, and whether a spare was missing. -/
def Dev.bstRepair (d : Dev) (n test : Nat) (o : BstOut) : Dev × Nat × Bool :=
  match bstElem test with
  | none => (d, 0, false)
  | some e =>
    let bad := ((o.spares.map (fun s => s.toNat)).filter (fun s => decide (s < e.2))).eraseDups
    let r := d.sparesFail n e.1 bad
    if d.softAllowed then r.1.repair n e.1 e.2 bad (r.2 ++ o.rows.map (fun r => r.toNat)).eraseDups else (r.1, 0, false)

/-- The RESULT and CAUSE of a part (R440, R446): INCOMPLETE, then NO_SPARE, then SIGNATURE; 0 for PASS. -/
def bstCause (cut noSpare : Bool) (sig steps expSig expSteps : Nat) : Nat :=
  if cut ∨ steps < expSteps then 2 else if noSpare then 3 else if sig = expSig ∧ steps = expSteps then 0 else 1

/-- The result registers of a part (R444 step 4). -/
def Dev.bstResult (d : Dev) (n : Nat) (s : BSlice) (o : BstOut) (reps : Nat) (noSpare : Bool) : Dev :=
  let b := bstCl n
  let sig := bstSigOf (o.words.map (fun w => w.toNat))
  let es := Config.bstSig s.test s.part % 2 ^ 32
  let en := Config.bstSteps s.test s.part % 2 ^ 32
  let c := bstCause s.cut noSpare sig o.words.length es en
  let d := if n = 32 then d else
    let d := (((d.put b .BST_CL_RES_RESULT (if c = 0 then 1 else 2)).put b .BST_CL_RES_CAUSE c).put b .BST_CL_RES_TEST s.test).put b .BST_CL_RES_PART s.part
    let d := ((d.put b .BST_CL_RES_REPAIRS (Nat.min reps 63)).put b .BST_CL_SIG_SIG sig).put b .BST_CL_STEPS_COUNT o.words.length
    let d := (d.put b .BST_CL_EXP_SIG_SIG es).put b .BST_CL_EXP_STEPS_COUNT en
    d.put b .BST_CL_DET_BITS (Nat.lor (d.get b .BST_CL_DET_BITS) o.det.toNat)
  let d := d.irq .bst bstB 0
  if c = 0 then d else d.irq .bst bstB 1

/-- A start that waits late takes effect now, if every cluster of the context is ready (R16, R22). -/
def Dev.lateStart (d : Dev) (c : Nat) : Dev :=
  if (d.cx c).late.isSome ∧ d.startReady c = true then
    let e := d.eng (c / 32)
    d.setEng (c / 32) { e with queue := e.queue.map (fun r => if r.slot = 0x22 ∧ r.ctx = c then { r with arg := d.time } else r) }
  else d

/-- The late starts that wait for cluster `n`. -/
def Dev.lateStarts (d : Dev) (n : Nat) : Dev := d.forAll (d.ctxOfCluster n) Dev.lateStart

/-- What waited for the slice of cluster `n` is served (R443, R471): a cluster reset, generator starts, late starts. A touchdown
wake stands in the governor's queue. -/
def Dev.bstServe (d : Dev) (n : Nat) : Dev :=
  if (d.clu n).rstWait then (d.setClu n { d.clu n with rstWait := false }).clBody n
  else
    let d := d.wfgSliceEnd n
    ((d.startsServe).lateStarts n).seqStat n

/-- The slice of cluster `n` ends, or for `n` = 32 the REF test. -/
def Dev.bstEnd (d : Dev) (n : Nat) (s : BSlice) (o : BstOut) : Dev :=
  let r := d.bstRepair n s.test o
  let d := r.1.forAll (bstPages s.test n s.part) (fun d b => d.setb b .PG_STAT_SELFTEST false)
  let d := if n = 32 then { d with bst := { d.bst with ref := none } } else d.setClu n { d.clu n with bst := none }
  let d := (d.bstResult n s o r.2.1 r.2.2).bstStat
  if n = 32 then d else d.bstServe n

/-- BIST_SLICE_END (R444 steps 3 and 4): the REF test if it runs, else the slice of the cluster. -/
def Dev.bistSliceEnd (d : Dev) (n : Nat) (o : BstOut) : Dev :=
  match d.bst.ref with
  | some s => d.bstEnd 32 s o
  | none => match (d.clu n).bst with
    | some s => d.bstEnd n s o
    | none => d

/-- BIST_SLICE_TIMEOUT (R441): the engine stops the slice at 4 ms, and it ends with the steps completed by then. -/
def Dev.bistSliceTimeout (d : Dev) (n : Nat) (o : BstOut) : Dev := d.bistSliceEnd n o

end Sys2Proof.Machine
end

