-- ==== Sys2Proof/Machine/ExecBstRows.lean ====
section
/-! DEFINITION. The meanings of the commands whose work is in Machine/BstRows.lean: one definition for each command. -/

namespace Sys2Proof.Machine

/-- BIST_SLICE_END (R444). -/
def execBistSliceEnd (n : Fin 32) (o : BstOut) (st : State) : Host.Outcome State Fault Refusal :=
  upd st (fun _ d => d.bistSliceEnd n.val o)

/-- BIST_SLICE_TIMEOUT (R441). -/
def execBistSliceTimeout (n : Fin 32) (o : BstOut) (st : State) : Host.Outcome State Fault Refusal :=
  upd st (fun _ d => d.bistSliceTimeout n.val o)

end Sys2Proof.Machine
end

