-- ==== Sys2Proof/Machine/ExecCal.lean ====
section
/-! DEFINITION. The meanings of the commands whose work is in Machine/Cal.lean: one definition for each command. -/

namespace Sys2Proof.Machine

/-- INDEX_RELEASE (R372). -/
def execIndexRelease (st : State) : Host.Outcome State Fault Refusal :=
  upd st (fun _ d => d.indexRelease)

/-- CAL_AGE_EXPIRY (R371). -/
def execCalAgeExpiry (n : Fin 32) (x : Fin 8) (age : Word) (st : State) : Host.Outcome State Fault Refusal :=
  upd st (fun _ d => d.calAgeExpiry n.val x.val age.toNat)

/-- CAL_SLICE_START (R374). -/
def execCalSliceStart (st : State) : Host.Outcome State Fault Refusal :=
  upd st (fun _ d => d.calSliceStart)

/-- CAL_SLICE_END (R375). -/
def execCalSliceEnd (n : Fin 32) (o : CalOut) (st : State) : Host.Outcome State Fault Refusal :=
  upd st (fun _ d => d.calSliceEnd n.val o)

end Sys2Proof.Machine
end

