-- ==== Sys2Proof/Machine/ExecClk.lean ====
section
/-! DEFINITION. The meanings of the commands whose work is in Machine/Clk.lean: one definition for each command. -/

namespace Sys2Proof.Machine

/-- VCLK_LOCK (R386). -/
def execVclkLock (r : Fin 8) (st : State) : Host.Outcome State Fault Refusal :=
  upd st (fun _ d => d.vclkLock r.val)

/-- MUX_SWITCH (R388). -/
def execMuxSwitch (x : Fin 4) (st : State) : Host.Outcome State Fault Refusal :=
  upd st (fun _ d => d.muxSwitch x.val)

/-- SW_STUCK (R399). -/
def execSwStuck (x : Fin 4) (st : State) : Host.Outcome State Fault Refusal :=
  upd st (fun _ d => d.swStuck x.val)

/-- AON_FAIL (R393). -/
def execAonFail (st : State) : Host.Outcome State Fault Refusal :=
  upd st (fun _ d => d.aonFail)

/-- VCLK_UNLOCK (R393). -/
def execVclkUnlock (r : Fin 8) (st : State) : Host.Outcome State Fault Refusal :=
  upd st (fun _ d => d.vclkUnlock r.val)

/-- BKOSC_QUAL_CHECK (R394). -/
def execBkoscQualCheck (cnt : BitVec 16) (st : State) : Host.Outcome State Fault Refusal :=
  upd st (fun _ d => d.bkoscQual cnt.toNat)

/-- REF_OK (R394). -/
def execRefOk (st : State) : Host.Outcome State Fault Refusal :=
  upd st (fun _ d => d.refOk)

/-- MTB_LOCK (R394). -/
def execMtbLock (st : State) : Host.Outcome State Fault Refusal :=
  upd st (fun _ d => d.mtbLock)

/-- CLOCK_NORMAL (R394). -/
def execClockNormal (st : State) : Host.Outcome State Fault Refusal :=
  upd st (fun _ d => d.clockNormal)

end Sys2Proof.Machine
end

