-- ==== Sys2Proof/Machine/ExecDps.lean ====
section
/-! DEFINITION. The meanings of the commands whose work is in Machine/Dps.lean: one definition for each command. -/

namespace Sys2Proof.Machine

/-- DPS_SLEW_STEP (R225). -/
def execDpsSlewStep (k : Fin 64) (st : State) : Host.Outcome State Fault Refusal :=
  upd st (fun _ d => dpsSlewStep d k.val)

/-- RAMP_DONE (R226). -/
def execRampDone (k : Fin 64) (st : State) : Host.Outcome State Fault Refusal :=
  upd st (fun _ d => rampDone d k.val)

/-- DPS_DISCHARGE_DONE (R226). -/
def execDpsDischargeDone (k : Fin 64) (st : State) : Host.Outcome State Fault Refusal :=
  upd st (fun _ d => dpsDischargeDone d k.val)

/-- ILIM_TRIP (R222). -/
def execIlimTrip (k : Fin 64) (ph : Fin 3) (st : State) : Host.Outcome State Fault Refusal :=
  upd st (fun _ d => ilimTrip d k.val ph.val)

/-- OV (R223). -/
def execDpsOv (k : Fin 64) (st : State) : Host.Outcome State Fault Refusal :=
  upd st (fun _ d => dpsOv d k.val)

/-- UV (R223). -/
def execDpsUv (k : Fin 64) (below : Bool) (st : State) : Host.Outcome State Fault Refusal :=
  upd st (fun _ d => dpsUv d k.val below)

/-- SENSE_OPEN (R219). -/
def execSenseOpen (k : Fin 64) (st : State) : Host.Outcome State Fault Refusal :=
  upd st (fun _ d => senseOpen d k.val)

/-- STAGE_FAIL (R223). -/
def execStageFail (k : Fin 64) (st : State) : Host.Outcome State Fault Refusal :=
  upd st (fun _ d => stageFail d k.val)

/-- DPS_CONVERSION (R224). -/
def execDpsConversion (k : Fin 64) (v i : BitVec 24) (overlap : Bool) (st : State) : Host.Outcome State Fault Refusal :=
  upd st (fun _ d => dpsConversion d k.val v.toInt i.toInt overlap)

end Sys2Proof.Machine
end

