-- ==== Sys2Proof/Machine/ExecFault.lean ====
section
/-! DEFINITION. The meanings of the commands whose work is in Machine/Fault.lean: one definition for each command. -/

namespace Sys2Proof.Machine

/-- SHADOW_END (R432). -/
def execShadowEnd (k : Fin 33) (st : State) : Host.Outcome State Fault Refusal :=
  upd st (fun _ d => d.shadowEnd k.val)

end Sys2Proof.Machine
end

