-- ==== Sys2Proof/Machine/Z64.lean ====
section
/-! DEFINITION. The ZH64 window (23_zh64_window.md): its slots, holders and latches, and the native registers they translate into. -/

namespace Sys2Proof.Machine

/-- BAR0 address of the window. -/
def z64B : Nat := 0x10000

/-- The native offset of a 20-bit value of a channel: VIH, VIL, VOH, VOL, FORCE, MEAS. -/
def z64Off (k : Nat) : Nat := [0x48, 0x4C, 0x54, 0x58, 0x204, 0x238].getD k 0

/-- What a window slot is (register map of ch. 23). -/
inductive ZReg where
  | id | bank | stat | strobe | period | start
  | lo (g k : Nat)
  | hi (g k : Nat)
  | time (g j : Nat)
  | ctrl (g : Nat)
  deriving DecidableEq, Repr

/-- The slot at a window offset; channels are those of the bank. -/
def zregAt (bank off : Nat) : Option ZReg :=
  if off % 4 ≠ 0 then none
  else if off < 0x18 then [ZReg.id, .bank, .stat, .strobe, .period, .start][off / 4]?
  else if 0x1000 ≤ off ∧ off < 0x2000 then
    let g := 16 * bank + (off - 0x1000) / 0x100
    let o := off % 0x100
    if o < 0x30 then (if o % 8 = 0 then some (.lo g (o / 8)) else some (.hi g (o / 8)))
    else if o < 0x3C then some (.time g ((o - 0x30) / 4))
    else if o = 0x3C then some (.ctrl g)
    else none
  else none

/-- A transaction slot is OPEN, PREPARING or PENDING (R482). -/
def Dev.txnOpen (d : Dev) : Bool := (List.range 8).any (fun s => [1, 2, 3].contains (d.txnState s))

/-- The key of a value's holder and latch. -/
def z64Key (g k : Nat) : Nat := g * 8 + k

/-- The low holder of a value (R481). -/
def Dev.z64Lo (d : Dev) (g k : Nat) : Nat := Tab.get (fun _ => 0) d.z64.lo (z64Key g k)

/-- What a high latch reads at reset: bits [19:16] of the native reset value. -/
def z64HiDflt (key : Nat) : Nat := if key % 8 = 5 then 0 else 4

/-- The high latch of a value (R481). -/
def Dev.z64Hi (d : Dev) (g k : Nat) : Nat := Tab.get z64HiDflt d.z64.hi (z64Key g k)

def Dev.setZ64Lo (d : Dev) (g k v : Nat) : Dev := { d with z64 := { d.z64 with lo := Tab.set (fun _ => 0) d.z64.lo (z64Key g k) v } }
def Dev.setZ64Hi (d : Dev) (g k v : Nat) : Dev := { d with z64 := { d.z64 with hi := Tab.set z64HiDflt d.z64.hi (z64Key g k) v } }

/-- The native page that an access of a slot reaches, if it reaches one. -/
def ZReg.native : ZReg → Bool → Option Nat
  | .lo g _, write => if write then none else some (pinBase g)
  | .hi g _, write => if write then some (pinBase g) else none
  | .time g _, _ => some (pinBase g)
  | .ctrl g, _ => some (pinBase g)
  | .period, _ => some clkB
  | _, _ => none

/-- The native registers that an access of a slot with value `v` reaches, one of each page. -/
def ZReg.targets (r : ZReg) (write : Bool) (v : Nat) : List Nat :=
  match r with
  | .strobe => if write then [wfgBase 0 + 0xF04, wfgBase 1 + 0xF04] else []
  | .start => if write then [ctxBase (v % 64) + 0x18] else []
  | r => (r.native write).toList.map (fun b => b + 0x80)

/-- A read of a slot: the state after it and the value. A gated native page ungates, as at an access of its own (R391). -/
def Dev.zregRead (d : Dev) (r : ZReg) : Dev × Nat :=
  let d := match r with | .ctrl g | .time g _ | .lo g _ => d.gateAccess (pinBase g) | .period => d.gateAccess clkB | _ => d
  match r with
  | .id => (d, 0x64)
  | .bank => (d, d.z64.bank)
  | .stat => (d, if d.z64.tsat then 1 else 0)
  | .period => (d, d.get clkB .CLK_VP_PERIOD_PERIOD / 4096 % 16)
  | .lo g k =>
    let v := d.word (pinBase g + z64Off k)
    (d.setZ64Hi g k (v / 2 ^ 16 % 16), v % 2 ^ 16)
  | .hi g k => (d, d.z64Hi g k)
  | .time g j => (d, d.word (pinBase g + 0x400 + 4 * j) % 2 ^ 20 / 4096)
  | .ctrl g =>
    let b := pinBase g
    (d, d.get b .PMU_CTRL_MEAS * 8 + d.get b .PMU_CTRL_MODE % 4 * 2 + d.get b .PG_CTRL_EN)
  | .strobe | .start => (d, 0)

/-- A write of native register bits; a refusal is logged at the window address. -/
def Dev.zNative (d : Dev) (p : HPort) (a na mask v : Nat) : Dev :=
  match areaOf na with
  | .page kind base off => match rowAt kind base off with
    | some (row, _) =>
      let r := (if 0x40 ≤ off then d.gateAccess base else d).regWrite hostFire p false kind base off row mask v
      if r.2 then r.1.logErr true .locked a else r.1
    | none => d
  | _ => d

/-- The strobe of one cluster from Z64_STROBE; a WFG page in a self-test slice discards it. -/
def Dev.zStrobe (d : Dev) (a n : Nat) : Dev :=
  if d.bit (wfgBase n) .PG_STAT_SELFTEST then d.logErr true .selftest a else hostFire (d.gateAccess (wfgBase n)) n

/-- A write of a slot at window address `a` (R481, R484). -/
def Dev.zregWrite (d : Dev) (p : HPort) (a : Nat) (r : ZReg) (v : Nat) : Dev :=
  let v := v % 2 ^ 16
  match r with
  | .id => d
  | .bank => { d with z64 := { d.z64 with bank := v % 4 } }
  | .stat => if bitOf v 0 then { d with z64 := { d.z64 with tsat := false } } else d
  | .strobe => if bitOf v 0 then (d.zStrobe a 0).zStrobe a 1 else d
  | .period =>
    let k := v % 16
    if 1 ≤ k ∧ k ≤ 8 then d.zNative p a (clkB + 0x80) 0xFFFFFFFF (k * 4096) else { d with z64 := { d.z64 with tsat := true } }
  | .start =>
    let c := v % 64
    if d.ctxState c = 7 then d.logErr true .startFaulted a else d.ctxStart c
  | .lo g k => if k = 5 then d else d.setZ64Lo g k v
  | .hi g k => if k = 5 then d else d.zNative p a (pinBase g + z64Off k) 0xFFFFF (v % 16 * 2 ^ 16 + d.z64Lo g k)
  | .time g j =>
    let d := if 255 < v then { d with z64 := { d.z64 with tsat := true } } else d
    d.zNative p a (pinBase g + 0x400 + 4 * j) 0xFFFFF (if 255 < v then 0xFFFFF else v * 4096)
  | .ctrl g =>
    let d := d.zNative p a (pinBase g + 0x200) 0x17 (v / 8 % 2 * 16 + v / 2 % 4)
    d.zNative p a (pinBase g + 8) 1 (v % 2)

/-- The error that a window access meets (R32, R33, R482, R483), in that order: ABSENT, SIZE by alignment, Z64_BLOCKED, SELFTEST of the native
page, UNMAPPED, SIZE. -/
def Dev.zErr (d : Dev) (off : Nat) (wide write : Bool) : Option ErrCause :=
  if !d.present 0 then some .absent
  else if off % 4 ≠ 0 ∨ (wide = true ∧ off % 8 ≠ 0) then some .size
  else if d.txnOpen then some .z64Blocked
  else match zregAt d.z64.bank off with
    | none => some .unmapped
    | some r =>
      if wide then some .size
      else if (r.native write).any (fun b => d.bit b .PG_STAT_SELFTEST) then some .selftest
      else none

end Sys2Proof.Machine
end

