-- ==== Sys2Proof/Machine/Host.lean ====
section
/-! DEFINITION. Host accesses (02_host_registers.md): conformity and access errors (R32 to R34), read coherence (R35 to R39), staging
(R43), held accesses (R471, R497), MSI-X (R42), and the commands that are writes of one register. -/

namespace Sys2Proof.Machine

/-! ### What an access meets -/

/-- An access that meets no error: a register (`hi`: the high word of a 64-bit value), the broadcast aperture, the calibration aperture, a window
slot. -/
inductive Hit where
  | reg (kind : PageKind) (base off : Nat) (row : RegRow) (hi : Bool)
  | bcast (off : Nat)
  | cal (off : Nat)
  | z64 (r : ZReg)
  deriving DecidableEq, Repr

/-- The cluster whose absence answers an address with ABSENT (R3, R381): regions, context sets, DPS pages, calibration tables. -/
def addrCluster (a : Nat) : Option Nat :=
  if 0x800000 ≤ a ∧ a < 0x1000000 then some ((a - 0x800000) / 0x40000)
  else if 0x20000 ≤ a ∧ a < 0x60000 then some ((a - 0x20000) / 0x2000)
  else if 0x100000 ≤ a ∧ a < 0x400000 then some ((a - 0x100000) / calSize)
  else none

/-- The size of an access does not fit the register (R32). -/
def sizeBad (row : RegRow) (hi wide write : Bool) : Bool := if wide then !row.wide || hi else write && row.wide

/-- A register access of a page. -/
def Dev.pageHit (d : Dev) (kind : PageKind) (base off : Nat) (wide write : Bool) : Except ErrCause Hit :=
  if kind.header ∧ d.bit base .PG_STAT_SELFTEST = true then .error .selftest
  else match rowAt kind base off with
    | some (row, hi) => if sizeBad row hi wide write then .error .size else .ok (.reg kind base off row hi)
    | none => if wide ∧ (rowAt kind base (off + 4)).isSome = true then .error .size else .error .unmapped

/-- What an access at a BAR0 address meets (R30, R32, R33). The order among causes: ABSENT, SIZE by alignment, Z64_BLOCKED, UNMAPPED areas,
SELFTEST, reserved offsets, SIZE (notes/assumptions/21.md). -/
def Dev.hitOf (d : Dev) (a : Nat) (wide write : Bool) : Except ErrCause Hit :=
  if (addrCluster a).any (fun n => !d.present n) then .error .absent
  else match areaOf a with
    | .z64 off => match d.zErr off wide write with
      | some c => .error c
      | none => match zregAt d.z64.bank off with
        | some r => .ok (.z64 r)
        | none => .error .unmapped
    | area =>
      if a % 4 ≠ 0 ∨ (wide = true ∧ a % 8 ≠ 0) then .error .size
      else match area with
        | .page kind base off => d.pageHit kind base off wide write
        | .bcast off => if off < 0x1080 then (if wide then .error .size else .ok (.bcast off)) else .error .unmapped
        | .calAp off => .ok (.cal off)
        | _ => .error .unmapped

/-! ### Reads -/

/-- What a read that meets an error returns (R33). -/
def ErrCause.data (c : ErrCause) (wide : Bool) : Nat :=
  match c with
  | .size | .selftest | .gateAbort => if wide then 2 ^ 64 - 1 else 2 ^ 32 - 1
  | _ => 0

/-- The key of a page's PG_SNAP_HI holder of a port (R39). -/
def holderKey (p : HPort) (base : Nat) : Nat := match p with | .pcie => base | .msp => base + 1

/-- A read of the value of a register: what it pops, if it pops (R254, R314, R333), and the value as it stands or its shadow (R38). -/
def Dev.regRead (d : Dev) (kind : PageKind) (base off : Nat) (row : RegRow) : Dev × Nat :=
  if kind = .pin ∧ off = 0x318 then d.tdcPop (pinOf base)
  else if kind = .res ∧ 0x900 ≤ off ∧ off < 0xC00 ∧ (off - 0x900) % 0x60 = 8 then d.mbPop ((off - 0x900) / 0x60)
  else if kind = .ras ∧ off = 0x60 then d.rasFramePop
  else if kind = .ras ∧ off = 0x68 then d.rasRelPop
  else
    let w := fun o => if row.snap ≠ 0 then (Tab.get (fun _ => 0) d.snap (base + o)).toNat else d.live kind base o
    (d, if row.wide then w off + w (off + 4) * 2 ^ 32 else w off)

/-- A read of a register (R36): the low word of a 64-bit value loads the port's holder; the high word is read as it stands. -/
def Dev.readReg (d : Dev) (p : HPort) (kind : PageKind) (base off : Nat) (row : RegRow) (hi wide : Bool) : Dev × Nat :=
  let d := if kind.header ∧ 0x40 ≤ off then d.gateAccess base else d
  if kind.header ∧ off = 0x24 then (d, (Tab.get (fun _ => 0) d.snapHi (holderKey p base)).toNat)
  else if hi then (d, (d.regRead kind base (off - 4) row).2 / 2 ^ 32)
  else
    let r := d.regRead kind base off row
    if row.wide = false ∨ wide = true then r
    else
      let d := if kind.header then { r.1 with snapHi := Tab.set (fun _ => 0) r.1.snapHi (holderKey p base) (BitVec.ofNat 32 (r.2 / 2 ^ 32)) } else r.1
      (d, r.2 % 2 ^ 32)

/-- A read that a port makes: the state after it and the data. -/
def Dev.readAcc (d : Dev) (p : HPort) (a : Nat) (wide : Bool) : Dev × Nat :=
  match d.hitOf a wide false with
  | .error c => (d.logErr false c a, c.data wide)
  | .ok (.reg kind base off row hi) => d.readReg p kind base off row hi wide
  | .ok (.bcast _) => (d, 0)
  | .ok (.cal off) => (d, d.calApRead off (if wide then 8 else 4))
  | .ok (.z64 r) => d.zregRead r

/-! ### Writes -/

/-- The slot that captures writes, if capture is on (R43). -/
def Dev.capSlot (d : Dev) : Option Nat := if d.bit txnB .TXN_CAPTURE_EN then some (d.get txnB .TXN_CAPTURE_SLOT) else none

/-- All bits of an access. -/
def fullMask (wide : Bool) : Nat := if wide then 2 ^ 64 - 1 else 2 ^ 32 - 1

/-- A write of a register: what is staged (R43: never from the MSP, R456), then what applies now. -/
def Dev.writeReg (d : Dev) (p : HPort) (a : Nat) (kind : PageKind) (base off : Nat) (row : RegRow) (wide : Bool) (v : Nat) : Dev :=
  let d := if kind.header ∧ 0x40 ≤ off then d.gateAccess base else d
  let now := fun (d : Dev) (mask : Nat) =>
    let r := d.regWrite hostFire p false kind base off row mask v
    if r.2 then r.1.logErr true .locked a else r.1
  match (if p = .pcie ∧ row.txn ≠ 0 then d.capSlot else none) with
  | some s => now (d.txnStage s a row.txn v) (andNot (fullMask wide) row.txn)
  | none => now d (fullMask wide)

/-- A write that a port makes. -/
def Dev.writeAcc (d : Dev) (p : HPort) (a : Nat) (wide : Bool) (v : Nat) : Dev :=
  match d.hitOf a wide true with
  | .error c => d.logErr true c a
  | .ok (.reg kind base off row _) => d.writeReg p a kind base off row wide v
  | .ok (.bcast off) => match (if p = .pcie then d.capSlot else none) with
    | some s => d.txnStage s a (2 ^ 32 - 1) v
    | none => d.bcastWrite off v false
  | .ok (.cal off) => d.calApWrite off (if wide then wordBytes (v % 2 ^ 32) ++ wordBytes (v / 2 ^ 32) else wordBytes v)
  | .ok (.z64 r) => d.zregWrite p a r v

/-! ### The two ports -/

/-- A register's block is in a soft reset (R497), or its cluster in a cluster reset (R471). -/
def Dev.regHeld (d : Dev) (a : Nat) : Bool :=
  match areaOf a with
  | .page kind base off =>
    (kind.header && decide (0x40 ≤ off) && d.bit base .PG_CTRL_SRST) ||
      (decide (0x800000 ≤ a) && d.bitN glbB .GLB_CL_RST_BUSY_CLUSTER ((a - 0x800000) / 0x40000))
  | _ => false

/-- An access must wait for the end of a reset: a register's, or that of a native register it reaches through the ZH64 window. -/
def Dev.heldNow (d : Dev) (a : Nat) (write : Bool := true) (v : Nat := 0) : Bool :=
  match areaOf a with
  | .z64 off => d.present 0 && !d.txnOpen && ((zregAt d.z64.bank off).elim [] fun r => r.targets write v).any d.regHeld
  | _ => d.regHeld a

/-- Hold an access. -/
def Dev.hold (d : Dev) (h : HAcc) : Dev := { d with hif := { d.hif with held := d.hif.held ++ [h] } }

/-- A request that does not conform (R32): answered as SIZE, or ABSENT, and logged (R33). -/
def Dev.oddAcc (d : Dev) (h : HAcc) (dws : Nat) : Dev :=
  let c := if (addrCluster h.addr).any (fun n => !d.present n) then ErrCause.absent else ErrCause.size
  let d := d.logErr h.write c h.addr
  if h.write then d else d.emit (.read .pcie (if c = .size then 2 ^ (32 * dws) - 1 else 0))

/-- An access through PCI Express. -/
def Dev.pcieAcc (d : Dev) (h : HAcc) : Dev :=
  if d.heldNow h.addr h.write h.val then d.hold h
  else if let some n := h.odd then d.oddAcc h n
  else if h.write then d.writeAcc .pcie h.addr h.wide h.val
  else let r := d.readAcc .pcie h.addr h.wide; r.1.emit (.read .pcie r.2)

/-- The address lies in a page of the management partition (R388). -/
def mspPage (a : Nat) : Bool := match areaOf a with | .page kind _ _ => kind.management | _ => false

/-- The MSP can reach registers: the device serves accesses, or it is in FALLBACK (R395, R450). -/
def Dev.mspReach (d : Dev) : Bool := d.hif.served || d.clkState == 3

/-- A word of an MSP access has met a condition of R33, or a page that FALLBACK holds in reset (R455). -/
def Dev.mspErr (d : Dev) (on : Bool) : Dev :=
  let d := { d with msp := { d.msp with accErr := false } }
  if on then { d.satInc mspB .MSP_ACC_ERR_CNT_COUNT with msp := { d.msp with flags := setBits d.msp.flags 4 1 1 } } else d

/-- One word read through the MSP (R455, R456). An address outside every page reads as R33 lays down, in FALLBACK too. -/
def Dev.mspRead (d : Dev) (a : Nat) : Dev × Nat :=
  if d.clkState = 3 ∧ mspPage a = false then (d.mspErr true, if areaOf a = .hole then 0 else 2 ^ 32 - 1)
  else
    let r := { d with msp := { d.msp with accErr := false } }.readAcc .msp a false
    (r.1.mspErr r.1.msp.accErr, r.2)

/-- One word written through the MSP. -/
def Dev.mspWrite (d : Dev) (a v : Nat) : Dev :=
  if d.clkState = 3 ∧ mspPage a = false then d.mspErr true
  else
    let d := { d with msp := { d.msp with accErr := false } }.writeAcc .msp a false v
    d.mspErr d.msp.accErr

/-- Words read in order through the MSP. -/
def Dev.mspReads (d : Dev) (a : Nat) : Nat → Dev × List Nat
  | 0 => (d, [])
  | n + 1 => let r := d.mspRead a; let x := r.1.mspReads (a + 4) n; (x.1, r.2 :: x.2)

/-- Some word of an MSP access must wait for the end of a reset. -/
def Dev.mspHeld (d : Dev) (a n : Nat) (write : Bool := false) (v : Nat := 0) : Bool := (List.range n).any (fun i => d.heldNow (a + 4 * i) write v)

/-- The data of a READ frame of the MSP is ready (R452): the selections that follow shift out the ready word and the data words. -/
def Dev.mspFrameOut (d : Dev) (a n : Nat) : Dev :=
  let r := d.mspReads a n
  { r.1 with msp := { r.1.msp with rd := (0x5AA50000 + n) :: r.2 } }

/-- A frame ends: an unfinished read is dropped (R453), and what waited for the end takes effect (R458, R497). -/
def Dev.mspEnd (d : Dev) : Dev :=
  let d := { d with msp := { d.msp with cmd := none, rd := [], got := 0, prev := 0, drop := false }, hif := { d.hif with held := d.hif.held.filter (fun h => h.frame.isNone) } }
  let d := match d.msp.master with
    | some v => { d.put mspB .MSP_CFG_MASTER v with msp := { d.msp with master := none, sel := none } }
    | none => d
  if d.msp.srst then ((d.srstBody .msp mspB).setb mspB .PG_CTRL_SRST true).setb mspB .PG_STAT_BUSY true else d

/-- An access of one register through the MSP is a frame of its own, outside a frame that is told word by word: it ends now. -/
def Dev.mspFrameEnd (d : Dev) (p : HPort) : Dev :=
  if p = .msp ∧ d.msp.cmd = none ∧ (d.msp.master.isSome || d.msp.srst) = true then d.mspEnd else d

/-- An access through the MSP: a word written, a word read, or the data of a READ frame; it waits for the end of a reset (R471, R497). -/
def Dev.mspAcc (d : Dev) (h : HAcc) : Dev :=
  if d.mspHeld h.addr (h.frame.getD 1) h.write h.val then d.hold h
  else match h.frame with
    | some n => d.mspFrameOut h.addr n
    | none =>
      if h.write then d.mspWrite h.addr h.val
      else let r := d.mspRead h.addr; r.1.emit (.read .msp r.2)

/-- Held accesses that may complete do, in their order. -/
def Dev.heldFlush (d : Dev) : Dev :=
  let l := d.hif.held
  l.foldl (fun d h => match h.port with | .pcie => d.pcieAcc h | .msp => (d.mspAcc h).mspFrameEnd .msp) { d with hif := { d.hif with held := [] } }

/-- REGISTER_WRITE and every command that is a write of a register. A port that does not answer takes no access. -/
def Dev.hostWrite (d : Dev) (p : HPort) (a : Nat) (wide : Bool) (v : Nat) : Dev :=
  match p with
  | .pcie => if d.pcieOk then d.pcieAcc { port := .pcie, addr := a, wide := wide, write := true, val := v % 2 ^ (if wide then 64 else 32) } else d
  | .msp => if d.mspReach then d.mspAcc { port := .msp, addr := a, wide := false, write := true, val := v % 2 ^ 32 } else d

/-- A write of a 32-bit register. -/
def Dev.hostW (d : Dev) (p : HPort) (a v : Nat) : Dev := d.hostWrite p a false v

/-- REGISTER_READ and every command that is a read of a register; the data goes out on the port. -/
def Dev.hostRead (d : Dev) (p : HPort) (a : Nat) (wide : Bool) : Dev :=
  match p with
  | .pcie => if d.pcieOk then d.pcieAcc { port := .pcie, addr := a, wide := wide, write := false, val := 0 } else d
  | .msp => if d.mspReach then d.mspAcc { port := .msp, addr := a, wide := false, write := false, val := 0 } else d

/-! ### MSI-X (R27, R42) -/

/-- Messages pending on vectors that are no longer masked are sent. -/
def Dev.msixSend (d : Dev) : Dev :=
  if !d.hif.enable || d.hif.fmask then d
  else
    let h := d.hif
    let go := h.pba.filter (fun v => h.vopen.contains v)
    { d with hif := { h with pba := h.pba.filter (fun v => !h.vopen.contains v) }, out := go.foldl (fun o v => Out.msix v :: o) d.out }

/-- MSIX_UNMASK: software changes the MSI-X enable, the function mask or the mask of a vector. -/
def Dev.msixOp (d : Dev) (o : MsixOp) : Dev :=
  match o with
  | .enable on => { d with hif := { d.hif with enable := on } }.msixSend
  | .function m => { d with hif := { d.hif with fmask := m } }.msixSend
  | .vector v m =>
    let l := d.hif.vopen.filter (fun x => x != v.val)
    { d with hif := { d.hif with vopen := if m then l else l ++ [v.val] } }.msixSend

/-! ### BAR4 and the configuration space (R27 to R29, R498) -/

/-- A word of the MSI-X table: message address and data are held, the vector control word is the mask bit. -/
def Dev.msixWord (d : Dev) (i : Nat) : Nat :=
  if i % 4 = 3 then (if d.hif.vopen.contains (i / 4) then 0 else 1) else (Tab.get (fun _ => 0) d.hif.mtab i).toNat

/-- A word of BAR4: the MSI-X table, the pending-bit array at 0x8000. -/
def Dev.bar4Read (d : Dev) (a : Nat) : Nat :=
  if a < 0x1000 then d.msixWord (a / 4)
  else if 0x8000 ≤ a ∧ a < 0x8020 then mapBits 32 (fun i => d.hif.pba.contains ((a - 0x8000) / 4 * 32 + i))
  else Config.bar4Rest a % 2 ^ 32

/-- A write of a word of the MSI-X table. -/
def Dev.bar4Write (d : Dev) (a v : Nat) : Dev :=
  let i := a / 4
  if 0x1000 ≤ a then d
  else if i % 4 = 3 then
    let l := d.hif.vopen.filter (fun x => x != i / 4)
    { d with hif := { d.hif with vopen := if v % 2 = 1 then l else l ++ [i / 4] } }.msixSend
  else { d with hif := { d.hif with mtab := Tab.set (fun _ => 0) d.hif.mtab i (BitVec.ofNat 32 v) } }

/-- The Device ID of an ordering code (R27). -/
def deviceId (code : Nat) : Nat := match code with | 0 => 0x0400 | 1 => 0x0300 | _ => 0x0200

/-- The address bits of a BAR register that software writes, and its type bits (R29): 16 MiB, 64 GiB prefetchable and 64 KiB, each of 64 bits. -/
def barBits (i : Nat) : Nat × Nat :=
  match i with
  | 0 => (0xFF000000, 4) | 1 => (0xFFFFFFFF, 0) | 2 => (0, 12) | 3 => (0xFFFFFFF0, 0) | 4 => (0xFFFF0000, 4) | _ => (0xFFFFFFFF, 0)

/-- A word of the configuration header: identity, command, BARs (R27, R29). -/
def Dev.cfgRead (d : Dev) (a : Nat) : Nat :=
  if a = 0 then deviceId d.fuse.code * 2 ^ 16 + 0x1F4C
  else if a = 4 then 0x10 * 2 ^ 16 + d.hif.cmd
  else if a = 8 then 0x118000 * 2 ^ 8 + d.fuse.step % 16
  else if 0x10 ≤ a ∧ a < 0x28 ∧ a % 4 = 0 then (Tab.get (fun _ => 0) d.hif.bars ((a - 0x10) / 4)).toNat + (barBits ((a - 0x10) / 4)).2
  else Config.cfgWord a % 2 ^ 32

/-- A write of the configuration header. -/
def Dev.cfgWrite (d : Dev) (a v : Nat) : Dev :=
  if a = 4 then { d with hif := { d.hif with cmd := Nat.land v 0x0546 } }
  else if 0x10 ≤ a ∧ a < 0x28 ∧ a % 4 = 0 then
    let i := (a - 0x10) / 4
    { d with hif := { d.hif with bars := Tab.set (fun _ => 0) d.hif.bars i (BitVec.ofNat 32 (Nat.land v (barBits i).1)) } }
  else d

/-- The identifiers of the capabilities of R27, an extended one with 0x1000 added: power management, PCI Express, MSI-X; AER, Device Serial Number,
Secondary PCI Express, Data Link Feature, Physical Layer 16.0 and 32.0 GT/s, Lane Margining. -/
def capIds : List Nat := [0x01, 0x10, 0x11, 0x1001, 0x1003, 0x1019, 0x1025, 0x1026, 0x102A, 0x1027]

/-- The first words of a capability; one that is absent reads 0. -/
def Dev.capRead (d : Dev) (i : Nat) : Nat :=
  if !capIds.contains i then 0
  else if i = 0x01 then (if d.hif.d3 then 3 else 0)
  else if i = 0x11 then 0xFF + (if d.hif.fmask then 2 ^ 14 else 0) + (if d.hif.enable then 2 ^ 15 else 0)
  else if i = 0x1003 then d.fuse.dsn % 2 ^ 64
  else Config.cfgWord (0x10000 + i) % 2 ^ 32

/-- A write of the control word of a capability: the power state (D0 and D3hot), the MSI-X enable and function mask. -/
def Dev.capWrite (d : Dev) (i v : Nat) : Dev :=
  if i = 0x01 then (if v % 4 = 3 then d.d3hot true else if v % 4 = 0 then d.d3hot false else d)
  else if i = 0x11 then { d with hif := { d.hif with fmask := bitOf v 14, enable := bitOf v 15 } }.msixSend
  else d

/-- A request that does not conform (R32), through a port that answers. -/
def Dev.tlpOdd (d : Dev) (a : Nat) (write : Bool) (dws : Nat) : Dev :=
  if d.pcieOk then d.pcieAcc { port := .pcie, addr := a, wide := false, write := write, val := 0, odd := some dws } else d

/-- REGISTER_WRITE: an access of BAR0, or another request of the host. -/
def Dev.tlpWrite (d : Dev) (p : HPort) (a : Nat) (x : Tlp) (v : Nat) : Dev :=
  match x with
  | .bar0 wide => (d.hostWrite p a wide v).mspFrameEnd p
  | .enables wide => d.tlpOdd a true (if wide then 2 else 1)
  | .long n => d.tlpOdd a true n.val
  | .bar4 wide =>
    if !d.pcieOk then d else if wide then (d.bar4Write a (v % 2 ^ 32)).bar4Write (a + 4) (v / 2 ^ 32) else d.bar4Write a (v % 2 ^ 32)
  | .cfg => if d.bit hifB .HIF_LINK_UP then d.cfgWrite a (v % 2 ^ 32) else d
  | .cap => if d.bit hifB .HIF_LINK_UP then d.capWrite a v else d

/-- REGISTER_READ: an access of BAR0, or another request of the host; the data goes out on the port. -/
def Dev.tlpRead (d : Dev) (p : HPort) (a : Nat) (x : Tlp) : Dev :=
  match x with
  | .bar0 wide => d.hostRead p a wide
  | .enables wide => d.tlpOdd a false (if wide then 2 else 1)
  | .long n => d.tlpOdd a false n.val
  | .bar4 wide => if d.pcieOk then d.emit (.read .pcie (if wide then d.bar4Read a + d.bar4Read (a + 4) * 2 ^ 32 else d.bar4Read a)) else d
  | .cfg => if d.bit hifB .HIF_LINK_UP then d.emit (.read .pcie (d.cfgRead a)) else d
  | .cap => if d.bit hifB .HIF_LINK_UP then d.emit (.read .pcie (d.capRead a)) else d

/-! ### Page headers -/

/-- The base of the page that an address lies in. -/
def pageOf (a : Nat) : Nat := a / 0x1000 * 0x1000

/-- EN and GATE_REQ of a page, as a write that keeps them presents them. -/
def Dev.ctrlKeep (d : Dev) (base : Nat) : Nat := d.get base .PG_CTRL_EN + d.get base .PG_CTRL_GATE_REQ * 4

/-- SOFT_RESET: a write of SRST that keeps EN and GATE_REQ (R497). -/
def Dev.softReset (d : Dev) (p : HPort) (base : Nat) : Dev := (d.hostW p (base + 8) (d.ctrlKeep base + 2)).mspFrameEnd p

/-- SOFT_RESET_DONE (R497): a soft reset in progress completes, and held accesses with it. -/
def Dev.softResetDone (d : Dev) (base : Nat) : Dev :=
  if d.bit base .PG_CTRL_SRST ∧ (base = mspB → d.msp.srst = false) then
    ((d.setb base .PG_CTRL_SRST false).setb base .PG_STAT_BUSY false).heldFlush
  else d

/-- GATE_REQUEST: a write of GATE_REQ = 1 that keeps EN (R390). -/
def Dev.gateRequest (d : Dev) (p : HPort) (base : Nat) : Dev := d.hostW p (base + 8) (d.get base .PG_CTRL_EN + 4)

/-- GATE_RELEASE: a write of GATE_REQ = 0 that keeps EN (R390). -/
def Dev.gateRelease (d : Dev) (p : HPort) (base : Nat) : Dev := d.hostW p (base + 8) (d.get base .PG_CTRL_EN)

/-- GATE_RETRY (R390, R443): a deferred gate tries the handshake again, but not in a self-test slice. -/
def Dev.gateRetry (d : Dev) (base : Nat) (idle : Bool) : Dev :=
  if d.bit base .PG_STAT_GATE_DEFER ∧ d.bit base .PG_CTRL_GATE_REQ ∧ ¬ d.bit base .PG_STAT_SELFTEST then d.gateTry base idle else d

/-- A write of EN on a page that keeps GATE_REQ. -/
def Dev.enOnly (d : Dev) (p : HPort) (base : Nat) (en : Bool) : Dev :=
  d.hostW p (base + 8) ((if en then 1 else 0) + d.get base .PG_CTRL_GATE_REQ * 4)

/-! ### Clock multiplexers and patch locks -/

/-- MUX_RESET: a write of CLK_MUX_CTRL.RST that keeps SEL (R389). -/
def Dev.muxReset (d : Dev) (p : HPort) (x : Nat) (on : Bool) : Dev :=
  d.hostW p (clkB + 0x100 + 0x10 * x) ((if on then 2 ^ 16 else 0) + d.get (muxBase x) .CLK_MUX_CTRL_SEL)

/-- MUX_FORCE: a write of FORCE with a SEL that keeps RST (R389). -/
def Dev.muxForce (d : Dev) (p : HPort) (x sel : Nat) : Dev :=
  d.hostW p (clkB + 0x100 + 0x10 * x) (2 ^ 31 + d.get (muxBase x) .CLK_MUX_CTRL_RST * 2 ^ 16 + sel)

/-- PATCH_LOCK_REQ: a write of LOCK = 1 that keeps BCAST_EN (R150). -/
def Dev.patchLockReq (d : Dev) (p : HPort) (n : Nat) : Dev :=
  d.hostW p (ucsBase n + 0x40) (d.get (ucsBase n) .UCS_PATCH_CTRL_BCAST_EN * 2 + 1)

/-- PATCH_LOCK_RELEASE: a write of LOCK = 0 that keeps BCAST_EN (R150). -/
def Dev.patchLockRelease (d : Dev) (p : HPort) (n : Nat) : Dev :=
  d.hostW p (ucsBase n + 0x40) (d.get (ucsBase n) .UCS_PATCH_CTRL_BCAST_EN * 2)

/-! ### Cluster resets -/

/-- CLUSTER_RESET_DONE (R471): the reset of a cluster ends after 20 µs, and held accesses complete. -/
def Dev.clusterResetDone (d : Dev) (n : Nat) : Dev :=
  if d.bitN glbB .GLB_CL_RST_BUSY_CLUSTER n ∧ (d.clu n).rstWait = false then
    (d.setBitN glbB .GLB_CL_RST_BUSY_CLUSTER n false).heldFlush
  else d

end Sys2Proof.Machine
end

