-- ==== Sys2Proof/Machine/ExecHost.lean ====
section
/-! DEFINITION. The meanings of the commands whose work is in Machine/Host.lean: one definition for each command. -/

namespace Sys2Proof.Machine

/-- REGISTER_WRITE (R8). -/
def execRegisterWrite (p : HPort) (a : BitVec 24) (x : Tlp) (v : BitVec 64) (st : State) : Host.Outcome State Fault Refusal :=
  upd st (fun _ d => d.tlpWrite p a.toNat x v.toNat)

/-- LOW_WORD_READ (R36). -/
def execLowWordRead (p : HPort) (a : BitVec 24) (st : State) : Host.Outcome State Fault Refusal :=
  upd st (fun _ d => d.hostRead p a.toNat false)

/-- PG_SNAP (R38). -/
def execPgSnap (p : HPort) (a : BitVec 24) (v : Word) (st : State) : Host.Outcome State Fault Refusal :=
  upd st (fun _ d => d.hostW p (pageOf a.toNat + 0x20) v.toNat)

/-- PG_IRQ_SET (R31). -/
def execPgIrqSet (p : HPort) (a : BitVec 24) (v : Word) (st : State) : Host.Outcome State Fault Refusal :=
  upd st (fun _ d => d.hostW p (pageOf a.toNat + 0x18) v.toNat)

/-- PG_IRQ_EN_WRITE (R42). -/
def execPgIrqEnWrite (p : HPort) (a : BitVec 24) (v : Word) (st : State) : Host.Outcome State Fault Refusal :=
  upd st (fun _ d => d.hostW p (pageOf a.toNat + 0x14) v.toNat)

/-- MSIX_UNMASK (R42). -/
def execMsixUnmask (o : MsixOp) (st : State) : Host.Outcome State Fault Refusal :=
  upd st (fun _ d => d.msixOp o)

/-- SOFT_RESET (R497). -/
def execSoftReset (p : HPort) (a : BitVec 24) (st : State) : Host.Outcome State Fault Refusal :=
  upd st (fun _ d => d.softReset p (pageOf a.toNat))

/-- SOFT_RESET_DONE (R497). -/
def execSoftResetDone (a : BitVec 24) (st : State) : Host.Outcome State Fault Refusal :=
  upd st (fun _ d => d.softResetDone (pageOf a.toNat))

/-- GATE_REQUEST (R390). -/
def execGateRequest (p : HPort) (a : BitVec 24) (st : State) : Host.Outcome State Fault Refusal :=
  upd st (fun _ d => d.gateRequest p (pageOf a.toNat))

/-- GATE_RETRY (R390). -/
def execGateRetry (a : BitVec 24) (idle : Bool) (st : State) : Host.Outcome State Fault Refusal :=
  upd st (fun _ d => d.gateRetry (pageOf a.toNat) idle)

/-- GATE_RELEASE (R390). -/
def execGateRelease (p : HPort) (a : BitVec 24) (st : State) : Host.Outcome State Fault Refusal :=
  upd st (fun _ d => d.gateRelease p (pageOf a.toNat))

/-- TXN_BEGIN (R47). -/
def execTxnBegin (p : HPort) (s : Fin 8) (v : Word) (st : State) : Host.Outcome State Fault Refusal :=
  upd st (fun _ d => d.hostW p (txnSlot s.val) v.toNat)

/-- TXN_CAPTURE_WRITE (R43). -/
def execTxnCaptureWrite (p : HPort) (v : Word) (st : State) : Host.Outcome State Fault Refusal :=
  upd st (fun _ d => d.hostW p (txnB + 0x40) v.toNat)

/-- TXN_STAGE_WRITE (R43). -/
def execTxnStageWrite (a : BitVec 24) (wide : Bool) (v : BitVec 64) (st : State) : Host.Outcome State Fault Refusal :=
  upd st (fun _ d => d.hostWrite .pcie a.toNat wide v.toNat)

/-- TXN_COMMIT (R499). -/
def execTxnCommit (p : HPort) (s : Fin 8) (v : Word) (st : State) : Host.Outcome State Fault Refusal :=
  upd st (fun _ d => d.hostW p (txnSlot s.val + 4) v.toNat)

/-- TXN_ROLLBACK (R47). -/
def execTxnRollback (p : HPort) (s : Fin 8) (st : State) : Host.Outcome State Fault Refusal :=
  upd st (fun _ d => d.hostW p (txnSlot s.val + 8) 1)

/-- TXN_PREPARE_DONE (R47). -/
def execTxnPrepareDone (s : Fin 8) (st : State) : Host.Outcome State Fault Refusal :=
  upd st (fun _ d => d.txnPrepareDone s.val)

/-- TXN_LATE_APPLY (R50). -/
def execTxnLateApply (s : Fin 8) (st : State) : Host.Outcome State Fault Refusal :=
  upd st (fun _ d => d.txnLateApply s.val)

/-- CTX_LOAD (R100). -/
def execCtxLoad (p : HPort) (c : Fin 1024) (st : State) : Host.Outcome State Fault Refusal :=
  upd st (fun _ d => d.hostW p (ctxBase c.val + 0x10) 1)

/-- CTX_ARM (R102). -/
def execCtxArm (p : HPort) (c : Fin 1024) (st : State) : Host.Outcome State Fault Refusal :=
  upd st (fun _ d => d.hostW p (ctxBase c.val + 0x14) 1)

/-- CTX_START (R104). -/
def execCtxStart (p : HPort) (c : Fin 1024) (st : State) : Host.Outcome State Fault Refusal :=
  upd st (fun _ d => d.hostW p (ctxBase c.val + 0x18) 1)

/-- CTX_STOP (R122). -/
def execCtxStop (p : HPort) (c : Fin 1024) (st : State) : Host.Outcome State Fault Refusal :=
  upd st (fun _ d => d.hostW p (ctxBase c.val + 0x1c) 1)

/-- CTX_REDIRECT (R122). -/
def execCtxRedirect (p : HPort) (c : Fin 1024) (v : Word) (st : State) : Host.Outcome State Fault Refusal :=
  upd st (fun _ d => d.hostW p (ctxBase c.val + 0x20) v.toNat)

/-- CTX_CLEAR_GO (R104). -/
def execCtxClearGo (p : HPort) (c : Fin 1024) (st : State) : Host.Outcome State Fault Refusal :=
  upd st (fun _ d => d.hostW p (ctxBase c.val + 0x24) 1)

/-- CTX_CLEAR_UNLOAD (R104). -/
def execCtxClearUnload (p : HPort) (c : Fin 1024) (st : State) : Host.Outcome State Fault Refusal :=
  upd st (fun _ d => d.hostW p (ctxBase c.val + 0x24) 2)

/-- PATCH_LOCK_REQ (R150). -/
def execPatchLockReq (p : HPort) (n : Fin 32) (st : State) : Host.Outcome State Fault Refusal :=
  upd st (fun _ d => d.patchLockReq p n.val)

/-- PATCH_LOCK_RELEASE (R150). -/
def execPatchLockRelease (p : HPort) (n : Fin 32) (st : State) : Host.Outcome State Fault Refusal :=
  upd st (fun _ d => d.patchLockRelease p n.val)

/-- UCS_BCAST_WRITE (R156). -/
def execUcsBcastWrite (p : HPort) (a : BitVec 17) (v : Word) (st : State) : Host.Outcome State Fault Refusal :=
  upd st (fun _ d => d.hostW p (0x60000 + a.toNat) v.toNat)

/-- PAT_QUOTA_WRITE (R166). -/
def execPatQuotaWrite (p : HPort) (c : Fin 1024) (v : Word) (st : State) : Host.Outcome State Fault Refusal :=
  upd st (fun _ d => d.hostW p (patcBase (c.val / 32) + 0x100 + c.val % 32 * 4) v.toNat)

/-- STREAM_ENABLE (R173). -/
def execStreamEnable (p : HPort) (q : Fin 16) (v : Word) (st : State) : Host.Outcome State Fault Refusal :=
  upd st (fun _ d => d.hostW p (patB + 0x100 + q.val * 0x40) (v.toNat % 2 ^ 31 + 2 ^ 31))

/-- STREAM_DISABLE (R177). -/
def execStreamDisable (p : HPort) (q : Fin 16) (v : Word) (st : State) : Host.Outcome State Fault Refusal :=
  upd st (fun _ d => d.hostW p (patB + 0x100 + q.val * 0x40) (v.toNat % 2 ^ 31))

/-- STREAM_PROD_WRITE (R176). -/
def execStreamProdWrite (p : HPort) (q : Fin 16) (v : Word) (st : State) : Host.Outcome State Fault Refusal :=
  upd st (fun _ d => d.hostW p (patB + 0x114 + q.val * 0x40) v.toNat)

/-- WFG_STB_FIRE (R188). -/
def execWfgStbFire (p : HPort) (n : Fin 32) (st : State) : Host.Outcome State Fault Refusal :=
  upd st (fun _ d => d.hostW p (wfgBase n.val + 0xF04) 1)

/-- CHANNEL_ENABLE (R89). -/
def execChannelEnable (p : HPort) (g : Fin 1024) (st : State) : Host.Outcome State Fault Refusal :=
  upd st (fun _ d => d.enOnly p (pinBase g.val) true)

/-- CHANNEL_DISABLE (R90). -/
def execChannelDisable (p : HPort) (g : Fin 1024) (st : State) : Host.Outcome State Fault Refusal :=
  upd st (fun _ d => d.enOnly p (pinBase g.val) false)

/-- PMU_ADC_GO (R208). -/
def execPmuAdcGo (p : HPort) (g : Fin 1024) (st : State) : Host.Outcome State Fault Refusal :=
  upd st (fun _ d => d.hostW p (pinBase g.val + 0x230) 1)

/-- DPS_MEAS_GO (R224). -/
def execDpsMeasGo (p : HPort) (k : Fin 64) (st : State) : Host.Outcome State Fault Refusal :=
  upd st (fun _ d => d.hostW p (dpsBase k.val + 0x80) 1)

/-- DPS_GANG_WRITE (R229). -/
def execDpsGangWrite (p : HPort) (k : Fin 64) (v : Word) (st : State) : Host.Outcome State Fault Refusal :=
  upd st (fun _ d => d.hostW p (dpsBase k.val + 0x60) v.toNat)

/-- DPS_DISABLE (R231). -/
def execDpsDisable (p : HPort) (k : Fin 64) (st : State) : Host.Outcome State Fault Refusal :=
  upd st (fun _ d => d.enOnly p (dpsBase k.val) false)

/-- TDC_GO (R240). -/
def execTdcGo (p : HPort) (g : Fin 1024) (st : State) : Host.Outcome State Fault Refusal :=
  upd st (fun _ d => d.hostW p (pinBase g.val + 0x314) 1)

/-- TDC_POP (R254). -/
def execTdcPop (p : HPort) (g : Fin 1024) (st : State) : Host.Outcome State Fault Refusal :=
  upd st (fun _ d => d.hostRead p (pinBase g.val + 0x318) false)

/-- WFG_START (R263). -/
def execWfgStart (p : HPort) (n : Fin 32) (x : Fin 4) (st : State) : Host.Outcome State Fault Refusal :=
  upd st (fun _ d => d.hostW p (wfgBase n.val + 0x104 + x.val * 0x40) 1)

/-- WFG_STOP (R263). -/
def execWfgStop (p : HPort) (n : Fin 32) (x : Fin 4) (st : State) : Host.Outcome State Fault Refusal :=
  upd st (fun _ d => d.hostW p (wfgBase n.val + 0x108 + x.val * 0x40) 1)

/-- WFG_JUMP (R263). -/
def execWfgJump (p : HPort) (n : Fin 32) (x : Fin 4) (t : BitVec 4) (st : State) : Host.Outcome State Fault Refusal :=
  upd st (fun _ d => d.hostW p (wfgBase n.val + 0x10C + x.val * 0x40) (2 ^ 31 + t.toNat))

/-- RES_RING_CONS_WRITE (R311). -/
def execResRingConsWrite (p : HPort) (k : Fin 64) (v : Word) (st : State) : Host.Outcome State Fault Refusal :=
  upd st (fun _ d => d.hostW p (ringBase k.val + 0x10C) v.toNat)

/-- RING_ENABLE (R311). -/
def execRingEnable (p : HPort) (k : Fin 64) (v : Word) (st : State) : Host.Outcome State Fault Refusal :=
  upd st (fun _ d => d.hostW p (ringBase k.val + 0x108) v.toNat)

/-- RES_MB_POP (R314). -/
def execResMbPop (p : HPort) (b : Fin 8) (wide : Bool) (st : State) : Host.Outcome State Fault Refusal :=
  upd st (fun _ d => d.hostRead p (mbBase b.val + 0x908) wide)

/-- RES_MB_PEEK (R315). -/
def execResMbPeek (p : HPort) (b : Fin 8) (wide : Bool) (st : State) : Host.Outcome State Fault Refusal :=
  upd st (fun _ d => d.hostRead p (mbBase b.val + 0x910) wide)

/-- RES_MB_CFG_WRITE (R310). -/
def execResMbCfgWrite (p : HPort) (b : Fin 8) (v : Word) (st : State) : Host.Outcome State Fault Refusal :=
  upd st (fun _ d => d.hostW p (mbBase b.val + 0x900) v.toNat)

/-- RES_ROUTE_WRITE (R310). -/
def execResRouteWrite (p : HPort) (j : Fin 256) (v : Word) (st : State) : Host.Outcome State Fault Refusal :=
  upd st (fun _ d => d.hostW p (resB + 0xC00 + 4 * j.val) v.toNat)

/-- RAS_ENABLE (R322). -/
def execRasEnable (p : HPort) (v : Word) (st : State) : Host.Outcome State Fault Refusal :=
  upd st (fun _ d => d.hostW p (rasB + 0x40) (v.toNat % 2 ^ 31 + 2 ^ 31))

/-- RAS_DISABLE (R336). -/
def execRasDisable (p : HPort) (v : Word) (st : State) : Host.Outcome State Fault Refusal :=
  upd st (fun _ d => d.hostW p (rasB + 0x40) (v.toNat % 2 ^ 31))

/-- RAS_MODE_APPLY (R326). -/
def execRasModeApply (p : HPort) (st : State) : Host.Outcome State Fault Refusal :=
  upd st (fun _ d => d.hostW p (rasB + 0x58) 1)

/-- RAS_FLIP (R330). -/
def execRasFlip (p : HPort) (v : Word) (st : State) : Host.Outcome State Fault Refusal :=
  upd st (fun _ d => d.hostW p (rasB + 0x5C) v.toNat)

/-- RAS_FRAME_POP (R333). -/
def execRasFramePop (p : HPort) (wide : Bool) (st : State) : Host.Outcome State Fault Refusal :=
  upd st (fun _ d => d.hostRead p (rasB + 0x60) wide)

/-- RAS_REL_POP (R333). -/
def execRasRelPop (p : HPort) (wide : Bool) (st : State) : Host.Outcome State Fault Refusal :=
  upd st (fun _ d => d.hostRead p (rasB + 0x68) wide)

/-- MSL_ENABLE (R339). -/
def execMslEnable (p : HPort) (v : Word) (st : State) : Host.Outcome State Fault Refusal :=
  upd st (fun _ d => d.hostW p (mslB + 0x40) (v.toNat % 2 ^ 31 + 2 ^ 31))

/-- UNFENCE (R344). -/
def execUnfence (p : HPort) (q : Fin 4) (st : State) : Host.Outcome State Fault Refusal :=
  upd st (fun _ d => d.hostW p (mslPort q.val) (2 + 2 ^ 31))

/-- PORT_RETRAIN (R363). -/
def execPortRetrain (p : HPort) (q : Fin 4) (st : State) : Host.Outcome State Fault Refusal :=
  upd st (fun _ d => d.hostW p (mslPort q.val) (1 + 2 ^ 31))

/-- MSL_TICK_REQ (R353). -/
def execMslTickReq (p : HPort) (st : State) : Host.Outcome State Fault Refusal :=
  upd st (fun _ d => d.hostW p (mslB + 0x60) 1)

/-- MSL_TRIG_RAISE (R356). -/
def execMslTrigRaise (p : HPort) (v : Word) (st : State) : Host.Outcome State Fault Refusal :=
  upd st (fun _ d => d.hostW p (mslB + 0xA0) v.toNat)

/-- MSL_TD_REQ (R358). -/
def execMslTdReq (p : HPort) (st : State) : Host.Outcome State Fault Refusal :=
  upd st (fun _ d => d.hostW p (mslB + 0x68) 1)

/-- MSL_BAR_ARRIVE (R359). -/
def execMslBarArrive (p : HPort) (v : Word) (st : State) : Host.Outcome State Fault Refusal :=
  upd st (fun _ d => d.hostW p (mslB + 0xC4) v.toNat)

/-- CAL_GAP_OPEN (R372). -/
def execCalGapOpen (p : HPort) (st : State) : Host.Outcome State Fault Refusal :=
  upd st (fun _ d => d.hostW p (calB + 0x44) 1)

/-- CAL_GAP_CLOSE (R372). -/
def execCalGapClose (p : HPort) (st : State) : Host.Outcome State Fault Refusal :=
  upd st (fun _ d => d.hostW p (calB + 0x44) 0)

/-- CAL_CL_REQ (R371). -/
def execCalClReq (p : HPort) (n : Fin 32) (v : Word) (st : State) : Host.Outcome State Fault Refusal :=
  upd st (fun _ d => d.hostW p (calcBase n.val + 0x44) v.toNat)

/-- CAL_APERTURE_WRITE (R381). -/
def execCalApertureWrite (p : HPort) (a : BitVec 24) (wide : Bool) (v : BitVec 64) (st : State) : Host.Outcome State Fault Refusal :=
  upd st (fun _ d => d.hostWrite p a.toNat wide v.toNat)

/-- CLK_VP_PERIOD_WRITE (R387). -/
def execClkVpPeriodWrite (p : HPort) (r : Fin 8) (v : Word) (st : State) : Host.Outcome State Fault Refusal :=
  upd st (fun _ d => d.hostW p (clkB + 0x80 + 8 * r.val) v.toNat)

/-- MUX_SELECT (R388). -/
def execMuxSelect (p : HPort) (x : Fin 4) (sel : BitVec 4) (st : State) : Host.Outcome State Fault Refusal :=
  upd st (fun _ d => d.hostW p (clkB + 0x100 + 0x10 * x.val) (d.word (clkB + 0x100 + 0x10 * x.val) / 16 % 2 ^ 27 * 16 + sel.toNat))

/-- MUX_RESET (R389). -/
def execMuxReset (p : HPort) (x : Fin 4) (on : Bool) (st : State) : Host.Outcome State Fault Refusal :=
  upd st (fun _ d => d.muxReset p x.val on)

/-- MUX_FORCE (R389). -/
def execMuxForce (p : HPort) (x : Fin 4) (sel : BitVec 4) (st : State) : Host.Outcome State Fault Refusal :=
  upd st (fun _ d => d.muxForce p x.val sel.toNat)

/-- PWR_CL_WAKE (R403). -/
def execPwrClWake (p : HPort) (n : Fin 32) (st : State) : Host.Outcome State Fault Refusal :=
  upd st (fun _ d => d.hostW p (pwrB + 0x10C + 0x10 * n.val) 1)

/-- PWR_CL_TOL_WRITE (R401). -/
def execPwrClTolWrite (p : HPort) (n : Fin 32) (v : Word) (st : State) : Host.Outcome State Fault Refusal :=
  upd st (fun _ d => d.hostW p (pwrB + 0x100 + 0x10 * n.val) v.toNat)

/-- PWR_HIB (R409). -/
def execPwrHib (p : HPort) (v : BitVec 8) (st : State) : Host.Outcome State Fault Refusal :=
  upd st (fun _ d => d.hostW p (pwrB + 0x6C) (v.toNat * 256))

/-- DVFS_TARGET_WRITE (R410). -/
def execDvfsTargetWrite (p : HPort) (v : BitVec 3) (st : State) : Host.Outcome State Fault Refusal :=
  upd st (fun _ d => d.hostW p (pwrB + 0x5C) v.toNat)

/-- THM_MAX_WRITE (R418). -/
def execThmMaxWrite (p : HPort) (t : Fin 48) (v : Word) (st : State) : Host.Outcome State Fault Refusal :=
  upd st (fun _ d => d.hostW p (thmB + 0x200 + 4 * t.val) v.toNat)

/-- FLT_SAFE_REL (R427). -/
def execFltSafeRel (p : HPort) (v : Word) (st : State) : Host.Outcome State Fault Refusal :=
  upd st (fun _ d => d.hostW p (fltB + 0x74) v.toNat)

/-- FAULT_INJECT (R435). -/
def execFaultInject (p : HPort) (v : Word) (st : State) : Host.Outcome State Fault Refusal :=
  upd st (fun _ d => d.hostW p (fltB + 0x84) v.toNat)

/-- BST_REQ (R442). -/
def execBstReq (p : HPort) (v : BitVec 8) (st : State) : Host.Outcome State Fault Refusal :=
  upd st (fun _ d => d.hostW p (bstB + 0x44) v.toNat)

/-- BST_FUSE_CTRL (R447). -/
def execBstFuseCtrl (p : HPort) (v : Word) (st : State) : Host.Outcome State Fault Refusal :=
  upd st (fun _ d => d.hostW p (bstB + 0x50) v.toNat)

/-- MSP_CFG_WRITE (R458). -/
def execMspCfgWrite (p : HPort) (v : Word) (st : State) : Host.Outcome State Fault Refusal :=
  upd st (fun _ d => (d.hostW p (mspB + 0x40) v.toNat).mspFrameEnd p)

/-- MSP_MASTER_GO (R457). -/
def execMspMasterGo (p : HPort) (v : Word) (st : State) : Host.Outcome State Fault Refusal :=
  upd st (fun _ d => d.hostW p (mspB + 0x60) (v.toNat % 2 ^ 31 + 2 ^ 31))

/-- PMC_SMP_CLR (R466). -/
def execPmcSmpClr (p : HPort) (n : Fin 32) (st : State) : Host.Outcome State Fault Refusal :=
  upd st (fun _ d => d.hostW p (pmccBase n.val + 0x7C) 1)

/-- PMC_DUMP_CONS_WRITE (R463). -/
def execPmcDumpConsWrite (p : HPort) (v : Word) (st : State) : Host.Outcome State Fault Refusal :=
  upd st (fun _ d => d.hostW p (pmcB + 0x5C) v.toNat)

/-- GLB_RST_CTRL (R469). -/
def execGlbRstCtrl (p : HPort) (v : Word) (st : State) : Host.Outcome State Fault Refusal :=
  upd st (fun _ d => d.hostW p (glbB + 0x48) v.toNat)

/-- GLB_CL_RST (R471). -/
def execGlbClRst (p : HPort) (v : Word) (st : State) : Host.Outcome State Fault Refusal :=
  upd st (fun _ d => d.hostW p (glbB + 0x50) v.toNat)

/-- CLUSTER_RESET_DONE (R471). -/
def execClusterResetDone (n : Fin 32) (st : State) : Host.Outcome State Fault Refusal :=
  upd st (fun _ d => d.clusterResetDone n.val)

/-- CHAL_REQ (R477). -/
def execLcsChalReq (p : HPort) (st : State) : Host.Outcome State Fault Refusal :=
  upd st (fun _ d => d.hostW p (lcsB + 0x44) (0x96000000 + 1))

/-- CHECK (R477). -/
def execLcsCheck (p : HPort) (st : State) : Host.Outcome State Fault Refusal :=
  upd st (fun _ d => d.hostW p (lcsB + 0x44) (0x96000000 + 2))

/-- LCS_EXIT (R477). -/
def execLcsExit (p : HPort) (st : State) : Host.Outcome State Fault Refusal :=
  upd st (fun _ d => d.hostW p (lcsB + 0x44) (0x96000000 + 3))

/-- ADVANCE (R476). -/
def execAdvance (p : HPort) (t : BitVec 4) (st : State) : Host.Outcome State Fault Refusal :=
  upd st (fun _ d => d.hostW p (lcsB + 0x44) (0x96000004 + t.toNat * 256))

/-- Z64_LO_WRITE (R481). -/
def execZ64LoWrite (p : HPort) (off : BitVec 16) (v : Word) (st : State) : Host.Outcome State Fault Refusal :=
  upd st (fun _ d => d.hostW p (z64B + off.toNat) v.toNat)

/-- Z64_HI_WRITE (R481). -/
def execZ64HiWrite (p : HPort) (off : BitVec 16) (v : Word) (st : State) : Host.Outcome State Fault Refusal :=
  upd st (fun _ d => d.hostW p (z64B + off.toNat) v.toNat)

/-- Z64_LO_READ (R481). -/
def execZ64LoRead (p : HPort) (off : BitVec 16) (st : State) : Host.Outcome State Fault Refusal :=
  upd st (fun _ d => d.hostRead p (z64B + off.toNat) false)

/-- Z64_HI_READ (R481). -/
def execZ64HiRead (p : HPort) (off : BitVec 16) (st : State) : Host.Outcome State Fault Refusal :=
  upd st (fun _ d => d.hostRead p (z64B + off.toNat) false)

/-- Z64_TIME_WRITE (R484). -/
def execZ64TimeWrite (p : HPort) (off : BitVec 16) (v : Word) (st : State) : Host.Outcome State Fault Refusal :=
  upd st (fun _ d => d.hostW p (z64B + off.toNat) v.toNat)

/-- Z64_STROBE (R480). -/
def execZ64Strobe (p : HPort) (v : Word) (st : State) : Host.Outcome State Fault Refusal :=
  upd st (fun _ d => d.hostW p 0x1000C v.toNat)

/-- Z64_PERIOD (R484). -/
def execZ64Period (p : HPort) (v : Word) (st : State) : Host.Outcome State Fault Refusal :=
  upd st (fun _ d => d.hostW p 0x10010 v.toNat)

/-- Z64_START (R480). -/
def execZ64Start (p : HPort) (v : Word) (st : State) : Host.Outcome State Fault Refusal :=
  upd st (fun _ d => d.hostW p 0x10014 v.toNat)

/-- Z64_CTRL_WRITE (R480). -/
def execZ64CtrlWrite (p : HPort) (ch : Fin 16) (v : Word) (st : State) : Host.Outcome State Fault Refusal :=
  upd st (fun _ d => d.hostW p (0x1103C + 0x100 * ch.val) v.toNat)

/-- REGISTER_READ (R33). -/
def execRegisterRead (p : HPort) (a : BitVec 24) (x : Tlp) (st : State) : Host.Outcome State Fault Refusal :=
  upd st (fun _ d => d.tlpRead p a.toNat x)

end Sys2Proof.Machine
end

