-- ==== Sys2Proof/Machine/ExecLcs.lean ====
section
/-! DEFINITION. The meanings of the commands whose work is in Machine/Lcs.lean: one definition for each command. -/

namespace Sys2Proof.Machine

/-- ADVANCE_DONE (R476). -/
def execAdvanceDone (st : State) : Host.Outcome State Fault Refusal :=
  upd st (fun _ d => d.advanceDone)

end Sys2Proof.Machine
end

