-- ==== Sys2Proof/Machine/Routines.lean ====
section
/-! DEFINITION. The event routines of the microengine as the ROM runs them (R134, R146, R147): each row runs the routine that the engine
has chosen from its first word to its end. -/

namespace Sys2Proof.Machine

/-! ### The frame of a routine -/

/-- A routine ends, unless a fault has abandoned it: its words retire, how many is stated nowhere and is free (R142, R460). -/
def Dev.rtnDone (d : Dev) (n : Nat) : Dev :=
  if (d.running n).isNone then d
  else
    let k := d.takeFree 65536
    let d := k.1.setClu n { k.1.clu n with wordsP := (k.1.clu n).wordsP + k.2 }
    (d.pmcRetire n).endRun n

/-- The routine of a slot runs on the engine of cluster `n`, if it is the one that the engine runs or chooses next and no patch replaces it (R148). A patch
inside a routine's body is a matter of the micro-op rows (DESIGN CHOICE: notes/assumptions/92.md). A ROM routine runs without a tail (notes/assumptions/93.md). -/
def Dev.asRoutine (d : Dev) (n slot : Nat) (f : Dev → Rtn → Dev) : Dev :=
  let d := d.engine n
  match d.running n with
  | some r => if d.engUp n ∧ r.rtn.slot = slot ∧ r.tail.isNone = true ∧ d.romOwn n slot = true then (f d r.rtn).rtnDone n else d
  | none => d

/-- An engine fault of a routine of the ROM; its micro-address is stated nowhere and is free. -/
def Dev.romFault (d : Dev) (n c bit : Nat) : Dev :=
  let u := d.takeFree 32768
  u.1.seqFault n c bit (0xF0 + bit) u.2 false

/-- The whole chain walk of a routine. A walk closes at most eight leaves, and a path has at most 33 ops. -/
def Dev.walkAll (d : Dev) (m : Tab Byte) (h : Hdr) (r : Rtn) : URun := (d.walkBegin h (d.newRun (r.ctx / 32) r)).walk (d.opView (r.ctx / 32) m) h d 4096

/-! ### LOAD (R97, R100, R104) -/

/-- The header fields of an image. -/
def readHdr (m : Tab Byte) (a : Nat) : Hdr :=
  { base := a, slots := storeByte m (a + 6), mux := storeByte m (a + 7), tv := storeLE m (a + 8) 4, entry := storeLE m (a + 0xC) 4, opsOff := storeLE m (a + 0x10) 8, opsCount := storeLE m (a + 0x18) 4, granBytes := storeLE m (a + 0x1C) 4, symOff := storeLE m (a + 0x20) 8, symCount := storeLE m (a + 0x28) 8, timOff := storeLE m (a + 0x30) 8, timCount := storeLE m (a + 0x38) 2, wsmCount := storeLE m (a + 0x3A) 2, wsmOff := storeLE m (a + 0x40) 8, auxOff := storeLE m (a + 0x48) 8, redOff := storeLE m (a + 0x50) 8, redCount := storeLE m (a + 0x58) 2, maskCount := storeLE m (a + 0x5A) 2, lvlCount := storeLE m (a + 0x5C) 2 }

/-- A section lies in the populated store and is aligned. -/
def Hdr.secOk (h : Hdr) (off size : Nat) : Bool := off % 64 == 0 && decide (h.base + off + size ≤ storeBytes)

/-- The conditions of R100. -/
def hdrOk (m : Tab Byte) (h : Hdr) : Bool :=
  let a := h.base
  let bytes := (List.range 124).map (fun i => storeByte m (a + i))
  storeLE m a 4 == 0x5A485631 && storeLE m (a + 4) 2 == 1 && storeLE m (a + 0x7C) 4 == Nat.xor (crcBytes 0xFFFFFFFF bytes) 0xFFFFFFFF &&
    decide (1 ≤ h.slots) && decide (h.slots ≤ 128) && (h.mux == 1 || h.mux == 2 || h.mux == 4) && decide (1 ≤ h.opsCount) && decide (h.opsCount ≤ 1048576) &&
    decide (h.symCount ≤ 2 ^ 40) && decide (1 ≤ h.timCount) && decide (h.timCount ≤ 64) && decide (1 ≤ h.wsmCount) && decide (h.wsmCount ≤ 16) &&
    decide (h.redCount ≤ 256) && decide (h.maskCount ≤ 16) && decide (h.lvlCount ≤ 1) &&
    h.granBytes == (16 * h.mux * h.slots + 63) / 64 * 64 && decide (h.entry < h.opsCount) &&
    h.secOk h.opsOff (8 * h.opsCount) && h.secOk h.symOff (h.symCount * h.granBytes) && h.secOk h.timOff (512 * h.timCount) &&
    h.secOk h.wsmOff (64 * h.wsmCount) && h.secOk h.auxOff (if h.lvlCount = 1 then 0x1200 else 0x200) && h.secOk h.redOff (32 * h.redCount) &&
    (List.range h.slots).all (fun s => decide (storeByte m (a + h.auxOff + s) < h.timCount)) && decide (h.holdWsm m < h.wsmCount)

/-- LOAD: the header at the address is checked and accepted, or the context becomes EMPTY; the op cache of the cluster is invalidated (R159). -/
def Dev.doLoad (d : Dev) (m : Tab Byte) (c a : Nat) : Dev :=
  if [0, 1, 5, 6].contains (d.ctxState c) then
    let h := readHdr (d.view m) a
    let ok := hdrOk (d.view m) h
    let d := ((d.slotEndClose m c).opDrop (c / 32)).modCx c (fun x => { x with hdr := if ok then some h else none })
    (d.put (ctxBase c) .CTX_STATE_STATE (if ok then 1 else 0)).put (ctxBase c) .CTX_STATE_CAUSE (if ok then 0 else 1)
  else d

/-- LOAD. -/
def Dev.rtLoad (d : Dev) (m : Tab Byte) (n : Nat) : Dev := d.asRoutine n 0x20 (fun d r => d.doLoad m r.ctx r.arg)

/-! ### ARM (R101 to R103, R146) -/

/-- The first slot that meets a condition. -/
def firstSlot (p : Nat → Bool) : Option Nat := (List.range 128).find? p

/-- The cause of a refused arm and its slot (R102). -/
def Dev.armCause (d : Dev) (c : Nat) (h : Hdr) : Option (Nat × Nat) :=
  let l := d.siteRegs c
  let at_ := fun (s : Nat) => (l.getD s none)
  let slots := firstSlot (fun s => ((at_ s).isSome != decide (s < h.slots)) || ((at_ s).isSome && (l.take s).contains (at_ s)))
  let absent := firstSlot (fun s => match at_ s with | some g => !d.present (g / 32) | none => false)
  let owned := firstSlot (fun s => match at_ s with
    | some g => (match (d.pin g).owner with | some o => o != c && d.ctxOwning o | none => false) || d.rasOwns g
    | none => false)
  match slots, absent, owned with
  | some s, _, _ => some (2, s)
  | none, a, o =>
    if h.tv ≠ clampTv (d.get (vpBase (c / 128)) .CLK_VP_PERIOD_PERIOD) then some (3, 0xFF)
    else match a, o with
      | some s, _ => some (4, s)
      | none, some s => some (5, s)
      | none, none => none

/-- Ownership of every site channel is taken (R103 step 1). -/
def Dev.siteTake (d : Dev) (c : Nat) : Dev :=
  let site := (d.siteRegs c).filterMap id
  let d := d.modCx c (fun x => { x with site := site })
  site.zipIdx.foldl (fun d p => d.setPin p.1 { d.pin p.1 with owner := some c, slot := p.2 }) d

/-- A direct write of a pin register by the arm (R103). -/
def Dev.armWrite (d : Dev) (g off v : Nat) : Dev := d.applyWrite hostFire .pcie true (pinBase g + off) 0xFFFFFFFF v

/-- The timing-class and level records of a slot go into its pin (R103 steps 2 and 3). -/
def Dev.armSlot (d : Dev) (m : Tab Byte) (c : Nat) (h : Hdr) (s g : Nat) : Dev :=
  let cls := storeByte m (h.base + h.auxOff + s)
  let t := h.base + h.timOff + 512 * cls
  let d := d.forAll (List.range 128) (fun d i => d.armWrite g (0x400 + 4 * i) (storeLE m (t + 4 * i) 4))
  if h.lvlCount = 1 ∧ d.bit (ctxBase c) .CTX_CFG_ARM_LEVELS = true then
    let l := h.base + h.auxOff + 0x200 + 32 * s
    let d := d.armWrite g 0x44 (storeLE m l 4)
    d.forAll (List.range 6) (fun d i => d.armWrite g (0x48 + 4 * i) (storeLE m (l + 4 + 4 * i) 4))
  else d

/-- A context of an accepted arm with its run state cleared (R103 step 4). -/
def Ctx.armed (x : Ctx) (entry quota : Nat) : Ctx :=
  { x with stack := [], opidx := entry, map := 0, hf := 0, table := none, chosen := none, cur := none, curPos := 0, succ := none, want := none, req := 0, failV := none, itFails := [], trig := 0, gap := none, ldstb := [], gapEnd := none, quota := quota, late := none, vec := 0, crec := none, nkey := none }

/-- Step 4 of R103 and the state ARMED. -/
def Dev.armClear (d : Dev) (c : Nat) (h : Hdr) : Dev :=
  let b := ctxBase c
  let q := d.get (quotaBase c) .PAT_QUOTA_QUOTA
  let d := (d.modCx c (fun x => x.armed h.entry q)).acqArm c
  let d := (((d.put b .CTX_VIDX_INDEX 0).put b .CTX_HOLDS_COUNT 0).put b .CTX_OPIDX_OP h.entry).put b .CTX_SEQ_STAGE_STAGE 0
  ((d.put b .CTX_STATE_STATE 2).put b .CTX_STATE_CAUSE 0).quotaAgain (c / 32)

/-- A refused arm (R102). -/
def Dev.armRefuse (d : Dev) (c cause slot : Nat) : Dev :=
  ((d.put (ctxBase c) .CTX_STATE_CAUSE cause).put (ctxBase c) .CTX_STATE_ARM_SLOT slot).irq .seq (seqBase (c / 32)) 0

/-- Stage 0 of an accepted ARM (R146, R159): the op cache is invalidated and the site's ownership taken. -/
def Dev.armAccept (d : Dev) (m : Tab Byte) (c : Nat) : Dev := ((d.slotEndClose m c).opDrop (c / 32)).siteTake c

/-- The stages of an accepted ARM: ownership, then the writes of slot after slot (R103, R146). -/
def Dev.armStages (d : Dev) (m : Tab Byte) (c : Nat) (h : Hdr) : Dev :=
  let d := d.armAccept m c
  ((d.cx c).site.zipIdx).foldl (fun d p => d.armSlot (d.view m) c h p.2 p.1) d

/-- ARM from its first check to its final commit. A walk that overflows has committed the stages before it and nothing more (R133, R142). -/
def Dev.doArm (d : Dev) (m : Tab Byte) (r : Rtn) : Dev :=
  let c := r.ctx
  match (d.cx c).hdr with
  | some h =>
    if ¬ [1, 5, 6].contains (d.ctxState c) then d
    else match d.armCause c h with
    | some x => d.armRefuse c x.1 x.2
    | none =>
      let d := d.armStages m c h
      let u := d.walkAll m h r
      let d := d.opHoldAll (c / 32) m h u.ops
      if u.ovf then (d.setStage (c / 32) r (h.slots + 1)).romFault (c / 32) c 3 else (d.armClear c h).postTable c (u.table .decide)
  | none => d

/-- ARM. -/
def Dev.rtArm (d : Dev) (m : Tab Byte) (n : Nat) : Dev := d.asRoutine n 0x21 (fun d r => d.doArm m r)

/-! ### START (R22, R103, R104, R168, R306, R307) -/

/-- A run of a context opens with its first vector at `s0`. -/
def Ctx.starts (x : Ctx) (s0 : Nat) : Ctx :=
  { x with s := s0, spans := [], vec := 0, gk := .hold, cur := none, curPos := 0, gap := none, hostT := false, late := none, trig := 0, ptrig := [], failV := none, itFails := [], bpHold := false, ldstb := [], succ := none, want := none, gapEnd := none }

/-- The sample schedules that are anchored at the first vector begin (R207). -/
def Dev.schedStart (d : Dev) (c : Nat) : Dev :=
  d.forAll ((d.cx c).site.filter (fun g => d.get (pinBase g) .PMU_ADC_CFG_MODE == 3 && !d.bit (pinBase g) .PMU_ADC_CFG_ANCHOR)) (fun d g => d.pmuAnchor g 0)

/-- A start takes effect; `t` is its tick, or the end of the wake for a late one. S(0) follows at the device's own delay. -/
def Dev.doStart (d : Dev) (m : Tab Byte) (c t : Nat) : Dev :=
  match (d.cx c).hdr with
  | some h =>
    if ¬ (d.ctxState c = 2 ∨ (d.ctxState c = 3 ∧ (d.cx c).late.isSome = true)) then d
    else
      let late := (d.cx c).late
      let s0 := vectorZero h.tv t
      let d := d.runOpen c (late.getD t)
      let d := ((d.modCx c (fun x => x.starts s0)).put (ctxBase c) .CTX_STATE_STATE 3).forAll (d.cx c).site Dev.blankLatch
      let d := ((d.acqStart c).mbRunStart c).tdcOwnerStart c
      let ticks := match late with | some e => (t - e) / 1024 | none => 0
      let d := match late with | some e => d.annot c 2 [lo32 ticks, hi32 ticks, lo32 e, hi32 e] | none => d
      let d := (d.schedStart c).wfgOwnerStart c s0 ticks
      (d.latchAt m c 0 true).boundaryAt m c
  | none => d

/-- START. -/
def Dev.rtStart (d : Dev) (m : Tab Byte) (n : Nat) : Dev := d.asRoutine n 0x22 (fun d r => d.doStart m r.ctx r.arg)

/-! ### DECIDE, REDIRECT, STOP (R139 to R141) -/

/-- The committed state becomes the settled one (R139). -/
def Dev.settle (d : Dev) (c : Nat) : Dev := d.modCx c Ctx.settled

/-- One captured op (R461); it is lost while the one before it waits, and when the buffer is full. UADDR is where a match register redirects the handler's
entry slot (R148); the addresses within the ROM, latency and slack are stated nowhere and are free. -/
def Dev.pmcCapture (d : Dev) (n : Nat) (r : Rtn) (op : Nat × Nat) : Dev :=
  let u := d.takeFree 32768
  let l := u.1.takeFree (2 ^ 32)
  let k := l.1.takeFree (2 ^ 32)
  let d := k.1
  let a := d.fetchAddr n op.2
  let ua := if a = op.2 then u.2 else a
  let w : List Word := [BitVec.ofNat 32 (op.2 * 2 ^ 27 + r.ctx % 32 * 2 ^ 20 + op.1), BitVec.ofNat 32 (ua % 32768 * 2 ^ 16 + Nat.min r.aband 255 * 256 + r.slot), BitVec.ofNat 32 l.2, BitVec.ofNat 32 k.2]
  match (d.clu n).cap with
  | some _ => d.pmcLost n
  | none => if 64 ≤ d.get (pmccBase n) .PMC_SMP_STAT_LEVEL then d.pmcLost n else (d.setClu n { d.clu n with cap := some w }).reqRtn n { slot := 0x29, ctx := 32 * n }

/-- The ops of a committed DECIDE walk are counted and sampled (R461). -/
def Dev.pmcOps (d : Dev) (n : Nat) (r : Rtn) (ops : List (Nat × Nat)) : Dev :=
  ops.foldl (fun d op =>
    let b := pmccBase n
    let k := d.get b .PMC_OPS_COUNT + 1
    let p := d.get b .PMC_CTRL_PERIOD
    let d := d.put b .PMC_OPS_COUNT k
    if p ≠ 0 ∧ k % p = 0 then d.pmcCapture n r op else d) d

/-- DECIDE: settles the chosen leaf and publishes the table of the chain behind it. -/
def Dev.doDecide (d : Dev) (m : Tab Byte) (r : Rtn) : Dev :=
  let c := r.ctx
  match (d.cx c).hdr, (d.cx c).chosen with
  | some h, some _ =>
    if ¬ d.ctxActive c then d
    else
      let u := d.walkAll m h r
      let d := d.opHoldAll (c / 32) m h u.ops
      if u.ovf then d.romFault (c / 32) c 3
      else ((d.settle c).postTable c (u.table .decide)).pmcOps (c / 32) r u.ops
  | _, _ => d

/-- DECIDE. -/
def Dev.rtDecide (d : Dev) (m : Tab Byte) (n : Nat) : Dev := d.asRoutine n 0x23 (fun d r => d.doDecide m r)

/-- REDIRECT: the table of the chain that starts at the target. -/
def Dev.doRedirect (d : Dev) (m : Tab Byte) (r : Rtn) : Dev :=
  let c := r.ctx
  match (d.cx c).hdr with
  | some h =>
    if ¬ d.ctxActive c ∨ (d.cx c).req ≠ 1 then d
    else
      let u := d.walkAll m h r
      let d := d.opHoldAll (c / 32) m h u.ops
      if u.ovf then d.romFault (c / 32) c 3
      else ((d.settle c).modCx c (fun x => { x with req := 0 })).postTable c (u.table .redirect)
  | none => d

/-- REDIRECT. -/
def Dev.rtRedirect (d : Dev) (m : Tab Byte) (n : Nat) : Dev := d.asRoutine n 0x24 (fun d r => d.doRedirect m r)

/-- The single leaf that ends a run. -/
def endLeaf : Leaf := { desc := { kind := .none, last := true } }

/-- STOP. -/
def Dev.doStop (d : Dev) (c : Nat) : Dev :=
  if d.ctxActive c ∧ (d.cx c).req = 2 then d.postTable c { leaves := [endLeaf], tag := .stop } else d

/-- STOP. -/
def Dev.rtStop (d : Dev) (_m : Tab Byte) (n : Nat) : Dev := d.asRoutine n 0x25 (fun d r => d.doStop r.ctx)

/-! ### CLEAR, REACT (R104, R135, R147) -/

/-- A context that owns nothing and runs nothing. -/
def Ctx.idle (x : Ctx) : Ctx := { x with table := none, chosen := none, cur := none, succ := none, want := none, req := 0, late := none }

/-- CLEAR: to LOADED, or with UNLOAD to EMPTY. An ARMED context releases its channels. -/
def Dev.doClear (d : Dev) (m : Tab Byte) (c arg : Nat) : Dev :=
  let st := d.ctxState c
  if arg = 1 ∧ d.ctxActive c = true ∨ arg ≠ 1 ∧ ¬ [2, 5, 6, 7].contains st then d
  else
    let d := (d.slotEndClose m c).put (ctxBase c) .CTX_STATE_STATE (if arg = 1 then 0 else 1)
    let d := (d.modCx c Ctx.idle).seqShow c
    let d := if st = 2 then (d.siteFree c).cacheLeave c else d
    if arg = 1 then d.modCx c (fun x => { x with hdr := none }) else d

/-- CLEAR. -/
def Dev.rtClear (d : Dev) (m : Tab Byte) (n : Nat) : Dev := d.asRoutine n 0x26 (fun d r => d.doClear m r.ctx r.arg)

/-- The leaf that a reaction posts: HALT with the cause, and the mark where it has not been written yet. -/
def reactLeaf (arg : Nat) : Leaf :=
  { desc := { kind := .none }, halt := some (arg % 256), acts := if arg < 256 then [.mark (if arg = 0x18 then 2 else 1)] else [] }

/-- REACT: the waiting routines of the context go; an ARMED context is FAULTED, one whose start waits late is FAULTED with its mark at once, since it has no
boundary, a running one ends at its next boundary, and what an incomplete arm
took is released, with the reaction's cause. -/
def Dev.doReact (d : Dev) (c arg : Nat) : Dev :=
  let n := c / 32
  let arming := (d.cx c).site != [] || (d.eng n).queue.any (fun q => q.ctx == c && q.slot == 0x21)
  let d := d.setEng n { d.eng n with queue := (d.eng n).queue.filter (fun q => !(q.ctx == c && decide (q.slot < 0x28))) }
  if d.ctxActive c = true ∧ (d.cx c).late.isSome = true then
    (if arg < 256 then d.dbreak c (if arg = 0x18 then 2 else 1) else d).leaveRun c 7 (arg % 256)
  else if d.ctxActive c then d.postTable c { leaves := [reactLeaf arg], tag := .react }
  else if d.ctxState c = 2 then
    let d := (d.put (ctxBase c) .CTX_STATE_STATE 7).put (ctxBase c) .CTX_STATE_CAUSE (arg % 256)
    let old := d.bitN (seqBase n) .SEQ_CTX_EVT_END (c % 32)
    let d := d.setBitN (seqBase n) .SEQ_CTX_EVT_END (c % 32) true
    let d := if old then d else d.irq .seq (seqBase n) 1
    (((d.modCx c Ctx.idle).seqShow c).siteFree c).cacheLeave c
  else if arming then
    ((d.put (ctxBase c) .CTX_STATE_CAUSE (arg % 256)).put (ctxBase c) .CTX_SEQ_STAGE_STAGE 0).siteFree c
  else d

/-- REACT. -/
def Dev.rtReact (d : Dev) (_m : Tab Byte) (n : Nat) : Dev := d.asRoutine n 0x27 (fun d r => d.doReact r.ctx r.arg)

/-! ### SERVICE (R378, R461) -/

/-- CAL_APPLY. -/
def Dev.rtCalApply (d : Dev) (_m : Tab Byte) (n : Nat) : Dev := d.asRoutine n 0x28 (fun d _ => d.calApply n)

/-- The capture that waits is copied. -/
def Dev.doSample (d : Dev) (n : Nat) : Dev :=
  match (d.clu n).cap with
  | some ws => (d.setClu n { d.clu n with cap := none }).pmcCopy n ws
  | none => d

/-- PMC_SAMPLE. -/
def Dev.pmcSample (d : Dev) (n : Nat) : Dev := d.asRoutine n 0x29 (fun d _ => d.doSample n)

end Sys2Proof.Machine
end

