-- ==== Sys2Proof/Machine/WalkRows.lean ====
section
/-! DEFINITION. The rows of the vector ops (R110, R141): the handler of one op in the chain walk that the microengine of a cluster
runs. -/

namespace Sys2Proof.Machine

/-- A routine that walks a chain: ARM behind its last slot, DECIDE, REDIRECT (R139, R140, R146). -/
def URun.walks (r : URun) (h : Hdr) : Bool :=
  r.tail.isNone && (r.rtn.slot == 0x23 || r.rtn.slot == 0x24 || (r.rtn.slot == 0x21 && decide (h.slots < r.stage)))

/-- The row of an op: its opcode; 0x20 + SUB for ACQ; 0x13 for a reserved opcode or SUB (R110). -/
def OpW.row (o : OpW) : Nat := if o.op = 0x0E then (if o.sub < 4 then 0x20 + o.sub else 0x13) else Nat.min o.op 0x13

/-- The op at the head of the walk belongs to a row. -/
def URun.headIs (r : URun) (m : Tab Byte) (h : Hdr) (code : Nat) : Bool :=
  match r.work with
  | p :: _ => decide (h.opsCount ≤ p.opidx) || (h.opAt m p.opidx).row == code
  | [] => false

/-- A step of a walk is kept; a ninth leaf or a 65th action entry is FORK_OVF (R133). -/
def Dev.keepWalk (d : Dev) (n : Nat) (r : URun) : Dev := if r.ovf then (d.setRun n r).romFault n r.rtn.ctx 3 else d.setRun n r

/-- The op at the head of the walk is read through the op cache (R128). -/
def Dev.headHold (d : Dev) (m : Tab Byte) (n : Nat) (r : URun) (h : Hdr) : Dev :=
  match r.work with
  | p :: _ => if p.opidx < h.opsCount then d.opHold n m (h.opAddr p.opidx) else d
  | [] => d

/-- A vector op of the walk that runs on cluster `n` (R141): its handler runs if the head path stands at such an op and no patch replaces the handler (R134,
R148). -/
def Dev.walkRow (d : Dev) (m : Tab Byte) (n code : Nat) : Dev :=
  let d := d.engine n
  match d.running n with
  | some r =>
    match (d.cx r.rtn.ctx).hdr with
    | some h =>
      if ¬ d.engUp n ∨ r.walks h = false then d
      else
        let r := d.walkBegin h r
        if r.headIs (d.opView n m) h code ∧ d.romOwn n r.rtn.slot = true then (d.headHold m n r h).keepWalk n (r.stepOp (d.opView n m) h d) else d.setRun n r
    | none => d
  | none => d

end Sys2Proof.Machine
end

