-- ==== Sys2Proof/Machine/Micro.lean ====
section
/-! DEFINITION. The micro-ops (R128 to R133, R142 to R144, R148 to R150): one microword of the routine that runs on a cluster's
engine. The ROM's words are no part of the spec: a command names the word that the engine fetches from ROM; words of the patch RAM are the state's. -/

namespace Sys2Proof.Machine

/-! ### Faults (R133) -/

/-- A fault of the engine (R133). A tail has committed and does not start again. -/
def Dev.uFault (d : Dev) (n : Nat) (r : URun) (bit code : Nat) (inj : Bool) : Dev :=
  (if r.tail.isSome then d.endRun n else d).seqFault n r.rtn.ctx bit code r.upc inj

/-- A fault that the engine detects. -/
def Dev.uErr (d : Dev) (n : Nat) (r : URun) (bit : Nat) : Dev := d.uFault n r bit (0xF0 + bit) false

/-! ### Operands (R130 to R133) -/

/-- Operand bits that an op uses. -/
def uMask : Nat → Nat
  | 0x01 => 0x7FFF | 0x02 => 0x70FF | 0x03 => 0x7E00 | 0x04 | 0x05 | 0x07 | 0x08 | 0x09 => 0x7FC0
  | 0x06 | 0x0A => 0x7E3F | 0x0B => 0x0FC0 | 0x0C => 0x003F | 0x0D | 0x0E => 0x7FFF | 0x10 => 0x0E00
  | 0x11 => 0x7E00 | 0x12 | 0x13 => 0x703F | 0x14 | 0x17 => 0x0E3F | 0x15 => 0x7FC7 | 0x16 => 0x7003 | 0x18 => 0x0E07
  | 0x19 => 0x0FFF | 0x1A => 0x7E00 | 0x1B => 0x0FC0 | 0x1C => 0x0001 | 0x1E | 0x1F => 0x00FF | _ => 0

/-- A working register. -/
def URun.reg (r : URun) (i : Nat) : Nat := r.w.getD i 0

/-- Set a working register. It keeps the low 20 bits of what it is given, a 32-bit register's too (DESIGN CHOICE: notes/assumptions/94.md). -/
def URun.setW (r : URun) (i v : Nat) : URun := { r with w := r.w.set i (v % 2 ^ 20) }

/-- Set Z and N from a result. -/
def URun.zn (r : URun) (v : Nat) : URun := { r with z := v % 2 ^ 20 == 0, n := bitOf v 19 }

/-- Set C. -/
def URun.carry (r : URun) (c : Bool) : URun := { r with c := c }

/-- A selector that R132 does not list, or a shift beyond 19. -/
def uBadSel (op w v : Nat) : Bool :=
  let s := w % 64
  match op with
  | 0x0A => decide (19 < w % 32)
  | 0x0C => decide (0x0B < s)
  | 0x11 => decide (4 < w / 2 ^ 12)
  | 0x12 => !(decide (s ≤ 4) || (decide (8 ≤ s) && decide (s ≤ 15)))
  | 0x13 => decide (0x0B < s)
  | 0x14 => decide (3 < s)
  | 0x16 => w % 4 != 0
  | 0x17 => decide (6 < s) || (s == 3 && decide (3 < v))
  | 0x18 => decide (4 < w % 8)
  | _ => false

/-- Ops that a tail may not hold. -/
def uNoTail (op : Nat) : Bool := [0x14, 0x15, 0x17, 0x18, 0x19, 0x1C, 0x1E].contains op

/-- A microword that raises UOP_ILLEGAL (R133); `v` is the value of W[ra]. -/
def uIllegal (op w v : Nat) (tail : Bool) : Bool := andNot w (uMask op) != 0 || uBadSel op w v || (tail && uNoTail op)

/-! ### Registers and images that a routine reads -/

/-- The size of an image section in 64-bit words, and its byte offset (R97, R98, R132). -/
def Hdr.section (h : Hdr) (s : Nat) : Nat × Nat :=
  match s with
  | 0 => (h.opsCount, h.opsOff)
  | 1 => (64 * h.timCount, h.timOff)
  | 2 => (8 * h.wsmCount, h.wsmOff)
  | 3 => (if h.lvlCount = 1 then 0x240 else 0x40, h.auxOff)
  | _ => (4 * h.redCount, h.redOff)

/-- A cluster-region word as RDREG reads it (R131): no side effects, all ones from a page in a self-test slice. -/
def Dev.uRead (d : Dev) (n w : Nat) : Nat :=
  let a := clBase n + 4 * w
  if 0x10000 ≤ w then 0
  else match areaOf a with
    | .page kind base off =>
      if kind.header ∧ d.bit base .PG_STAT_SELFTEST = true then 0xFFFFFFFF
      else match rowAt kind base off with
        | some _ => d.live kind base off
        | none => 0
    | _ => 0

/-- A shadow context-state register (R132). -/
def Dev.uCs (d : Dev) (r : URun) (s : Nat) : Nat :=
  let c := r.rtn.ctx
  let x := d.cx c
  let h := x.hdr.getD {}
  let img := if r.rtn.slot = 0x20 then r.rtn.arg else h.base
  match s with
  | 0 => r.opidx
  | 1 => r.map
  | 2 => r.hf
  | 3 => r.stage
  | 4 => d.get (ctxBase c) .CTX_SEQ_COND_INPUTS + d.get (ctxBase c) .CTX_SEQ_COND_LEAF * 256
  | 5 => x.req + (if x.reqKeep then 4 else 0)
  | 6 => x.reqTgt
  | 7 => d.get (ctxBase c) .CTX_CFG_POLICY + h.mux * 2 + h.slots * 16
  | 8 => img / 64
  | 9 => img / 2 ^ 26 % 2 ^ 10
  | 10 => c
  | _ => if x.gk = .hold then d.vidx c else d.vidx c - x.vec

/-- A condition of SKIP (R132). -/
def Dev.uCond (d : Dev) (r : URun) (s : Nat) : Bool :=
  match s with
  | 0 => r.z | 1 => !r.z | 2 => r.n | 3 => !r.n | 4 => r.c | 5 => !r.c
  | 6 => r.stack == [] | 7 => decide (16 ≤ r.stack.length) | 8 => decide (8 ≤ r.leaves.length) | 9 => decide (64 ≤ r.wbuf.length)
  | 10 => (d.cx r.rtn.ctx).req != 0 | _ => r.outside

/-! ### Stack, builder (R132) -/

/-- MLOOP at the op of a frame has REPORT = 0. -/
def Dev.uQuiet (d : Dev) (m : Tab Byte) (r : URun) (op : Nat) : Bool :=
  match (d.cx r.rtn.ctx).hdr with
  | some h => (h.opAt (d.opView (r.rtn.ctx / 32) m) op).sub % 2 == 0
  | none => false

/-- A frame is pushed; a full stack stays as it is. -/
def URun.uPush (r : URun) (f : Frame) : URun := if 16 ≤ r.stack.length then r else { r with stack := r.stack ++ [f] }

/-- The code of a frame kind. -/
def FKind.code : FKind → Nat
  | .loop => 0 | .mtch => 1 | .ret => 2

/-- FRM (R132). The op and count of an empty stack are stated nowhere and are free. -/
def Dev.uFrm (d : Dev) (m : Tab Byte) (r : URun) (fn rd a b : Nat) : Dev × URun :=
  match fn with
  | 0 => (d, r.uPush { kind := .loop, op := a, count := b })
  | 1 => (d, r.uPush { kind := .mtch, op := a, count := b, fresh := true, quiet := d.uQuiet m r a })
  | 2 => (d, r.uPush { kind := .ret, op := a, count := b })
  | 3 => (d, { r with stack := r.stack.dropLast })
  | 6 => (d, r.setW rd (match topF r.stack with | some f => f.1.kind.code | none => 3))
  | 7 => (d, match topF r.stack with | some f => { r with stack := f.2 ++ [{ f.1 with count := b }] } | none => r)
  | _ => match topF r.stack with
    | some f => (d, r.setW rd (if fn = 4 then f.1.op else f.1.count))
    | none => let x := d.takeFree (2 ^ 20); (x.1, r.setW rd x.2)

/-- DSET (R132). -/
def Desc.set (x : Desc) (s v : Nat) : Desc :=
  match s with
  | 0 => { x with gran := x.gran / 2 ^ 20 * 2 ^ 20 + v }
  | 1 => { x with gran := v * 2 ^ 20 + x.gran % 2 ^ 20 }
  | 2 => { x with count := v }
  | 3 => { x with kind := match v with | 0 => .block | 1 => .rpt | 2 => .gap | _ => .none }
  | 4 => { x with map := v % 16 }
  | 5 => { x with clrf := bitOf v 0, last := bitOf v 1, act := bitOf v 2 }
  | _ => { x with opidx := v }

/-- The first vector of the iteration that the innermost match frame of a stack has open. -/
def matchFrom (s : List Frame) : Nat := ((s.filter (fun f => f.kind == .mtch)).getLast?.bind (fun f => f.v0)).getD 0

/-- DACT (R132). -/
def URun.uAct (r : URun) (kind v : Nat) : URun :=
  let r := { r with nact := r.nact + 1 }
  match kind with
  | 0 => { r with acts := r.acts ++ [.acq (v / 2 ^ 16 % 4) (v / 2 ^ 8 % 256) (v % 256)] }
  | 1 => { r with acts := r.acts ++ [.ldstb (v % 64)] }
  | 2 => { r with acts := r.acts ++ [.mark (v % 16)] }
  | 3 => { r with acts := r.acts ++ [.systime] }
  | _ => { r with mmask := some (v % 16), mfrom := matchFrom r.stack }

/-- DLEAF: the descriptor, its actions and a queued HALT become a leaf. -/
def URun.uLeaf (r : URun) (care value : Nat) : URun :=
  let l : Leaf := { desc := r.desc, acts := r.acts, care := care, value := value, halt := r.halt, next := r.opidx, stack := r.stack.map (fun f => { f with fresh := false }), map := r.map, hf := r.hf }
  { r with leaves := r.leaves ++ [l], desc := {}, acts := [], halt := none }

/-! ### Commit (R142, R146) -/

/-- Frames of a published stack keep the begin of their iteration where the chosen leaf knows it. -/
def keepFrom (old new : List Frame) : List Frame :=
  new.zipIdx.map (fun p => match p.1.v0, old[p.2]? with
    | none, some f => if f.kind = p.1.kind ∧ f.op = p.1.op ∧ f.count = p.1.count then { p.1 with v0 := f.v0 } else p.1
    | _, _ => p.1)

/-- DECIDE and REDIRECT settle the leaf that the last latch has chosen (R139). -/
def URun.settles (r : URun) : Bool := r.rtn.slot == 0x23 || r.rtn.slot == 0x24

/-- The shadow context state and stack are published (R142). -/
def Ctx.publish (x : Ctx) (r : URun) : Ctx :=
  let old := match x.chosen with | some l => if r.settles then l.stack else x.stack | none => x.stack
  { x with opidx := r.opidx, map := r.map, hf := r.hf, stack := keepFrom old r.stack, chosen := if r.settles then none else x.chosen }

/-- The buffered register writes are published. No transaction applies them: those to match registers are discarded as REJECTED (R149). -/
def Dev.uWrites (d : Dev) (n : Nat) (ws : List (Nat × Nat)) : Dev :=
  ws.foldl (fun d w => if w.1 < 0x10000 then d.applyWrite hostFire .pcie false (clBase n + 4 * w.1) 0xFFFFFFFF w.2 else d) d

/-- Builder and write buffer empty. -/
def URun.emptied (r : URun) : URun := { r with wbuf := [], leaves := [], nact := 0, desc := {}, acts := [], mmask := none, mfrom := 0, halt := none, hostT := false }

/-- The table that a routine publishes, with a queued HALT and a queued HOST_TIMED mark. -/
def URun.uTable (r : URun) (tag : TTag) : Table :=
  let ls := match r.halt with | some k => r.leaves ++ [{ desc := { kind := .none }, halt := some k }] | none => r.leaves
  { leaves := if r.hostT then ls.map (fun l => { l with acts := l.acts ++ [.mark 4] }) else ls, mmask := r.mmask, mfrom := r.mfrom, tag := tag }

/-- What the stage of a staged routine of the ROM does (R146): ARM takes the site, then writes slot by slot; CAL_APPLY fills the inactive bank channel by
channel. -/
def Dev.stageAct (d : Dev) (m : Tab Byte) (n : Nat) (r : URun) : Dev :=
  let c := r.rtn.ctx
  let k := d.stage n r.rtn
  if r.rtn.slot = 0x28 then (if d.calDue n ∧ k < 32 then d.calStage n k else d)
  else if r.rtn.slot ≠ 0x21 then d
  else match (d.cx c).hdr with
    | some h =>
      if k = 0 then (if (d.armCause c h).isNone ∧ [1, 5, 6].contains (d.ctxState c) = true then d.armAccept m c else d)
      else match (d.cx c).site[k - 1]? with
        | some g => d.armSlot (d.view m) c h (k - 1) g
        | none => d
    | none => d

/-- The shadow context state of a routine is published; a SERVICE routine has none (R142). -/
def Dev.publishCs (d : Dev) (r : URun) : Dev := if r.rtn.service then d else (d.modCx r.rtn.ctx (fun x => x.publish r)).seqShow r.rtn.ctx

/-- The table, the HALT and the marks that a routine has queued are published where its own effect publishes none (R142): a table of its own leaves is the
pending one, a HALT alone ends the context as a stop does, and a HOST_TIMED mark without either is written at once (DEDUCED: notes/assumptions/95.md). -/
def Dev.publishTable (d : Dev) (r : URun) : Dev :=
  let c := r.rtn.ctx
  if r.rtn.service then d
  else if r.leaves = [] ∧ r.halt = none then (if r.hostT then d.hostTimed c else d)
  else d.postTable c (r.uTable (if r.leaves = [] then .stop else .decide))

/-- The ARM of a context that passes its checks enters ARMED (R102, R103, R146); what the step behind the last stage leaves in the shadows is its state. -/
def Dev.finalArm (d : Dev) (r : URun) : Dev :=
  let c := r.rtn.ctx
  match (d.cx c).hdr with
  | some h => match d.armCause c h with
    | some x => d.armRefuse c x.1 x.2
    | none =>
      if ¬ [1, 5, 6].contains (d.ctxState c) then d
      else
        let d := d.armClear c h
        (if h.slots < r.stage then d.publishCs r else d).postTable c (r.uTable .decide)
  | none => d

/-- The state move of a routine at its final commit (R101 to R105, R122, R139, R140, R146, R147, R378), with the table it publishes. -/
def Dev.finalAct (d : Dev) (m : Tab Byte) (n : Nat) (r : URun) : Dev :=
  let c := r.rtn.ctx
  match r.rtn.slot with
  | 0x20 => ((d.publishCs r).doLoad m c r.rtn.arg).publishTable r
  | 0x21 => d.finalArm r
  | 0x22 => ((d.publishCs r).doStart m c r.rtn.arg).publishTable r
  | 0x23 => if d.ctxActive c then ((d.publishCs r).postTable c (r.uTable .decide)).pmcOps n r.rtn r.ops else d
  | 0x24 =>
    if d.ctxActive c ∧ (d.cx c).req = 1 then ((d.publishCs r).modCx c (fun x => { x with req := 0 })).postTable c (r.uTable .redirect) else d
  | 0x25 => ((d.publishCs r).doStop c).publishTable r
  | 0x26 => ((d.publishCs r).doClear m c r.rtn.arg).publishTable r
  | 0x27 => ((d.publishCs r).doReact c r.rtn.arg).publishTable r
  | 0x28 => d.calFinal n
  | 0x29 => d.doSample n
  | _ => d

/-- COMMIT with FINAL = 0 (R142, R146): all that the routine has queued is published as one group, and its next stage begins with an empty builder and write
buffer. -/
def Dev.commitStage (d : Dev) (m : Tab Byte) (n : Nat) (r : URun) : Dev :=
  let d := (((d.stageAct m n r).publishCs r).publishTable r).uWrites n r.wbuf
  let d := (d.setStage n r.rtn (r.stage + 1)).pmcRetire n
  d.setRun n (({ r.emptied with stage := r.stage + 1, upc := r.upc + 1 } : URun).cleared (d.cx r.rtn.ctx).hdr)

/-- COMMIT with FINAL = 1 (R142, R143): the tail begins. -/
def Dev.commitFinal (d : Dev) (m : Tab Byte) (n : Nat) (r : URun) : Dev :=
  let d := ((d.finalAct m n r).uWrites n r.wbuf).setStage n r.rtn 0
  d.setEngS n { d.eng n with run := some { r.emptied with stage := 0, upc := r.upc + 1, tail := some 0 } }

/-- A tail ends: its length is compared, and its words retire (R143, R153, R460). -/
def Dev.tailEnd (d : Dev) (n k : Nat) : Dev :=
  ((d.put (seqBase n) .SEQ_TAIL_MAX_CYCLES (Nat.max (d.get (seqBase n) .SEQ_TAIL_MAX_CYCLES) k)).pmcRetire n).endRun n

/-- TAIL_OVF (R143): at its 600th cycle the engine ends the tail. -/
def Dev.tailOvf (d : Dev) (_m : Tab Byte) (n : Nat) : Dev :=
  match d.running n with
  | some r => if r.tail.isSome then (d.tailEnd n 600).seqFault n r.rtn.ctx 4 0xF4 r.upc false else d
  | none => d

/-- EXIT. Before its final commit a routine ends with nothing published. -/
def Dev.uExit (d : Dev) (n : Nat) (r : URun) : Dev :=
  match r.tail with
  | some k => d.tailEnd n k
  | none => (d.pmcWaste n).endRun n

/-- WRREG (R131, R133, R143): a tail writes at once, and only the cluster's PMC page and SEQ_CTX_EVT. -/
def Dev.uWrreg (d : Dev) (n : Nat) (r : URun) (a v : Nat) : Dev :=
  if r.tail.isSome then
    let b := clBase n + 4 * a
    let ok := decide (pmccBase n ≤ b) && decide (b < pmccBase n + 0x1000) || b == seqBase n + 0x4C
    (if ok then d.uWrites n [(a, v)] else d).setRun n { r with upc := r.upc + 1 }
  else if 64 ≤ r.wbuf.length then d.uErr n r 2
  else d.setRun n { r with wbuf := r.wbuf ++ [(a, v)], upc := r.upc + 1 }

/-! ### One microword -/

/-- Register-to-register ops: the working registers and flags after them. -/
def URun.alu (r : URun) (op w : Nat) : URun :=
  let rd := w / 2 ^ 12 % 8
  let a := r.reg (w / 2 ^ 9 % 8)
  let b := r.reg (w / 2 ^ 6 % 8)
  match op with
  | 0x01 => r.setW rd (w % 2 ^ 12)
  | 0x02 => r.setW rd (w % 256 * 2 ^ 12 + r.reg rd % 2 ^ 12)
  | 0x03 => r.setW rd a
  | 0x04 => ((r.setW rd (a + b)).zn (a + b)).carry (decide (2 ^ 20 ≤ a + b))
  | 0x05 => ((r.setW rd (a + 2 ^ 20 - b)).zn (a + 2 ^ 20 - b)).carry (decide (a < b))
  | 0x06 =>
    let y := if w % 64 < 32 then w % 64 else w % 64 + 2 ^ 20 - 64
    ((r.setW rd (a + y)).zn (a + y)).carry (decide (2 ^ 20 ≤ a + y))
  | 0x07 => (r.setW rd (Nat.land a b)).zn (Nat.land a b)
  | 0x08 => (r.setW rd (Nat.lor a b)).zn (Nat.lor a b)
  | 0x09 => (r.setW rd (Nat.xor a b)).zn (Nat.xor a b)
  | 0x0A => r.setW rd (if bitOf w 5 then a / 2 ^ (w % 32) else a * 2 ^ (w % 32))
  | 0x0B => (r.zn (a + 2 ^ 20 - b)).carry (decide (a < b))
  | _ => r

/-- The micro-address after a word that does not branch. -/
def URun.step (r : URun) : URun := { r with upc := r.upc + 1 }

/-- RDIMG: the op latch takes a word of a section, which the op cache serves and holds from then on (R128, R159); outside the section, what the latch holds
is stated nowhere and is free. -/
def Dev.uRdimg (d : Dev) (m : Tab Byte) (r : URun) (s i : Nat) : Dev × URun :=
  let h := (d.cx r.rtn.ctx).hdr
  let sec := match h with | some h => h.section s | none => (0, 0)
  let n := r.rtn.ctx / 32
  let a := (h.getD {}).base + sec.2 + 8 * i
  if i < sec.1 then (d.opHold n m a, { r with latch := BitVec.ofNat 64 (storeLE (d.opView n m) a 8), outside := false })
  else let x := d.takeFree (2 ^ 64); (x.1, { r with latch := BitVec.ofNat 64 x.2, outside := true })

/-- A field of the op latch (FLD). -/
def uField (latch s : Nat) : Nat :=
  let o := opW latch
  match s with
  | 0 => o.op | 1 => o.sub | 2 => o.a | 3 => o.b | 4 => o.c
  | _ => latch / 256 ^ (s - 8) % 256

/-- Set a shadow context-state register (WRCS). -/
def URun.setCs (r : URun) (s v : Nat) : URun :=
  match s with
  | 0 => { r with opidx := v }
  | 1 => { r with map := v % 16 }
  | 2 => { r with hf := v }
  | _ => { r with stage := v % 256 }

/-- A legal microword executes. -/
def Dev.uExec (d : Dev) (m : Tab Byte) (n : Nat) (r : URun) (op w : Nat) : Dev :=
  let rd := w / 2 ^ 12 % 8
  let a := r.reg (w / 2 ^ 9 % 8)
  let b := r.reg (w / 2 ^ 6 % 8)
  let s := w % 64
  match op with
  | 0x0C => d.setRun n { r with upc := r.upc + (if d.uCond r s then 2 else 1) }
  | 0x0D => d.setRun n { r with upc := w }
  | 0x0E => if 4 ≤ r.calls.length then d.uErr n r 1 else d.setRun n { r with upc := w, calls := (r.upc + 1) :: r.calls }
  | 0x0F => match r.calls with
    | x :: xs => d.setRun n { r with upc := x, calls := xs }
    | [] => d.uErr n r 1
  | 0x10 => d.setRun n { r with upc := a % 64 }
  | 0x11 => let x := d.uRdimg m r (w / 2 ^ 12) a; x.1.setRun n x.2.step
  | 0x12 => d.setRun n (r.setW rd (uField r.latch.toNat s)).step
  | 0x13 => d.setRun n (r.setW rd (d.uCs r s)).step
  | 0x14 => d.setRun n (r.setCs s a).step
  | 0x15 => let x := d.uFrm m r (w % 8) rd a b; x.1.setRun n x.2.step
  | 0x16 => d.setRun n { (r.setW rd (d.get (ctxBase r.rtn.ctx) .CTX_MAILBOX_DATA)).step with hostT := true }
  | 0x17 => d.setRun n { r.step with desc := r.desc.set s a }
  | 0x18 => if 64 ≤ r.nact then d.uErr n r 3 else d.setRun n (r.uAct (w % 8) a).step
  | 0x19 => if 8 ≤ r.leaves.length then d.uErr n r 3 else d.setRun n (r.uLeaf (w / 64 % 64) s).step
  | 0x1A => d.setRun n (r.setW rd (d.uRead n a)).step
  | 0x1B => d.uWrreg n r a b
  | 0x1C => if bitOf w 0 then d.commitFinal m n r else d.commitStage m n r
  | 0x1D => d.uExit n r
  | 0x1E => d.setRun n { r.step with halt := some (w % 256) }
  | 0x1F => d.uFault n r 6 (w % 256) false
  | _ => d.setRun n (r.alu op w).step

/-- One word more of the running routine is issued, and one cycle more of its tail (R143, R460). -/
def Dev.uIssue (d : Dev) (n : Nat) : Dev := if d.bit (pmccBase n) .PMC_CTRL_EN then d.setClu n { d.clu n with wordsP := (d.clu n).wordsP + 1 } else d

/-- The fetch of a patch word (R133): `none` where its parity fails. -/
def Dev.patchWord (d : Dev) (n a : Nat) : Dev × Option Nat × Bool :=
  let i := d.evalInj 0x20 n 5
  if i.2 then (i.1, none, true)
  else if (d.eng n).pbad.contains (a - 0x4000) then (d, none, false)
  else (d, some (Tab.get (fun _ => 0) (d.eng n).pram (a - 0x4000)), false)

/-- A microword at the routine's micro-address: bits [19:15] pick the op, bits [14:0] are its operands (R130). -/
def Dev.uWord (d : Dev) (m : Tab Byte) (n : Nat) (r : URun) (word : Nat) : Dev :=
  let op := word / 2 ^ 15 % 32
  let w := word % 2 ^ 15
  let d := d.uIssue n
  let r := { r with tail := r.tail.map (· + 1) }
  if r.tail = some 600 then (d.setRun n r).tailOvf m n
  else if uIllegal op w (r.reg (w / 2 ^ 9 % 8)) r.tail.isSome then (d.setRun n r).uErr n r 0
  else d.uExec m n r op w

/-- What the spec says of a ROM word (R134): a used entry slot holds a JMP, a reserved one FLT; the other words are no part of it. -/
def romWord (a op : Nat) : Bool := if a < 0x2A then op == 0x0D else if a < 0x40 then op == 0x1F else true

/-- A micro-op row: the engine of cluster `n` executes a word of an op. From ROM it is the word that the row gives, where the ROM may hold it; from the patch
RAM it is the word that stands there, if its bits [19:15] pick the row's op; a reserved address is UOP_ILLEGAL; a patch word with bad parity is PRAM_PARITY. -/
def Dev.uop (d : Dev) (m : Tab Byte) (n op w : Nat) : Dev :=
  let d := d.engine n
  match d.running n with
  | some r =>
    if ¬ d.engUp n then d
    else
      let a := d.fetchAddr n r.upc
      let r := { r with upc := a }
      if 0x4400 ≤ a then d.uErr n r 0
      else if a < 0x4000 then (if romWord a op then d.uWord m n r (op * 2 ^ 15 + w) else d)
      else
        let p := d.patchWord n a
        match p.2.1 with
        | none => p.1.uFault n r 5 0xF5 p.2.2
        | some x => if x / 2 ^ 15 % 32 = op then p.1.uWord m n r x else d
  | none => d

/-- The operands of a row that fixes the function or kind in bits [2:0]; a reserved kind stays as it is. -/
def uFn (w : BitVec 15) (k : Nat) (max : Nat) : Nat := if max < w.toNat % 8 then w.toNat else w.toNat / 8 * 8 + k

/-- PATCH_LOCK_GRANT (R150). -/
def Dev.patchLockGrant (d : Dev) (n : Nat) : Dev :=
  let b := ucsBase n
  if d.bit b .UCS_PATCH_STAT_LOCK_PEND ∧ ((List.range 32).any (fun i => d.ctxOwning (32 * n + i))) = false ∧ (d.running n).isNone = true ∧ d.lcsState ≠ 4 then
    (d.setb b .UCS_PATCH_STAT_LOCK_PEND false).setb b .UCS_PATCH_STAT_LOCKED true
  else d

end Sys2Proof.Machine
end

