-- ==== Sys2Proof/Machine/ExecMicro.lean ====
section
/-! DEFINITION. The meanings of the commands whose work is in Machine/Micro.lean: one definition for each command. -/

namespace Sys2Proof.Machine

/-- TAIL_OVF (R143). -/
def execTailOvf (n : Fin 32) (st : State) : Host.Outcome State Fault Refusal :=
  upd st (fun m d => d.tailOvf m n.val)

/-- MICRO_NOP (R131). -/
def execUNop (n : Fin 32) (w : BitVec 15) (st : State) : Host.Outcome State Fault Refusal :=
  upd st (fun m d => d.uop m n.val 0x00 w.toNat)

/-- LDI (R131). -/
def execULdi (n : Fin 32) (w : BitVec 15) (st : State) : Host.Outcome State Fault Refusal :=
  upd st (fun m d => d.uop m n.val 0x01 w.toNat)

/-- LUI (R131). -/
def execULui (n : Fin 32) (w : BitVec 15) (st : State) : Host.Outcome State Fault Refusal :=
  upd st (fun m d => d.uop m n.val 0x02 w.toNat)

/-- MOV (R131). -/
def execUMov (n : Fin 32) (w : BitVec 15) (st : State) : Host.Outcome State Fault Refusal :=
  upd st (fun m d => d.uop m n.val 0x03 w.toNat)

/-- ADD (R131). -/
def execUAdd (n : Fin 32) (w : BitVec 15) (st : State) : Host.Outcome State Fault Refusal :=
  upd st (fun m d => d.uop m n.val 0x04 w.toNat)

/-- SUB (R131). -/
def execUSub (n : Fin 32) (w : BitVec 15) (st : State) : Host.Outcome State Fault Refusal :=
  upd st (fun m d => d.uop m n.val 0x05 w.toNat)

/-- ADDI (R131). -/
def execUAddi (n : Fin 32) (w : BitVec 15) (st : State) : Host.Outcome State Fault Refusal :=
  upd st (fun m d => d.uop m n.val 0x06 w.toNat)

/-- AND (R131). -/
def execUAnd (n : Fin 32) (w : BitVec 15) (st : State) : Host.Outcome State Fault Refusal :=
  upd st (fun m d => d.uop m n.val 0x07 w.toNat)

/-- OR (R131). -/
def execUOr (n : Fin 32) (w : BitVec 15) (st : State) : Host.Outcome State Fault Refusal :=
  upd st (fun m d => d.uop m n.val 0x08 w.toNat)

/-- XOR (R131). -/
def execUXor (n : Fin 32) (w : BitVec 15) (st : State) : Host.Outcome State Fault Refusal :=
  upd st (fun m d => d.uop m n.val 0x09 w.toNat)

/-- SHF (R131). -/
def execUShf (n : Fin 32) (w : BitVec 15) (st : State) : Host.Outcome State Fault Refusal :=
  upd st (fun m d => d.uop m n.val 0x0a w.toNat)

/-- CMP (R131). -/
def execUCmp (n : Fin 32) (w : BitVec 15) (st : State) : Host.Outcome State Fault Refusal :=
  upd st (fun m d => d.uop m n.val 0x0b w.toNat)

/-- SKIP (R132). -/
def execUSkip (n : Fin 32) (w : BitVec 15) (st : State) : Host.Outcome State Fault Refusal :=
  upd st (fun m d => d.uop m n.val 0x0c w.toNat)

/-- MICRO_JMP (R131). -/
def execUJmp (n : Fin 32) (w : BitVec 15) (st : State) : Host.Outcome State Fault Refusal :=
  upd st (fun m d => d.uop m n.val 0x0d w.toNat)

/-- CALLU (R131). -/
def execUCallu (n : Fin 32) (w : BitVec 15) (st : State) : Host.Outcome State Fault Refusal :=
  upd st (fun m d => d.uop m n.val 0x0e w.toNat)

/-- RETU (R131). -/
def execURetu (n : Fin 32) (w : BitVec 15) (st : State) : Host.Outcome State Fault Refusal :=
  upd st (fun m d => d.uop m n.val 0x0f w.toNat)

/-- DISP (R131). -/
def execUDisp (n : Fin 32) (w : BitVec 15) (st : State) : Host.Outcome State Fault Refusal :=
  upd st (fun m d => d.uop m n.val 0x10 w.toNat)

/-- RDIMG (R129). -/
def execURdimg (n : Fin 32) (w : BitVec 15) (st : State) : Host.Outcome State Fault Refusal :=
  upd st (fun m d => d.uop m n.val 0x11 w.toNat)

/-- FLD (R131). -/
def execUFld (n : Fin 32) (w : BitVec 15) (st : State) : Host.Outcome State Fault Refusal :=
  upd st (fun m d => d.uop m n.val 0x12 w.toNat)

/-- RDCS (R131). -/
def execURdcs (n : Fin 32) (w : BitVec 15) (st : State) : Host.Outcome State Fault Refusal :=
  upd st (fun m d => d.uop m n.val 0x13 w.toNat)

/-- WRCS (R131). -/
def execUWrcs (n : Fin 32) (w : BitVec 15) (st : State) : Host.Outcome State Fault Refusal :=
  upd st (fun m d => d.uop m n.val 0x14 w.toNat)

/-- FRM_PUSH_LOOP (R132). -/
def execUFrmPushLoop (n : Fin 32) (w : BitVec 15) (st : State) : Host.Outcome State Fault Refusal :=
  upd st (fun m d => d.uop m n.val 0x15 (uFn w 0 7))

/-- FRM_PUSH_MATCH (R132). -/
def execUFrmPushMatch (n : Fin 32) (w : BitVec 15) (st : State) : Host.Outcome State Fault Refusal :=
  upd st (fun m d => d.uop m n.val 0x15 (uFn w 1 7))

/-- FRM_PUSH_RETURN (R132). -/
def execUFrmPushReturn (n : Fin 32) (w : BitVec 15) (st : State) : Host.Outcome State Fault Refusal :=
  upd st (fun m d => d.uop m n.val 0x15 (uFn w 2 7))

/-- FRM_POP (R132). -/
def execUFrmPop (n : Fin 32) (w : BitVec 15) (st : State) : Host.Outcome State Fault Refusal :=
  upd st (fun m d => d.uop m n.val 0x15 (uFn w 3 7))

/-- FRM_TOP_OP (R132). -/
def execUFrmTopOp (n : Fin 32) (w : BitVec 15) (st : State) : Host.Outcome State Fault Refusal :=
  upd st (fun m d => d.uop m n.val 0x15 (uFn w 4 7))

/-- FRM_TOP_COUNT (R132). -/
def execUFrmTopCount (n : Fin 32) (w : BitVec 15) (st : State) : Host.Outcome State Fault Refusal :=
  upd st (fun m d => d.uop m n.val 0x15 (uFn w 5 7))

/-- FRM_TOP_KIND (R132). -/
def execUFrmTopKind (n : Fin 32) (w : BitVec 15) (st : State) : Host.Outcome State Fault Refusal :=
  upd st (fun m d => d.uop m n.val 0x15 (uFn w 6 7))

/-- FRM_SET_COUNT (R132). -/
def execUFrmSetCount (n : Fin 32) (w : BitVec 15) (st : State) : Host.Outcome State Fault Refusal :=
  upd st (fun m d => d.uop m n.val 0x15 (uFn w 7 7))

/-- HREAD (R131). -/
def execUHread (n : Fin 32) (w : BitVec 15) (st : State) : Host.Outcome State Fault Refusal :=
  upd st (fun m d => d.uop m n.val 0x16 w.toNat)

/-- DSET (R132). -/
def execUDset (n : Fin 32) (w : BitVec 15) (st : State) : Host.Outcome State Fault Refusal :=
  upd st (fun m d => d.uop m n.val 0x17 w.toNat)

/-- DACT_ACQ (R132). -/
def execUDactAcq (n : Fin 32) (w : BitVec 15) (st : State) : Host.Outcome State Fault Refusal :=
  upd st (fun m d => d.uop m n.val 0x18 (uFn w 0 4))

/-- DACT_LDSTB (R132). -/
def execUDactLdstb (n : Fin 32) (w : BitVec 15) (st : State) : Host.Outcome State Fault Refusal :=
  upd st (fun m d => d.uop m n.val 0x18 (uFn w 1 4))

/-- DACT_MARK (R132). -/
def execUDactMark (n : Fin 32) (w : BitVec 15) (st : State) : Host.Outcome State Fault Refusal :=
  upd st (fun m d => d.uop m n.val 0x18 (uFn w 2 4))

/-- DACT_SYSTIME (R132). -/
def execUDactSystime (n : Fin 32) (w : BitVec 15) (st : State) : Host.Outcome State Fault Refusal :=
  upd st (fun m d => d.uop m n.val 0x18 (uFn w 3 4))

/-- DACT_MATCH (R132). -/
def execUDactMatch (n : Fin 32) (w : BitVec 15) (st : State) : Host.Outcome State Fault Refusal :=
  upd st (fun m d => d.uop m n.val 0x18 (uFn w 4 4))

/-- DLEAF (R137). -/
def execUDleaf (n : Fin 32) (w : BitVec 15) (st : State) : Host.Outcome State Fault Refusal :=
  upd st (fun m d => d.uop m n.val 0x19 w.toNat)

/-- RDREG (R131). -/
def execURdreg (n : Fin 32) (w : BitVec 15) (st : State) : Host.Outcome State Fault Refusal :=
  upd st (fun m d => d.uop m n.val 0x1a w.toNat)

/-- WRREG (R131). -/
def execUWrreg (n : Fin 32) (w : BitVec 15) (st : State) : Host.Outcome State Fault Refusal :=
  upd st (fun m d => d.uop m n.val 0x1b w.toNat)

/-- COMMIT_STAGE (R142). -/
def execUCommitStage (n : Fin 32) (w : BitVec 15) (st : State) : Host.Outcome State Fault Refusal :=
  upd st (fun m d => d.uop m n.val 0x1c (w.toNat / 2 * 2))

/-- COMMIT_FINAL (R142). -/
def execUCommitFinal (n : Fin 32) (w : BitVec 15) (st : State) : Host.Outcome State Fault Refusal :=
  upd st (fun m d => d.uop m n.val 0x1c (w.toNat / 2 * 2 + 1))

/-- EXIT (R143). -/
def execUExit (n : Fin 32) (w : BitVec 15) (st : State) : Host.Outcome State Fault Refusal :=
  upd st (fun m d => d.uop m n.val 0x1d w.toNat)

/-- HALT (R131). -/
def execUHalt (n : Fin 32) (w : BitVec 15) (st : State) : Host.Outcome State Fault Refusal :=
  upd st (fun m d => d.uop m n.val 0x1e w.toNat)

/-- FLT (R131). -/
def execUFlt (n : Fin 32) (w : BitVec 15) (st : State) : Host.Outcome State Fault Refusal :=
  upd st (fun m d => d.uop m n.val 0x1f w.toNat)

/-- PATCH_LOCK_GRANT (R150). -/
def execPatchLockGrant (n : Fin 32) (st : State) : Host.Outcome State Fault Refusal :=
  upd st (fun _ d => d.patchLockGrant n.val)

end Sys2Proof.Machine
end

