-- ==== Sys2Proof/Machine/ExecMsl.lean ====
section
/-! DEFINITION. The meanings of the commands whose work is in Machine/Msl.lean: one definition for each command. -/

namespace Sys2Proof.Machine

/-- AUTO_ROOT_TIMEOUT (R339). -/
def execAutoRootTimeout (st : State) : Host.Outcome State Fault Refusal :=
  upd st (fun _ d => d.autoRootTimeout)

/-- PORT_SIGNAL (R344). -/
def execPortSignal (q : Fin 4) (st : State) : Host.Outcome State Fault Refusal :=
  upd st (fun _ d => d.portSignal q.val)

/-- TRAIN_TIMEOUT (R344). -/
def execTrainTimeout (q : Fin 4) (st : State) : Host.Outcome State Fault Refusal :=
  upd st (fun _ d => d.trainTimeout q.val)

/-- ENUMERATION (R341). -/
def execEnumeration (st : State) : Host.Outcome State Fault Refusal :=
  upd st (fun _ d => d.enumeration)

/-- SYNC_LOSS (R345). -/
def execSyncLoss (q : Fin 4) (w : BitVec 128) (st : State) : Host.Outcome State Fault Refusal :=
  upd st (fun _ d => d.syncLoss q.val w.toNat)

/-- RETRAIN_DONE (R346). -/
def execRetrainDone (q : Fin 4) (moved : Bool) (st : State) : Host.Outcome State Fault Refusal :=
  upd st (fun _ d => d.retrainDone q.val moved)

/-- CAL_PERIOD (R349). -/
def execCalPeriod (st : State) : Host.Outcome State Fault Refusal :=
  upd st (fun _ d => d.calPeriod)

/-- DELAY_CAL_DONE (R350). -/
def execDelayCalDone (ppb : BitVec 32) (st : State) : Host.Outcome State Fault Refusal :=
  upd st (fun _ d => d.delayCalDone ppb)

/-- TIME_SLEW (R350). -/
def execTimeSlew (st : State) : Host.Outcome State Fault Refusal :=
  upd st (fun _ d => d.timeSlew)

/-- PORT_DOWN (R351). -/
def execPortDown (q : Fin 4) (st : State) : Host.Outcome State Fault Refusal :=
  upd st (fun _ d => d.portDown q.val)

/-- BARRIER_RELEASE_EFFECT (R359). -/
def execBarrierReleaseEffect (b : Fin 8) (st : State) : Host.Outcome State Fault Refusal :=
  upd st (fun _ d => d.barReleaseEffect b.val)

/-- TRIG_OUT_PULSE_END (R360). -/
def execTrigOutPulseEnd (i : Fin 2) (st : State) : Host.Outcome State Fault Refusal :=
  upd st (fun _ d => d.trigOutEnd i.val)

end Sys2Proof.Machine
end

