-- ==== Sys2Proof/Machine/MspRows.lean ====
section
/-! DEFINITION. The management serial port (20_management_port.md): words and frames, the status word, violations, master transfers. -/

namespace Sys2Proof.Machine

/-- The busy word (R451, R453). -/
def mspBusyWord : Nat := 0xC3C3C3C3

/-- The slave cannot accept a command (R453): clocks in START or WAIT_REF, or a reset that is not complete. -/
def Dev.mspBusy (d : Dev) : Bool := !d.pow.stop && (decide (d.clkState < 2) || d.rst.busy.isSome)

/-- The port is powered and in slave mode. -/
def Dev.mspSlave (d : Dev) : Bool := !d.bit mspB .MSP_CFG_MASTER && !d.coldHeld

/-- STATE of the status word (R454). -/
def Dev.mspState (d : Dev) : Nat := if d.pow.stop then 4 else [0, 0, 1, 2, 3].getD d.clkState 0

/-- The status word (R454). -/
def Dev.mspStatus (d : Dev) : Nat :=
  9 * 2 ^ 28 + d.mspState * 2 ^ 24 + d.get fltB .FLT_FIRST_VALID * 2 ^ 23 + d.msp.flags % 64 * 2 ^ 16 + d.word (mspB + 0x48) % 256

/-- Raise a flag of the next status word: 0 SHORT, 1 BAD_CMD, 2 OVERRUN, 3 GAP, 4 ACC_ERR, 5 NOT_READY. -/
def Dev.mspFlag (d : Dev) (i : Nat) : Dev := { d with msp := { d.msp with flags := setBits d.msp.flags i 1 1 } }

/-- A protocol violation (R455): code 1 SHORT, 2 BAD_CMD, 3 OVERRUN, 4 GAP; the first is captured with the command word of its frame. -/
def Dev.mspViol (d : Dev) (code cmd : Nat) : Dev :=
  let d := (d.mspFlag (code - 1)).satInc mspB .MSP_VIOL_CNT_COUNT
  if d.bit mspB .MSP_VIOL_FIRST_VALID then d
  else (((d.setb mspB .MSP_VIOL_FIRST_VALID true).put mspB .MSP_VIOL_FIRST_CAUSE code).put mspB .MSP_VIOL_CMD_WORD cmd).irq .msp mspB 1

/-- A frame completes. -/
def Dev.mspComplete (d : Dev) : Dev := (d.satInc mspB .MSP_FRAME_CNT_COUNT).mspEnd

/-- A frame opens; its data words follow. -/
def Dev.mspOpen (d : Dev) (cmd : Nat) (drop : Bool) : Dev := { d with msp := { d.msp with cmd := some cmd, rd := [], got := 0, prev := cmd, drop := drop } }

/-- A command word (R452, R455). -/
def Dev.mspCommand (d : Dev) (w : Nat) : Dev :=
  let op := w / 2 ^ 28
  let n := w / 2 ^ 24 % 16
  let a := w % 2 ^ 24
  let bad := decide (4 ≤ op) || ((op == 1 || op == 2) && (a % 4 != 0 || decide (0xFFFFFC < a + 4 * n))) || (op == 3 && a != 0xA55A)
  if bad then
    let d := d.mspViol 2 w
    if op = 2 then d.mspOpen w true else d
  else if op = 0 then d.mspComplete
  else if op = 3 then (if d.pow.stop then d.mspComplete.hibExit 5 else d.mspComplete)
  else if d.pow.stop ∨ d.clkState = 4 then
    let d := d.mspFlag 5
    if op = 2 then d.mspOpen w true else d
  else if op = 1 then (d.mspOpen w false).mspAcc { port := .msp, addr := a, wide := false, write := false, val := 0, frame := some (n + 1) }
  else d.mspOpen w false

/-- What a selection shifts out (R451 to R453): its word, and the busy word on edges beyond the 32nd, which are a violation of the frame of `cmd`. -/
def Dev.mspShift (d : Dev) (w cmd : Nat) (ovr : Bool) : Dev :=
  let d := d.emit (.mspOut w)
  if ovr then (d.emit (.mspOut mspBusyWord)).mspViol 3 cmd else d

/-- A selection within a READ frame (R452): its input is ignored; the busy word goes out until the data is ready. -/
def Dev.mspTake (d : Dev) (c : Nat) (ovr : Bool) : Dev :=
  match d.msp.rd with
  | [] => d.mspShift mspBusyWord c ovr
  | x :: xs =>
    let d := { d.mspShift x c ovr with msp := { (d.mspShift x c ovr).msp with rd := xs } }
    if xs = [] then d.mspComplete else d

/-- A data word of a WRITE frame (R452): it is applied, unless the frame is discarded; the word before it is echoed. -/
def Dev.mspGive (d : Dev) (c w : Nat) (ovr : Bool) : Dev :=
  let d := d.mspShift d.msp.prev c ovr
  let k := d.msp.got
  let d := { d with msp := { d.msp with got := k + 1, prev := w } }
  let d := if d.msp.drop then d else d.mspAcc { port := .msp, addr := c % 2 ^ 24 + 4 * k, wide := false, write := true, val := w }
  if k = c / 2 ^ 24 % 16 ∧ d.msp.cmd = some c then (if d.msp.drop then d.mspEnd else d.mspComplete) else d

/-- One complete word (R451 to R454); `ovr` tells of clock edges beyond the 32nd. -/
def Dev.mspWord (d : Dev) (w : Nat) (ovr : Bool) : Dev :=
  if ¬ d.mspSlave then d
  else match d.msp.cmd with
    | none =>
      if d.mspBusy ∨ d.hif.held.any (fun h => h.port == .msp) = true then d.mspShift mspBusyWord w ovr
      else
        let st := d.mspStatus
        (({ d with msp := { d.msp with flags := 0 } }.mspShift st w ovr)).mspCommand w
    | some c => if c / 2 ^ 28 = 1 then d.mspTake c ovr else d.mspGive c w ovr

/-- MSP_NOP, MSP_READ, MSP_WRITE and MSP_WAKE: words are shifted in, the first as a command word unless a frame is open; each word means what
its place and its bits say, and tells whether its selection has edges beyond the 32nd. -/
def Dev.mspFrame (d : Dev) (cmd : Nat) (ovr : Bool) (ws : List (Nat × Bool)) : Dev := ws.foldl (fun d w => d.mspWord w.1 w.2) (d.mspWord cmd ovr)

/-- A frame is cut: a violation, and its end. -/
def Dev.mspCut (d : Dev) (code : Nat) : Dev :=
  match d.msp.cmd with
  | some c => (d.mspViol code c).mspEnd
  | none => d

/-- MSP_SHORT_WORD (R451, R453): the select is released early; the partial word is discarded and the frame ends. The command word of a frame whose
command word is itself partial is a free value. -/
def Dev.mspShortWord (d : Dev) : Dev :=
  if ¬ d.mspSlave then d
  else
    let d := d.satInc mspB .MSP_FRAME_ERR_COUNT
    match d.msp.cmd with
    | some _ => d.mspCut 1
    | none => let r := d.takeFree (2 ^ 32); (r.1.mspViol 1 r.2).mspEnd

/-- MSP_FRAME_TIMEOUT (R453): a gap within a frame; what has arrived stands, the frame ends. -/
def Dev.mspFrameTimeout (d : Dev) : Dev := if d.mspSlave then d.mspCut 4 else d

/-- MSP_MASTER_DONE (R457): the bits taken stand in MSP_M_RX; with HOLD = 0 the select is released. -/
def Dev.mspMasterDone (d : Dev) (rx : Nat) : Dev :=
  if d.bit mspB .MSP_M_CTRL_BUSY then
    let n := d.mspBits
    let d := { d with msp := { d.msp with sel := if d.bit mspB .MSP_M_CTRL_HOLD then d.msp.sel else none } }
    ((d.setWord (mspB + 0x68) (setBits (d.word (mspB + 0x68)) 0 n rx)).setb mspB .MSP_M_CTRL_BUSY false).irq .msp mspB 0
  else d

/-- CS_CONFLICT (R458): select 0 is sensed low in master mode while not driven. -/
def Dev.csConflict (d : Dev) : Dev :=
  if d.bit mspB .MSP_CFG_MASTER = true ∧ d.msp.sel ≠ some 0 then (d.fltBit mspB 0).faultSrc 0x0E 0 0 else d

end Sys2Proof.Machine
end

