-- ==== Sys2Proof/Machine/ExecMspRows.lean ====
section
/-! DEFINITION. The meanings of the commands whose work is in Machine/MspRows.lean: one definition for each command. -/

namespace Sys2Proof.Machine

/-- MSP_NOP (R452). -/
def execMspNop (cmd : Word) (ovr : Bool) (st : State) : Host.Outcome State Fault Refusal :=
  upd st (fun _ d => d.mspFrame cmd.toNat ovr [])

/-- MSP_READ (R452). -/
def execMspRead (cmd : Word) (sel : Bool × List Bool) (st : State) : Host.Outcome State Fault Refusal :=
  upd st (fun _ d => d.mspFrame cmd.toNat sel.1 (sel.2.map (fun o => (0, o))))

/-- MSP_WRITE (R452). -/
def execMspWrite (cmd : Word) (ws : List (Word × Bool)) (ovr : Bool) (st : State) : Host.Outcome State Fault Refusal :=
  upd st (fun _ d => d.mspFrame cmd.toNat ovr (ws.map (fun w => (w.1.toNat, w.2))))

/-- MSP_WAKE (R456). -/
def execMspWake (cmd : Word) (ovr : Bool) (st : State) : Host.Outcome State Fault Refusal :=
  upd st (fun _ d => d.mspFrame cmd.toNat ovr [])

/-- MSP_SHORT_WORD (R451). -/
def execMspShortWord (st : State) : Host.Outcome State Fault Refusal :=
  upd st (fun _ d => d.mspShortWord)

/-- MSP_FRAME_TIMEOUT (R453). -/
def execMspFrameTimeout (st : State) : Host.Outcome State Fault Refusal :=
  upd st (fun _ d => d.mspFrameTimeout)

/-- MSP_MASTER_DONE (R457). -/
def execMspMasterDone (rx : Word) (st : State) : Host.Outcome State Fault Refusal :=
  upd st (fun _ d => d.mspMasterDone rx.toNat)

/-- CS_CONFLICT (R458). -/
def execCsConflict (st : State) : Host.Outcome State Fault Refusal :=
  upd st (fun _ d => d.csConflict)

end Sys2Proof.Machine
end

