-- ==== Sys2Proof/Machine/ExecPatStore.lean ====
section
/-! DEFINITION. The meanings of the commands whose work is in Machine/PatStore.lean: one definition for each command. -/

namespace Sys2Proof.Machine

/-- BAR2_READ (R158). -/
def execBar2Read (a : BitVec 36) (len : B2Read) (st : State) : Host.Outcome State Fault Refusal :=
  upd st (fun m d => d.bar2Read m a.toNat len)

/-- BAR2_WRITE (R158). -/
def execBar2Write (a : BitVec 36) (bs : List Byte) (s : State) : Host.Outcome State Fault Refusal :=
  updS s (fun s => bar2Write s a.toNat bs)

/-- PATTERN_STORE_READY (R161). -/
def execPatternStoreReady (s : State) : Host.Outcome State Fault Refusal :=
  updS s (fun s => patternStoreReady s)

/-- FILL_REQUEST (R165). -/
def execFillRequest (c : Fin 1024) (st : State) : Host.Outcome State Fault Refusal :=
  upd st (fun m d => d.fillRequest m c.val)

/-- FILL_COMPLETE (R167). -/
def execFillComplete (c : Fin 1024) (err : Fin 4) (st : State) : Host.Outcome State Fault Refusal :=
  upd st (fun m d => d.fillComplete m c.val err.val)

/-- GEYSER (R176). -/
def execGeyser (q : Fin 16) (desc : BitVec 128) (bs : List Byte) (err : Bool) (s : State) : Host.Outcome State Fault Refusal :=
  updS s (fun s => geyser s q.val desc.toNat bs err)

/-- GEYSER_DONE (R176). -/
def execGeyserDone (q : Fin 16) (st : State) : Host.Outcome State Fault Refusal :=
  upd st (fun _ d => d.geyserDone q.val)

/-- STREAM_RESUME (R174). -/
def execStreamResume (q : Fin 16) (bs : List Byte) (s : State) : Host.Outcome State Fault Refusal :=
  updS s (fun s => streamResume s q.val bs)

/-- HBM_FAIL (R178). -/
def execHbmFail (b : Bool) (st : State) : Host.Outcome State Fault Refusal :=
  upd st (fun _ d => d.hbmFail b)

end Sys2Proof.Machine
end

