-- ==== Sys2Proof/Machine/ExecPin.lean ====
section
/-! DEFINITION. The meanings of the commands whose work is in Machine/Pin.lean: one definition for each command. -/

namespace Sys2Proof.Machine

/-- LEVEL_SLEW_STEP (R60). -/
def execLevelSlewStep (g : Fin 1024) (st : State) : Host.Outcome State Fault Refusal :=
  upd st (fun _ d => levelSlewStep d g.val)

/-- SPAN_SWITCH (R61). -/
def execSpanSwitch (g : Fin 1024) (st : State) : Host.Outcome State Fault Refusal :=
  upd st (fun _ d => spanSwitch d g.val)

/-- COMPARATOR_SETTLED (R70). -/
def execComparatorSettled (g : Fin 1024) (st : State) : Host.Outcome State Fault Refusal :=
  upd st (fun _ d => comparatorSettled d g.val)

/-- BLANK_WINDOW (R73). -/
def execBlankWindow (r : Fin 8) (b : Fin 4) (start : Bool) (st : State) : Host.Outcome State Fault Refusal :=
  upd st (fun _ d => blankWindow d r.val b.val start)

/-- CLAMP_CONDUCTION (R65). -/
def execClampConduction (g : Fin 1024) (v : Int) (st : State) : Host.Outcome State Fault Refusal :=
  upd st (fun _ d => clampConduction d g.val v)

end Sys2Proof.Machine
end

