-- ==== Sys2Proof/Machine/ExecPmc.lean ====
section
/-! DEFINITION. The meanings of the commands whose work is in Machine/Pmc.lean: one definition for each command. -/

namespace Sys2Proof.Machine

/-- PMC_DUMP (R462). -/
def execPmcDump (st : State) : Host.Outcome State Fault Refusal :=
  upd st (fun _ d => d.pmcDump)

end Sys2Proof.Machine
end

