-- ==== Sys2Proof/Machine/ExecPmuRows.lean ====
section
/-! DEFINITION. The meanings of the commands whose work is in Machine/PmuRows.lean: one definition for each command. -/

namespace Sys2Proof.Machine

/-- SPAN_DONE (R61). -/
def execSpanDone (g : Fin 1024) (st : State) : Host.Outcome State Fault Refusal :=
  upd st (fun _ d => spanDone d g.val)

/-- ENABLE_SETTLED (R89). -/
def execEnableSettled (g : Fin 1024) (st : State) : Host.Outcome State Fault Refusal :=
  upd st (fun _ d => enableSettledAll d g.val)

/-- PARK_COMPLETE (R90). -/
def execParkComplete (g : Fin 1024) (st : State) : Host.Outcome State Fault Refusal :=
  upd st (fun _ d => parkComplete d g.val)

/-- PIN_FAULT_DETECT (R66). -/
def execPinFaultDetect (g : Fin 1024) (b : Fin 3) (st : State) : Host.Outcome State Fault Refusal :=
  upd st (fun _ d => pinFaultDetect d g.val b.val)

/-- PMU_SWITCH_STEP (R195). -/
def execPmuSwitchStep (g : Fin 1024) (track : BitVec 20) (st : State) : Host.Outcome State Fault Refusal :=
  upd st (fun _ d => pmuSwitchStep d g.val track.toNat)

/-- PMU_SLEW_STEP (R191). -/
def execPmuSlewStep (g : Fin 1024) (st : State) : Host.Outcome State Fault Refusal :=
  upd st (fun _ d => pmuSlewStep d g.val)

/-- PMU_SEQ_END (R198). -/
def execPmuSeqEnd (g : Fin 1024) (st : State) : Host.Outcome State Fault Refusal :=
  upd st (fun _ d => pmuSeqEnd d g.val)

/-- PMU_CONVERSION (R206). -/
def execPmuConversion (g : Fin 1024) (x : BitVec 24) (overlap : Bool) (st : State) : Host.Outcome State Fault Refusal :=
  upd st (fun _ d => pmuConversion d g.val x.toInt overlap)

/-- PMU_SINE_UPDATE (R211). -/
def execPmuSineUpdate (g : Fin 1024) (st : State) : Host.Outcome State Fault Refusal :=
  upd st (fun _ d => pmuSineUpdate d g.val)

/-- PMU_FAULT_DETECT (R215). -/
def execPmuFaultDetect (g : Fin 1024) (sw : Bool) (st : State) : Host.Outcome State Fault Refusal :=
  upd st (fun _ d => pmuFaultDetect d g.val sw)

/-- PMU_CLAMP_ACT (R185). -/
def execPmuClampAct (g : Fin 1024) (high : Bool) (st : State) : Host.Outcome State Fault Refusal :=
  upd st (fun _ d => pmuClampAct d g.val high)

end Sys2Proof.Machine
end

