-- ==== Sys2Proof/Machine/ExecPump.lean ====
section
/-! DEFINITION. The meanings of the commands whose work is in Machine/Pump.lean: one definition for each command. -/

namespace Sys2Proof.Machine

/-- VECTOR_EMIT (R78). -/
def execVectorEmit (c : Fin 1024) (smp : List (BitVec 2)) (st : State) : Host.Outcome State Fault Refusal :=
  upd st (fun m d => d.vectorEmit m c.val smp)

/-- DECISION_LATCH (R138). -/
def execDecisionLatch (c : Fin 1024) (st : State) : Host.Outcome State Fault Refusal :=
  upd st (fun m d => d.decisionLatch m c.val)

/-- GRANULE_BOUNDARY (R18). -/
def execGranuleBoundary (c : Fin 1024) (st : State) : Host.Outcome State Fault Refusal :=
  upd st (fun m d => d.granuleBoundary m c.val)

/-- DRV_L (R82). -/
def execDrvL (g : Fin 1024) (st : State) : Host.Outcome State Fault Refusal :=
  upd st (fun _ d => d.actDrive g.val 1)

/-- DRV_H (R82). -/
def execDrvH (g : Fin 1024) (st : State) : Host.Outcome State Fault Refusal :=
  upd st (fun _ d => d.actDrive g.val 2)

/-- DRV_T (R82). -/
def execDrvT (g : Fin 1024) (st : State) : Host.Outcome State Fault Refusal :=
  upd st (fun _ d => d.actDrive g.val 3)

/-- DRV_Z (R82). -/
def execDrvZ (g : Fin 1024) (st : State) : Host.Outcome State Fault Refusal :=
  upd st (fun _ d => d.actDrive g.val 4)

/-- CMP_L (R82). -/
def execCmpL (g : Fin 1024) (x : BitVec 2) (st : State) : Host.Outcome State Fault Refusal :=
  upd st (fun _ d => d.actCmp g.val 0 x)

/-- CMP_H (R82). -/
def execCmpH (g : Fin 1024) (x : BitVec 2) (st : State) : Host.Outcome State Fault Refusal :=
  upd st (fun _ d => d.actCmp g.val 1 x)

/-- CMP_M (R82). -/
def execCmpM (g : Fin 1024) (x : BitVec 2) (st : State) : Host.Outcome State Fault Refusal :=
  upd st (fun _ d => d.actCmp g.val 2 x)

/-- CMP_X (R82). -/
def execCmpX (g : Fin 1024) (x : BitVec 2) (st : State) : Host.Outcome State Fault Refusal :=
  upd st (fun _ d => d.actCmp g.val 3 x)

/-- WIN_L (R84). -/
def execWinL (g : Fin 1024) (st : State) : Host.Outcome State Fault Refusal :=
  upd st (fun _ d => d.actWin g.val false)

/-- WIN_H (R84). -/
def execWinH (g : Fin 1024) (st : State) : Host.Outcome State Fault Refusal :=
  upd st (fun _ d => d.actWin g.val true)

/-- WIN_END (R82). -/
def execWinEnd (g : Fin 1024) (st : State) : Host.Outcome State Fault Refusal :=
  upd st (fun _ d => d.actWinEnd g.val)

/-- MARK (R82). -/
def execMarkAct (g : Fin 1024) (t : BitVec 64) (st : State) : Host.Outcome State Fault Refusal :=
  upd st (fun _ d => d.actMark g.val t.toNat)

/-- BAD_ACT (R82). -/
def execBadAct (g : Fin 1024) (st : State) : Host.Outcome State Fault Refusal :=
  upd st (fun _ d => d.actBad g.val)

end Sys2Proof.Machine
end

