-- ==== Sys2Proof/Machine/ExecPwr.lean ====
section
/-! DEFINITION. The meanings of the commands whose work is in Machine/Pwr.lean: one definition for each command. -/

namespace Sys2Proof.Machine

/-- IDLE_ENTRY (R402). -/
def execIdleEntry (n : Fin 32) (st : State) : Host.Outcome State Fault Refusal :=
  upd st (fun _ d => d.idleEntry n.val)

/-- IDLE_DWELL (R402). -/
def execIdleDwell (n : Fin 32) (st : State) : Host.Outcome State Fault Refusal :=
  upd st (fun _ d => d.idleDwell n.val)

/-- RETENTION_SAVE_DONE (R402). -/
def execRetentionSaveDone (n : Fin 32) (st : State) : Host.Outcome State Fault Refusal :=
  upd st (fun _ d => d.retentionSaveDone n.val)

/-- WAKE_ADMIT (R404). -/
def execWakeAdmit (st : State) : Host.Outcome State Fault Refusal :=
  upd st (fun _ d => d.wakeAdmit)

/-- HBM_SELF_REFRESH (R408). -/
def execHbmSelfRefresh (st : State) : Host.Outcome State Fault Refusal :=
  upd st (fun _ d => d.hbmSelfRefresh)

/-- D3HOT (R28). -/
def execD3hot (on : Bool) (st : State) : Host.Outcome State Fault Refusal :=
  upd st (fun _ d => d.d3hot on)

/-- DVFS_STEP (R411). -/
def execDvfsStep (mv : BitVec 10) (st : State) : Host.Outcome State Fault Refusal :=
  upd st (fun _ d => d.dvfsStep mv.toNat)

/-- DVFS_DONE (R411). -/
def execDvfsDone (st : State) : Host.Outcome State Fault Refusal :=
  upd st (fun _ d => d.dvfsDone)

/-- AVS_TRIM (R410). -/
def execAvsTrim (low : Bool) (st : State) : Host.Outcome State Fault Refusal :=
  upd st (fun _ d => d.avsTrim low)

/-- AVS_FRAME (R412). -/
def execAvsFrame (cause : Fin 5) (frame : BitVec 24) (mv : BitVec 10) (st : State) : Host.Outcome State Fault Refusal :=
  upd st (fun _ d => d.avsFrame cause.val frame.toNat mv.toNat)

/-- AVS_RETRY (R412). -/
def execAvsRetry (st : State) : Host.Outcome State Fault Refusal :=
  upd st (fun _ d => d.avsRetry)

end Sys2Proof.Machine
end

