-- ==== Sys2Proof/Machine/ExecRas.lean ====
section
/-! DEFINITION. The meanings of the commands whose work is in Machine/Ras.lean: one definition for each command. -/

namespace Sys2Proof.Machine

/-- RAS_PLL_LOCK (R326). -/
def execRasPllLock (st : State) : Host.Outcome State Fault Refusal :=
  upd st (fun _ d => d.rasPllLock)

/-- FRAME_START (R335). -/
def execFrameStart (st : State) : Host.Outcome State Fault Refusal :=
  upd st (fun _ d => d.frameStart)

/-- FRAME_END (R334). -/
def execFrameEnd (st : State) : Host.Outcome State Fault Refusal :=
  upd st (fun _ d => d.frameEnd)

/-- RAS_LINE_FETCH (R329). -/
def execRasLineFetch (lo hi : BitVec 14) (ecc : LineEcc) (st : State) : Host.Outcome State Fault Refusal :=
  upd st (fun m d => d.rasLineFetch m lo.toNat hi.toNat ecc)

end Sys2Proof.Machine
end

