-- ==== Sys2Proof/Machine/ExecRes.lean ====
section
/-! DEFINITION. The meanings of the commands whose work is in Machine/Res.lean: one definition for each command. -/

namespace Sys2Proof.Machine

/-- RING_WRITE (R312). -/
def execRingWrite (n : Fin 32) (st : State) : Host.Outcome State Fault Refusal :=
  upd st (fun _ d => d.ringWrite n.val)

/-- COAL_TIMER (R313). -/
def execCoalTimer (k : Fin 64) (st : State) : Host.Outcome State Fault Refusal :=
  upd st (fun _ d => d.coalTimer k.val)

/-- MAILBOX_PUSH (R314). -/
def execMailboxPush (n : Fin 32) (st : State) : Host.Outcome State Fault Refusal :=
  upd st (fun _ d => d.mailboxPush n.val)

end Sys2Proof.Machine
end

