-- ==== Sys2Proof/Machine/ExecReset.lean ====
section
/-! DEFINITION. The meanings of the commands whose work is in Machine/Reset.lean: one definition for each command. -/

namespace Sys2Proof.Machine

/-- REF_LOSS (R395). -/
def execRefLoss (st : State) : Host.Outcome State Fault Refusal :=
  upd st (fun _ d => d.refLoss)

/-- REF_RETURN (R397). -/
def execRefReturn (st : State) : Host.Outcome State Fault Refusal :=
  upd st (fun _ d => d.refReturn)

/-- BKOSC_FAIL (R393). -/
def execBkoscFail (st : State) : Host.Outcome State Fault Refusal :=
  upd st (fun _ d => d.bkoscFail)

/-- PLL_UNLOCK (R393). -/
def execPllUnlock (i : Fin 7) (st : State) : Host.Outcome State Fault Refusal :=
  upd st (fun _ d => d.pllUnlock i.val)

/-- WAKE_N (R403). -/
def execWakeN (st : State) : Host.Outcome State Fault Refusal :=
  upd st (fun _ d => d.wakeN)

/-- POR_N (R469). -/
def execPorN (st : State) : Host.Outcome State Fault Refusal :=
  upd st (fun _ d => d.porN)

/-- POR_N_RELEASE (R394). -/
def execPorNRelease (st : State) : Host.Outcome State Fault Refusal :=
  upd st (fun _ d => d.porNRelease)

/-- SUPPLY (R468). -/
def execSupply (st : State) : Host.Outcome State Fault Refusal :=
  upd st (fun _ d => d.supplyLow)

/-- PERST (R498). -/
def execPerst (st : State) : Host.Outcome State Fault Refusal :=
  upd st (fun _ d => d.perst)

/-- FLR (R28). -/
def execFlr (st : State) : Host.Outcome State Fault Refusal :=
  upd st (fun _ d => d.flr)

/-- LINK_UP (R472). -/
def execLinkUp (speed width : BitVec 4) (st : State) : Host.Outcome State Fault Refusal :=
  upd st (fun _ d => d.linkUp speed.toNat width.toNat)

/-- VAON_LOSS (R431). -/
def execVaonLoss (st : State) : Host.Outcome State Fault Refusal :=
  upd st (fun _ d => d.vaonLoss)

/-- SUPPLY_RETURN (R468). -/
def execSupplyReturn (st : State) : Host.Outcome State Fault Refusal :=
  upd st (fun _ d => d.supplyReturn)

/-- PERST_N_RELEASE (R472). -/
def execPerstNRelease (st : State) : Host.Outcome State Fault Refusal :=
  upd st (fun _ d => d.perstRelease)

/-- WARM_RESET_DONE (R469). -/
def execWarmResetDone (st : State) : Host.Outcome State Fault Refusal :=
  upd st (fun _ d => d.warmResetDone)

/-- PCIE_LINK_DOWN (R319). -/
def execPcieLinkDown (st : State) : Host.Outcome State Fault Refusal :=
  upd st (fun _ d => d.pcieLinkDown)

end Sys2Proof.Machine
end

