-- ==== Sys2Proof/Machine/ResetRows.lean ====
section
/-! DEFINITION. The JTAG port (R478). -/

namespace Sys2Proof.Machine

/-- JTAG instructions other than IDCODE and LCS_ACCESS act: neither SAFE-WAIT nor HIBERNATE holds. -/
def Dev.jtagUp (d : Dev) : Bool := d.clkState != 4 && !d.pow.stop

/-- IDCODE. -/
def Dev.jtagIdcode (d : Dev) : Dev :=
  d.emit (.jtag (d.fuse.step % 16 * 2 ^ 28 + (match d.fuse.code with | 0 => 0x004004D7 | 1 => 0x003004D7 | _ => 0x002004D7)))

/-- Bits as a number, the first shifted bit lowest. -/
def bitsNat : List Bool → Nat
  | [] => 0
  | b :: bs => (if b then 1 else 0) + 2 * bitsNat bs

/-- BYPASS: the bypass bit, captured as 0, goes out ahead of what is shifted in. -/
def Dev.jtagBypass (d : Dev) (tdi : List Bool) : Dev := if d.jtagUp ∧ tdi ≠ [] then d.emit (.jtag (bitsNat (false :: tdi.dropLast))) else d

/-- SAMPLE/PRELOAD: the cells of the balls go out (a free value: the balls are outside), and the cells are preloaded. -/
def Dev.jtagSample (d : Dev) (scan : List Bool) : Dev :=
  if d.jtagUp then
    let r := d.takeFree (2 ^ scan.length)
    { r.1 with rst := { r.1.rst with scan := scan } }.emit (.jtag r.2)
  else d

/-- A channel is parked at once (R88). -/
def Dev.parkNow (d : Dev) (g : Nat) : Dev :=
  let b := pinBase g
  let d := ((d.setCmpMode g .off).setb b .PG_CTRL_EN false).setb b .PIN_STAT_SPAN_BUSY false
  let d := ((d.setb b .PIN_STAT_SPAN_PEND false).put b .PIN_STAT_SPAN_NOW 1).setb b .PIN_STAT_PARKED true
  let d := d.setPin g { d.pin g with drv := .z, clamp := false, pull := true, phase := .idle, enaSpan := false, defer := none, blank := false, tgt := zeroLevels }
  (((d.setLvlNow g zeroLevels).releaseCmp g).pmuForceOff g).pmuPark g

/-- A device-power channel is parked at once (R88, R231). -/
def Dev.dpsParkNow (d : Dev) (k : Nat) : Dev := (d.dpsOffNow k 0).setb (dpsBase k) .PG_CTRL_EN false

/-- EXTEST: every pin and device-power channel is parked, and stays so until a warm reset. -/
def Dev.jtagExtest (d : Dev) : Dev :=
  if d.jtagUp then
    let d := d.forAll d.clusters (fun d n => ((clPins n).foldl Dev.parkNow d).forAll [2 * n, 2 * n + 1] Dev.dpsParkNow)
    { d with rst := { d.rst with extest := true } }
  else d

/-- LCS_ACCESS: a register of the LCS page is written or read. -/
def Dev.jtagLcs (d : Dev) (wr : Bool) (off v : Nat) : Dev :=
  match rowAt .lcs lcsB off with
  | some (row, hi) =>
    if off % 4 ≠ 0 then d
    else if wr then
      let r := d.regWrite hostFire .msp false .lcs lcsB off row (2 ^ 32 - 1) v
      if r.2 then r.1.logErr true .locked (lcsB + off) else r.1
    else
      let r := d.readReg .msp .lcs lcsB off row hi false
      r.1.emit (.jtag r.2)
  | none => d

end Sys2Proof.Machine
end

