-- ==== Sys2Proof/Machine/ExecResetRows.lean ====
section
/-! DEFINITION. The meanings of the commands whose work is in Machine/ResetRows.lean: one definition for each command. -/

namespace Sys2Proof.Machine

/-- IDCODE (R478). -/
def execIdcode (st : State) : Host.Outcome State Fault Refusal :=
  upd st (fun _ d => d.jtagIdcode)

/-- BYPASS (R478). -/
def execBypass (tdi : List Bool) (st : State) : Host.Outcome State Fault Refusal :=
  upd st (fun _ d => d.jtagBypass tdi)

/-- SAMPLE_PRELOAD (R478). -/
def execSamplePreload (scan : List Bool) (st : State) : Host.Outcome State Fault Refusal :=
  upd st (fun _ d => d.jtagSample scan)

/-- EXTEST (R478). -/
def execExtest (st : State) : Host.Outcome State Fault Refusal :=
  upd st (fun _ d => d.jtagExtest)

/-- LCS_ACCESS (R478). -/
def execLcsAccess (wr : Bool) (off : BitVec 12) (v : Word) (st : State) : Host.Outcome State Fault Refusal :=
  upd st (fun _ d => d.jtagLcs wr off.toNat v.toNat)

end Sys2Proof.Machine
end

