-- ==== Sys2Proof/Machine/ExecRoutines.lean ====
section
/-! DEFINITION. The meanings of the commands whose work is in Machine/Routines.lean: one definition for each command. -/

namespace Sys2Proof.Machine

/-- LOAD (R134). -/
def execRtLoad (n : Fin 32) (st : State) : Host.Outcome State Fault Refusal :=
  upd st (fun m d => d.rtLoad m n.val)

/-- ARM (R146). -/
def execRtArm (n : Fin 32) (st : State) : Host.Outcome State Fault Refusal :=
  upd st (fun m d => d.rtArm m n.val)

/-- START (R134). -/
def execRtStart (n : Fin 32) (st : State) : Host.Outcome State Fault Refusal :=
  upd st (fun m d => d.rtStart m n.val)

/-- DECIDE (R139). -/
def execRtDecide (n : Fin 32) (st : State) : Host.Outcome State Fault Refusal :=
  upd st (fun m d => d.rtDecide m n.val)

/-- REDIRECT (R140). -/
def execRtRedirect (n : Fin 32) (st : State) : Host.Outcome State Fault Refusal :=
  upd st (fun m d => d.rtRedirect m n.val)

/-- STOP (R140). -/
def execRtStop (n : Fin 32) (st : State) : Host.Outcome State Fault Refusal :=
  upd st (fun m d => d.rtStop m n.val)

/-- CLEAR (R134). -/
def execRtClear (n : Fin 32) (st : State) : Host.Outcome State Fault Refusal :=
  upd st (fun m d => d.rtClear m n.val)

/-- REACT (R147). -/
def execRtReact (n : Fin 32) (st : State) : Host.Outcome State Fault Refusal :=
  upd st (fun m d => d.rtReact m n.val)

/-- CAL_APPLY (R378). -/
def execRtCalApply (n : Fin 32) (st : State) : Host.Outcome State Fault Refusal :=
  upd st (fun m d => d.rtCalApply m n.val)

/-- PMC_SAMPLE (R461). -/
def execPmcSample (n : Fin 32) (st : State) : Host.Outcome State Fault Refusal :=
  upd st (fun _ d => d.pmcSample n.val)

end Sys2Proof.Machine
end

