-- ==== Sys2Proof/Machine/Sync.lean ====
section
/-! DEFINITION. Events of the pins and of the sync link that reach many consumers: trigger inputs (R187, R356), INDEX (R353, R358),
system ticks (R21, R354, R355) and triggers at their effect times (R357). -/

namespace Sys2Proof.Machine

/-- The first MTB tick at least 24 ns after now, at which an edge on a pin takes effect (24 ns is 39,321.6 fine units). -/
def Dev.edgeTick (d : Dev) : Nat := tickUp (d.time + 39322)

/-- A trigger has arrived for the JMPC ops of contexts that run (R115): bit 0 TRIG0, 1 TRIG1, 2 MSLTRIG. -/
def Dev.jmpcTrig (d : Dev) (bit : Nat) (p : Nat → Bool) : Dev :=
  d.forAll (d.allCtx.filter (fun c => d.ctxActive c && p c)) (fun d c => d.setCx c { d.cx c with trig := setBits (d.cx c).trig bit 1 1 })

/-- Trigger input `i` raises a trigger of the link if MSL_TIN_CFG maps it (R356). -/
def Dev.tinRaise (d : Dev) (i : Nat) : Dev :=
  if d.bit mslB (if i = 0 then .MSL_TIN_CFG_EN0 else .MSL_TIN_CFG_EN1) then
    d.trigRaise (d.get mslB (if i = 0 then .MSL_TIN_CFG_NUM0 else .MSL_TIN_CFG_NUM1)) d.edgeTick
  else d

/-- TRIG_IN_EDGE: a rising edge of trigger input `i` reaches every consumer that selects it (R96, R115, R187, R240, R262, R356, R360).
The strobes act on the first MTB tick at least 24 ns after the edge, and the command ends there. -/
def Dev.trigInEdge (d : Dev) (i : Nat) : Dev :=
  if d.clkState ≠ 2 then d
  else
    let t := d.edgeTick
    let d := ((d.tdcTrig i).wfgTrig i).tinRaise i
    let d := (d.jmpcTrig i (fun _ => true)).forAll (List.range 8) (fun d r => d.blankEvent r (i + 1))
    ({ d with time := t }).strobeReq d.clusters (2 + i) []

/-- INDEX_ASSERT (R353, R358): at the first MTB tick at least 24 ns after the edge, at the root a tick, and the touchdown event, as
MSL_INDEX_CFG says. -/
def Dev.indexAssert (d : Dev) : Dev :=
  if d.clkState ≠ 2 then d
  else
    let t := d.edgeTick
    let d := { d with time := t }
    let d := if d.bit mslB .MSL_INDEX_CFG_TICK ∧ d.isRoot then d.tickIssue t else d
    if d.bit mslB .MSL_INDEX_CFG_TD then d.tdRaise t else d

/-- The event of a list with the least effect time. -/
def firstEv : List LEv → Option LEv
  | [] => none
  | e :: l => match firstEv l with
    | some f => if f.eff < e.eff then some f else some e
    | none => some e

/-- SYSTICK_EFFECT (R21, R46, R354, R355): the earliest tick takes effect: the commits that wait for it apply on that MTB tick, or on
one after its arrival when it is late; contexts that they start are then late by as much. -/
def Dev.systickEffect (d : Dev) : Dev :=
  match firstEv d.lnk.ticks with
  | none => d
  | some e =>
    let t := e.due d.time
    let late := decide (e.eff < t)
    let d := { d with time := t, lnk := { d.lnk with ticks := d.lnk.ticks.erase e } }
    let d := if late = true ∧ e.late = false then (d.satInc mslB .MSL_TICK_LATE_CNT_COUNT).irq .msl mslB 2 else d
    let d := d.lateFrom late e.eff (fun d => d.forAll ((List.range 8).filter (fun s => d.txnWaits s 3 && (d.slot s).tick == some e.eff)) (fun d s => d.txnPoint hostFire s))
    d.toutFire 2 0

/-- The trigger number that JMPC MSLTRIG of context `c` uses (R364). -/
def Dev.ctxTrig (d : Dev) (c : Nat) : Nat := d.word (mslB + 0x800 + 4 * (c / 8)) / 16 ^ (c % 8) % 16

/-- MSL_TRIG_EFFECT (R357): a trigger acts at its effect time, or now when it is late. -/
def Dev.trigEffect (d : Dev) (t : Nat) : Dev :=
  match firstEv (d.lnk.trigs.filter (fun e => e.num == t)) with
  | none => d
  | some e =>
    let d := { d with time := e.due d.time, lnk := { d.lnk with trigs := d.lnk.trigs.erase e, acted := d.lnk.acted ++ [(t, e.eff)] } }
    let d := (d.setBitN mslB .MSL_TRIG_SEEN_TRIG t true).wfgMslTrig t d.time
    let d := d.forAll ((List.range 8).filter (fun r => d.get mslB .MSL_RANGE_TRIG_TRIG / 16 ^ r % 16 == t)) (fun d r => d.blankEvent r 3)
    let d := (d.jmpcTrig 2 (fun c => d.ctxTrig c == t)).toutFire 1 t
    d.strobeReq (d.clusters.filter (fun n => d.get (wfgBase n) .WFG_STB_CFG_MSL_SEL == t)) 4 []

end Sys2Proof.Machine
end

