-- ==== Sys2Proof/Machine/ExecSync.lean ====
section
/-! DEFINITION. The meanings of the commands whose work is in Machine/Sync.lean: one definition for each command. -/

namespace Sys2Proof.Machine

/-- TRIG_IN_EDGE (R187). -/
def execTrigInEdge (i : Fin 2) (st : State) : Host.Outcome State Fault Refusal :=
  upd st (fun _ d => d.trigInEdge i.val)

/-- TRAIN (R340). -/
def execTrain (q : Fin 4) (w : BitVec 128) (st : State) : Host.Outcome State Fault Refusal :=
  upd st (fun _ d => d.linkRx q.val 12 w.toNat 0)

/-- IDLE (R342). -/
def execIdle (q : Fin 4) (w : BitVec 128) (st : State) : Host.Outcome State Fault Refusal :=
  upd st (fun _ d => d.linkRx q.val 0 w.toNat 0)

/-- ACK (R343). -/
def execAck (q : Fin 4) (w : BitVec 128) (st : State) : Host.Outcome State Fault Refusal :=
  upd st (fun _ d => d.linkRx q.val 1 w.toNat 0)

/-- NAK (R346). -/
def execNak (q : Fin 4) (w : BitVec 128) (st : State) : Host.Outcome State Fault Refusal :=
  upd st (fun _ d => d.linkRx q.val 2 w.toNat 0)

/-- DELAY_REQ (R349). -/
def execDelayReq (q : Fin 4) (w : BitVec 128) (turn : BitVec 32) (st : State) : Host.Outcome State Fault Refusal :=
  upd st (fun _ d => d.linkRx q.val 3 w.toNat turn.toNat)

/-- DELAY_RSP (R349). -/
def execDelayRsp (q : Fin 4) (w : BitVec 128) (st : State) : Host.Outcome State Fault Refusal :=
  upd st (fun _ d => d.linkRx q.val 4 w.toNat 0)

/-- TICK (R354). -/
def execTick (q : Fin 4) (w : BitVec 128) (st : State) : Host.Outcome State Fault Refusal :=
  upd st (fun _ d => d.linkRx q.val 5 w.toNat 0)

/-- TRIG (R356). -/
def execTrig (q : Fin 4) (w : BitVec 128) (st : State) : Host.Outcome State Fault Refusal :=
  upd st (fun _ d => d.linkRx q.val 6 w.toNat 0)

/-- TOUCHDOWN (R358). -/
def execTouchdown (q : Fin 4) (w : BitVec 128) (st : State) : Host.Outcome State Fault Refusal :=
  upd st (fun _ d => d.linkRx q.val 7 w.toNat 0)

/-- BAR_ARRIVE (R359). -/
def execBarArrive (q : Fin 4) (w : BitVec 128) (st : State) : Host.Outcome State Fault Refusal :=
  upd st (fun _ d => d.linkRx q.val 8 w.toNat 0)

/-- BAR_RELEASE (R359). -/
def execBarRelease (q : Fin 4) (w : BitVec 128) (st : State) : Host.Outcome State Fault Refusal :=
  upd st (fun _ d => d.linkRx q.val 9 w.toNat 0)

/-- ENUM_SIZE (R341). -/
def execEnumSize (q : Fin 4) (w : BitVec 128) (st : State) : Host.Outcome State Fault Refusal :=
  upd st (fun _ d => d.linkRx q.val 10 w.toNat 0)

/-- ENUM_ASSIGN (R341). -/
def execEnumAssign (q : Fin 4) (w : BitVec 128) (st : State) : Host.Outcome State Fault Refusal :=
  upd st (fun _ d => d.linkRx q.val 11 w.toNat 0)

/-- INDEX_ASSERT (R353). -/
def execIndexAssert (st : State) : Host.Outcome State Fault Refusal :=
  upd st (fun _ d => d.indexAssert)

/-- SYSTICK_EFFECT (R21). -/
def execSystickEffect (st : State) : Host.Outcome State Fault Refusal :=
  upd st (fun _ d => d.systickEffect)

/-- MSL_TRIG_EFFECT (R357). -/
def execMslTrigEffect (t : Fin 16) (st : State) : Host.Outcome State Fault Refusal :=
  upd st (fun _ d => d.trigEffect t.val)

end Sys2Proof.Machine
end

