-- ==== Sys2Proof/Machine/ExecTdc.lean ====
section
/-! DEFINITION. The meanings of the commands whose work is in Machine/Tdc.lean: one definition for each command. -/

namespace Sys2Proof.Machine

/-- PIN_COMPARATOR_EDGE (R75): the voltage that makes the edge, the tick and raw position of the event. -/
def execPinComparatorEdge (g : Fin 1024) (high : Bool) (v : Int) (tick : BitVec 54) (raw : Fin 512) (st : State) : Host.Outcome State Fault Refusal :=
  upd st (fun _ d => d.pinComparatorEdge g.val high v tick.toNat raw.val)

/-- TDC_TIMEOUT (R241). -/
def execTdcTimeout (g : Fin 1024) (st : State) : Host.Outcome State Fault Refusal :=
  upd st (fun _ d => d.tdcTimeout g.val)

/-- TDC_RESULT (R243). -/
def execTdcResult (g : Fin 1024) (st : State) : Host.Outcome State Fault Refusal :=
  upd st (fun _ d => d.tdcResult g.val)

/-- TDC_TOKEN (R245). -/
def execTdcToken (g : Fin 1024) (st : State) : Host.Outcome State Fault Refusal :=
  upd st (fun _ d => d.tdcToken g.val)

/-- TDC_DRAIN (R246). -/
def execTdcDrain (n : Fin 32) (st : State) : Host.Outcome State Fault Refusal :=
  upd st (fun _ d => d.tdcDrain n.val)

/-- TDC_CD_SLICE (R249). -/
def execTdcCdSlice (n : Fin 32) (hits : List (Fin 32768 × BitVec 20)) (st : State) : Host.Outcome State Fault Refusal :=
  upd st (fun _ d => d.tdcCdSlice n.val (hits.map (fun h => (h.1.val, h.2.toNat))))

/-- CD_DONE (R250). -/
def execCdDone (n : Fin 32) (khz : BitVec 20) (st : State) : Host.Outcome State Fault Refusal :=
  upd st (fun _ d => d.cdDone n.val khz.toNat)

end Sys2Proof.Machine
end

