-- ==== Sys2Proof/Machine/ExecThm.lean ====
section
/-! DEFINITION. The meanings of the commands whose work is in Machine/Thm.lean: one definition for each command. -/

namespace Sys2Proof.Machine

/-- THERMAL_READING (R413). -/
def execThermalReading (t : Fin 48) (cnt : BitVec 24) (c : BitVec 16) (broken : Bool) (st : State) : Host.Outcome State Fault Refusal :=
  upd st (fun _ d => d.thermalReading t.val cnt.toNat c broken)

/-- THERMAL_RELEASE (R416). -/
def execThermalRelease (z : Fin 36) (st : State) : Host.Outcome State Fault Refusal :=
  upd st (fun _ d => d.thermalRelease z.val)

end Sys2Proof.Machine
end

