-- ==== Sys2Proof/Machine/WakeRows.lean ====
section
/-! DEFINITION. The end of a wake (R22, R379, R406): tables that wait for it flip, and late starts take effect. -/

namespace Sys2Proof.Machine

/-- The TOUCHDOWN flip of a cluster that waited for its wake (R16, R379). -/
def Dev.tdFlip (d : Dev) (n : Nat) : Dev :=
  if (d.clu n).tdWait then
    let d := d.setClu n { d.clu n with tdWait := false }
    if d.bit (calcBase n) .CAL_CL_PEND_PREPARED then d.calFlip n else d
  else d

/-- WAKE_COMPLETE (R400, R406): an admitted wake reaches its state. -/
def Dev.wakeComplete (d : Dev) (n : Nat) : Dev :=
  let r := d.wakeDone n
  if r.2 then ((r.1.tdFlip n).calRequest n).lateStarts n else r.1

end Sys2Proof.Machine
end

