-- ==== Sys2Proof/Machine/ExecWakeRows.lean ====
section
/-! DEFINITION. The meanings of the commands whose work is in Machine/WakeRows.lean: one definition for each command. -/

namespace Sys2Proof.Machine

/-- WAKE_COMPLETE (R406). -/
def execWakeComplete (n : Fin 32) (st : State) : Host.Outcome State Fault Refusal :=
  upd st (fun _ d => d.wakeComplete n.val)

end Sys2Proof.Machine
end

