-- ==== Sys2Proof/Machine/ExecWalkRows.lean ====
section
/-! DEFINITION. The meanings of the commands whose work is in Machine/WalkRows.lean: one definition for each command. -/

namespace Sys2Proof.Machine

/-- NOP (R110). -/
def execNop (n : Fin 32) (st : State) : Host.Outcome State Fault Refusal :=
  upd st (fun m d => d.walkRow m n.val 0)

/-- BLOCK (R110). -/
def execBlock (n : Fin 32) (st : State) : Host.Outcome State Fault Refusal :=
  upd st (fun m d => d.walkRow m n.val 1)

/-- RPT (R110). -/
def execRpt (n : Fin 32) (st : State) : Host.Outcome State Fault Refusal :=
  upd st (fun m d => d.walkRow m n.val 2)

/-- LOOP (R113). -/
def execLoop (n : Fin 32) (st : State) : Host.Outcome State Fault Refusal :=
  upd st (fun m d => d.walkRow m n.val 3)

/-- ENDL (R110). -/
def execEndl (n : Fin 32) (st : State) : Host.Outcome State Fault Refusal :=
  upd st (fun m d => d.walkRow m n.val 4)

/-- CALL (R110). -/
def execCall (n : Fin 32) (st : State) : Host.Outcome State Fault Refusal :=
  upd st (fun m d => d.walkRow m n.val 5)

/-- RET (R110). -/
def execRet (n : Fin 32) (st : State) : Host.Outcome State Fault Refusal :=
  upd st (fun m d => d.walkRow m n.val 6)

/-- JMP (R110). -/
def execJmp (n : Fin 32) (st : State) : Host.Outcome State Fault Refusal :=
  upd st (fun m d => d.walkRow m n.val 7)

/-- JMPC (R115). -/
def execJmpc (n : Fin 32) (st : State) : Host.Outcome State Fault Refusal :=
  upd st (fun m d => d.walkRow m n.val 8)

/-- MLOOP (R116). -/
def execMloop (n : Fin 32) (st : State) : Host.Outcome State Fault Refusal :=
  upd st (fun m d => d.walkRow m n.val 9)

/-- ENDM (R116). -/
def execEndm (n : Fin 32) (st : State) : Host.Outcome State Fault Refusal :=
  upd st (fun m d => d.walkRow m n.val 10)

/-- WSEL (R107). -/
def execWsel (n : Fin 32) (st : State) : Host.Outcome State Fault Refusal :=
  upd st (fun m d => d.walkRow m n.val 11)

/-- LDSTB (R117). -/
def execLdstb (n : Fin 32) (st : State) : Host.Outcome State Fault Refusal :=
  upd st (fun m d => d.walkRow m n.val 12)

/-- CALGAP (R118). -/
def execCalgap (n : Fin 32) (st : State) : Host.Outcome State Fault Refusal :=
  upd st (fun m d => d.walkRow m n.val 13)

/-- ACQ_OPEN (R282). -/
def execAcqOpen (n : Fin 32) (st : State) : Host.Outcome State Fault Refusal :=
  upd st (fun m d => d.walkRow m n.val 32)

/-- ACQ_CLOSE (R282). -/
def execAcqClose (n : Fin 32) (st : State) : Host.Outcome State Fault Refusal :=
  upd st (fun m d => d.walkRow m n.val 33)

/-- ACQ_RESET (R282). -/
def execAcqReset (n : Fin 32) (st : State) : Host.Outcome State Fault Refusal :=
  upd st (fun m d => d.walkRow m n.val 34)

/-- ACQ_EMIT (R282). -/
def execAcqEmit (n : Fin 32) (st : State) : Host.Outcome State Fault Refusal :=
  upd st (fun m d => d.walkRow m n.val 35)

/-- CLRF (R115). -/
def execClrf (n : Fin 32) (st : State) : Host.Outcome State Fault Refusal :=
  upd st (fun m d => d.walkRow m n.val 15)

/-- HOSTRD (R110). -/
def execHostrd (n : Fin 32) (st : State) : Host.Outcome State Fault Refusal :=
  upd st (fun m d => d.walkRow m n.val 16)

/-- SYSTIME (R110). -/
def execSystime (n : Fin 32) (st : State) : Host.Outcome State Fault Refusal :=
  upd st (fun m d => d.walkRow m n.val 17)

/-- END (R120). -/
def execEndOp (n : Fin 32) (st : State) : Host.Outcome State Fault Refusal :=
  upd st (fun m d => d.walkRow m n.val 18)

/-- BAD_OP (R110). -/
def execBadOp (n : Fin 32) (st : State) : Host.Outcome State Fault Refusal :=
  upd st (fun m d => d.walkRow m n.val 19)

end Sys2Proof.Machine
end

