-- ==== Sys2Proof/Machine/ExecWfg.lean ====
section
/-! DEFINITION. The meanings of the commands whose work is in Machine/Wfg.lean: one definition for each command. -/

namespace Sys2Proof.Machine

/-- WFG_LATCH (R260). -/
def execWfgLatch (n : Fin 32) (x : Fin 4) (st : State) : Host.Outcome State Fault Refusal :=
  upd st (fun _ d => d.wfgLatch (4 * n.val + x.val))

/-- WFG_BOUNDARY (R261). -/
def execWfgBoundary (n : Fin 32) (x : Fin 4) (st : State) : Host.Outcome State Fault Refusal :=
  upd st (fun _ d => d.wfgBoundary (4 * n.val + x.val))

/-- AC_OVL (R274). -/
def execAcOvl (n : Fin 32) (x : Fin 4) (st : State) : Host.Outcome State Fault Refusal :=
  upd st (fun _ d => d.acOvl (4 * n.val + x.val))

end Sys2Proof.Machine
end

