-- ==== Sys2Proof/Machine/Dispatch.lean ====
section
/-! DEFINITION. The dispatcher: one arm for each command. -/

namespace Sys2Proof.Machine

def exec (i : Instr) (s : State) : Host.Outcome State Fault Refusal :=
  match i with
  | .registerWrite p a wide v => Sys2Proof.Machine.execRegisterWrite p a wide v s
  | .lowWordRead p a => Sys2Proof.Machine.execLowWordRead p a s
  | .pgSnap p a v => Sys2Proof.Machine.execPgSnap p a v s
  | .pgIrqSet p a v => Sys2Proof.Machine.execPgIrqSet p a v s
  | .pgIrqEnWrite p a v => Sys2Proof.Machine.execPgIrqEnWrite p a v s
  | .msixUnmask o => Sys2Proof.Machine.execMsixUnmask o s
  | .softReset p a => Sys2Proof.Machine.execSoftReset p a s
  | .softResetDone a => Sys2Proof.Machine.execSoftResetDone a s
  | .gateRequest p a => Sys2Proof.Machine.execGateRequest p a s
  | .gateRetry a idle => Sys2Proof.Machine.execGateRetry a idle s
  | .gateRelease p a => Sys2Proof.Machine.execGateRelease p a s
  | .txnBegin p s1 v => Sys2Proof.Machine.execTxnBegin p s1 v s
  | .txnCaptureWrite p v => Sys2Proof.Machine.execTxnCaptureWrite p v s
  | .txnStageWrite a wide v => Sys2Proof.Machine.execTxnStageWrite a wide v s
  | .txnCommit p s1 v => Sys2Proof.Machine.execTxnCommit p s1 v s
  | .txnRollback p s1 => Sys2Proof.Machine.execTxnRollback p s1 s
  | .txnPrepareDone s1 => Sys2Proof.Machine.execTxnPrepareDone s1 s
  | .txnLateApply s1 => Sys2Proof.Machine.execTxnLateApply s1 s
  | .ctxLoad p c => Sys2Proof.Machine.execCtxLoad p c s
  | .ctxArm p c => Sys2Proof.Machine.execCtxArm p c s
  | .ctxStart p c => Sys2Proof.Machine.execCtxStart p c s
  | .ctxStop p c => Sys2Proof.Machine.execCtxStop p c s
  | .ctxRedirect p c v => Sys2Proof.Machine.execCtxRedirect p c v s
  | .ctxClearGo p c => Sys2Proof.Machine.execCtxClearGo p c s
  | .ctxClearUnload p c => Sys2Proof.Machine.execCtxClearUnload p c s
  | .vectorEmit c smp => Sys2Proof.Machine.execVectorEmit c smp s
  | .decisionLatch c => Sys2Proof.Machine.execDecisionLatch c s
  | .granuleBoundary c => Sys2Proof.Machine.execGranuleBoundary c s
  | .nop n => Sys2Proof.Machine.execNop n s
  | .block n => Sys2Proof.Machine.execBlock n s
  | .rpt n => Sys2Proof.Machine.execRpt n s
  | .loop n => Sys2Proof.Machine.execLoop n s
  | .endl n => Sys2Proof.Machine.execEndl n s
  | .call n => Sys2Proof.Machine.execCall n s
  | .ret n => Sys2Proof.Machine.execRet n s
  | .jmp n => Sys2Proof.Machine.execJmp n s
  | .jmpc n => Sys2Proof.Machine.execJmpc n s
  | .mloop n => Sys2Proof.Machine.execMloop n s
  | .endm n => Sys2Proof.Machine.execEndm n s
  | .wsel n => Sys2Proof.Machine.execWsel n s
  | .ldstb n => Sys2Proof.Machine.execLdstb n s
  | .calgap n => Sys2Proof.Machine.execCalgap n s
  | .acqOpen n => Sys2Proof.Machine.execAcqOpen n s
  | .acqClose n => Sys2Proof.Machine.execAcqClose n s
  | .acqReset n => Sys2Proof.Machine.execAcqReset n s
  | .acqEmit n => Sys2Proof.Machine.execAcqEmit n s
  | .clrf n => Sys2Proof.Machine.execClrf n s
  | .hostrd n => Sys2Proof.Machine.execHostrd n s
  | .systime n => Sys2Proof.Machine.execSystime n s
  | .endOp n => Sys2Proof.Machine.execEndOp n s
  | .badOp n => Sys2Proof.Machine.execBadOp n s
  | .drvL g => Sys2Proof.Machine.execDrvL g s
  | .drvH g => Sys2Proof.Machine.execDrvH g s
  | .drvT g => Sys2Proof.Machine.execDrvT g s
  | .drvZ g => Sys2Proof.Machine.execDrvZ g s
  | .cmpL g x => Sys2Proof.Machine.execCmpL g x s
  | .cmpH g x => Sys2Proof.Machine.execCmpH g x s
  | .cmpM g x => Sys2Proof.Machine.execCmpM g x s
  | .cmpX g x => Sys2Proof.Machine.execCmpX g x s
  | .winL g => Sys2Proof.Machine.execWinL g s
  | .winH g => Sys2Proof.Machine.execWinH g s
  | .winEnd g => Sys2Proof.Machine.execWinEnd g s
  | .markAct g t => Sys2Proof.Machine.execMarkAct g t s
  | .badAct g => Sys2Proof.Machine.execBadAct g s
  | .rtLoad n => Sys2Proof.Machine.execRtLoad n s
  | .rtArm n => Sys2Proof.Machine.execRtArm n s
  | .rtStart n => Sys2Proof.Machine.execRtStart n s
  | .rtDecide n => Sys2Proof.Machine.execRtDecide n s
  | .rtRedirect n => Sys2Proof.Machine.execRtRedirect n s
  | .rtStop n => Sys2Proof.Machine.execRtStop n s
  | .rtClear n => Sys2Proof.Machine.execRtClear n s
  | .rtReact n => Sys2Proof.Machine.execRtReact n s
  | .rtCalApply n => Sys2Proof.Machine.execRtCalApply n s
  | .pmcSample n => Sys2Proof.Machine.execPmcSample n s
  | .tailOvf n => Sys2Proof.Machine.execTailOvf n s
  | .uNop n w => Sys2Proof.Machine.execUNop n w s
  | .uLdi n w => Sys2Proof.Machine.execULdi n w s
  | .uLui n w => Sys2Proof.Machine.execULui n w s
  | .uMov n w => Sys2Proof.Machine.execUMov n w s
  | .uAdd n w => Sys2Proof.Machine.execUAdd n w s
  | .uSub n w => Sys2Proof.Machine.execUSub n w s
  | .uAddi n w => Sys2Proof.Machine.execUAddi n w s
  | .uAnd n w => Sys2Proof.Machine.execUAnd n w s
  | .uOr n w => Sys2Proof.Machine.execUOr n w s
  | .uXor n w => Sys2Proof.Machine.execUXor n w s
  | .uShf n w => Sys2Proof.Machine.execUShf n w s
  | .uCmp n w => Sys2Proof.Machine.execUCmp n w s
  | .uSkip n w => Sys2Proof.Machine.execUSkip n w s
  | .uJmp n w => Sys2Proof.Machine.execUJmp n w s
  | .uCallu n w => Sys2Proof.Machine.execUCallu n w s
  | .uRetu n w => Sys2Proof.Machine.execURetu n w s
  | .uDisp n w => Sys2Proof.Machine.execUDisp n w s
  | .uRdimg n w => Sys2Proof.Machine.execURdimg n w s
  | .uFld n w => Sys2Proof.Machine.execUFld n w s
  | .uRdcs n w => Sys2Proof.Machine.execURdcs n w s
  | .uWrcs n w => Sys2Proof.Machine.execUWrcs n w s
  | .uFrmPushLoop n w => Sys2Proof.Machine.execUFrmPushLoop n w s
  | .uFrmPushMatch n w => Sys2Proof.Machine.execUFrmPushMatch n w s
  | .uFrmPushReturn n w => Sys2Proof.Machine.execUFrmPushReturn n w s
  | .uFrmPop n w => Sys2Proof.Machine.execUFrmPop n w s
  | .uFrmTopOp n w => Sys2Proof.Machine.execUFrmTopOp n w s
  | .uFrmTopCount n w => Sys2Proof.Machine.execUFrmTopCount n w s
  | .uFrmTopKind n w => Sys2Proof.Machine.execUFrmTopKind n w s
  | .uFrmSetCount n w => Sys2Proof.Machine.execUFrmSetCount n w s
  | .uHread n w => Sys2Proof.Machine.execUHread n w s
  | .uDset n w => Sys2Proof.Machine.execUDset n w s
  | .uDactAcq n w => Sys2Proof.Machine.execUDactAcq n w s
  | .uDactLdstb n w => Sys2Proof.Machine.execUDactLdstb n w s
  | .uDactMark n w => Sys2Proof.Machine.execUDactMark n w s
  | .uDactSystime n w => Sys2Proof.Machine.execUDactSystime n w s
  | .uDactMatch n w => Sys2Proof.Machine.execUDactMatch n w s
  | .uDleaf n w => Sys2Proof.Machine.execUDleaf n w s
  | .uRdreg n w => Sys2Proof.Machine.execURdreg n w s
  | .uWrreg n w => Sys2Proof.Machine.execUWrreg n w s
  | .uCommitStage n w => Sys2Proof.Machine.execUCommitStage n w s
  | .uCommitFinal n w => Sys2Proof.Machine.execUCommitFinal n w s
  | .uExit n w => Sys2Proof.Machine.execUExit n w s
  | .uHalt n w => Sys2Proof.Machine.execUHalt n w s
  | .uFlt n w => Sys2Proof.Machine.execUFlt n w s
  | .patchLockReq p n => Sys2Proof.Machine.execPatchLockReq p n s
  | .patchLockGrant n => Sys2Proof.Machine.execPatchLockGrant n s
  | .patchLockRelease p n => Sys2Proof.Machine.execPatchLockRelease p n s
  | .ucsBcastWrite p a v => Sys2Proof.Machine.execUcsBcastWrite p a v s
  | .bar2Read a len => Sys2Proof.Machine.execBar2Read a len s
  | .bar2Write a bs => Sys2Proof.Machine.execBar2Write a bs s
  | .patternStoreReady => Sys2Proof.Machine.execPatternStoreReady s
  | .fillRequest c => Sys2Proof.Machine.execFillRequest c s
  | .fillComplete c err => Sys2Proof.Machine.execFillComplete c err s
  | .patQuotaWrite p c v => Sys2Proof.Machine.execPatQuotaWrite p c v s
  | .streamEnable p q v => Sys2Proof.Machine.execStreamEnable p q v s
  | .streamDisable p q v => Sys2Proof.Machine.execStreamDisable p q v s
  | .streamProdWrite p q v => Sys2Proof.Machine.execStreamProdWrite p q v s
  | .geyser q desc bs err => Sys2Proof.Machine.execGeyser q desc bs err s
  | .geyserDone q => Sys2Proof.Machine.execGeyserDone q s
  | .streamResume q bs => Sys2Proof.Machine.execStreamResume q bs s
  | .hbmFail b => Sys2Proof.Machine.execHbmFail b s
  | .loadStrobe n src c => Sys2Proof.Machine.execLoadStrobe n src c s
  | .wfgStbFire p n => Sys2Proof.Machine.execWfgStbFire p n s
  | .heldStrobeRelease n => Sys2Proof.Machine.execHeldStrobeRelease n s
  | .trigInEdge i1 => Sys2Proof.Machine.execTrigInEdge i1 s
  | .levelSlewStep g => Sys2Proof.Machine.execLevelSlewStep g s
  | .spanSwitch g => Sys2Proof.Machine.execSpanSwitch g s
  | .spanDone g => Sys2Proof.Machine.execSpanDone g s
  | .channelEnable p g => Sys2Proof.Machine.execChannelEnable p g s
  | .enableSettled g => Sys2Proof.Machine.execEnableSettled g s
  | .channelDisable p g => Sys2Proof.Machine.execChannelDisable p g s
  | .parkComplete g => Sys2Proof.Machine.execParkComplete g s
  | .comparatorSettled g => Sys2Proof.Machine.execComparatorSettled g s
  | .pinComparatorEdge g high v tick raw => Sys2Proof.Machine.execPinComparatorEdge g high v tick raw s
  | .blankWindow r b start => Sys2Proof.Machine.execBlankWindow r b start s
  | .clampConduction g v => Sys2Proof.Machine.execClampConduction g v s
  | .pinFaultDetect g b => Sys2Proof.Machine.execPinFaultDetect g b s
  | .pmuSwitchStep g track => Sys2Proof.Machine.execPmuSwitchStep g track s
  | .pmuSlewStep g => Sys2Proof.Machine.execPmuSlewStep g s
  | .pmuSeqEnd g => Sys2Proof.Machine.execPmuSeqEnd g s
  | .pmuAdcGo p g => Sys2Proof.Machine.execPmuAdcGo p g s
  | .pmuConversion g x overlap => Sys2Proof.Machine.execPmuConversion g x overlap s
  | .pmuSineUpdate g => Sys2Proof.Machine.execPmuSineUpdate g s
  | .pmuFaultDetect g sw => Sys2Proof.Machine.execPmuFaultDetect g sw s
  | .dpsSlewStep k => Sys2Proof.Machine.execDpsSlewStep k s
  | .rampDone k => Sys2Proof.Machine.execRampDone k s
  | .dpsDischargeDone k => Sys2Proof.Machine.execDpsDischargeDone k s
  | .ilimTrip k ph => Sys2Proof.Machine.execIlimTrip k ph s
  | .dpsOv k => Sys2Proof.Machine.execDpsOv k s
  | .dpsUv k below => Sys2Proof.Machine.execDpsUv k below s
  | .senseOpen k => Sys2Proof.Machine.execSenseOpen k s
  | .stageFail k => Sys2Proof.Machine.execStageFail k s
  | .dpsMeasGo p k => Sys2Proof.Machine.execDpsMeasGo p k s
  | .dpsConversion k v i1 overlap => Sys2Proof.Machine.execDpsConversion k v i1 overlap s
  | .dpsGangWrite p k v => Sys2Proof.Machine.execDpsGangWrite p k v s
  | .dpsDisable p k => Sys2Proof.Machine.execDpsDisable p k s
  | .tdcGo p g => Sys2Proof.Machine.execTdcGo p g s
  | .tdcTimeout g => Sys2Proof.Machine.execTdcTimeout g s
  | .tdcResult g => Sys2Proof.Machine.execTdcResult g s
  | .tdcPop p g => Sys2Proof.Machine.execTdcPop p g s
  | .tdcToken g => Sys2Proof.Machine.execTdcToken g s
  | .tdcDrain n => Sys2Proof.Machine.execTdcDrain n s
  | .tdcCdSlice n hits => Sys2Proof.Machine.execTdcCdSlice n hits s
  | .cdDone n khz => Sys2Proof.Machine.execCdDone n khz s
  | .wfgStart p n x => Sys2Proof.Machine.execWfgStart p n x s
  | .wfgStop p n x => Sys2Proof.Machine.execWfgStop p n x s
  | .wfgJump p n x t => Sys2Proof.Machine.execWfgJump p n x t s
  | .wfgLatch n x => Sys2Proof.Machine.execWfgLatch n x s
  | .wfgBoundary n x => Sys2Proof.Machine.execWfgBoundary n x s
  | .acOvl n x => Sys2Proof.Machine.execAcOvl n x s
  | .acqInput c => Sys2Proof.Machine.execAcqInput c s
  | .captureToken c s1 => Sys2Proof.Machine.execCaptureToken c s1 s
  | .slotEndClose c => Sys2Proof.Machine.execSlotEndClose c s
  | .ringWrite n => Sys2Proof.Machine.execRingWrite n s
  | .coalTimer k => Sys2Proof.Machine.execCoalTimer k s
  | .resRingConsWrite p k v => Sys2Proof.Machine.execResRingConsWrite p k v s
  | .ringEnable p k v => Sys2Proof.Machine.execRingEnable p k v s
  | .mailboxPush n => Sys2Proof.Machine.execMailboxPush n s
  | .resMbPop p b wide => Sys2Proof.Machine.execResMbPop p b wide s
  | .resMbPeek p b wide => Sys2Proof.Machine.execResMbPeek p b wide s
  | .resMbCfgWrite p b v => Sys2Proof.Machine.execResMbCfgWrite p b v s
  | .resRouteWrite p j v => Sys2Proof.Machine.execResRouteWrite p j v s
  | .rasEnable p v => Sys2Proof.Machine.execRasEnable p v s
  | .rasDisable p v => Sys2Proof.Machine.execRasDisable p v s
  | .rasModeApply p => Sys2Proof.Machine.execRasModeApply p s
  | .rasPllLock => Sys2Proof.Machine.execRasPllLock s
  | .rasFlip p v => Sys2Proof.Machine.execRasFlip p v s
  | .frameStart => Sys2Proof.Machine.execFrameStart s
  | .frameEnd => Sys2Proof.Machine.execFrameEnd s
  | .rasLineFetch lo hi ecc => Sys2Proof.Machine.execRasLineFetch lo hi ecc s
  | .rasFramePop p wide => Sys2Proof.Machine.execRasFramePop p wide s
  | .rasRelPop p wide => Sys2Proof.Machine.execRasRelPop p wide s
  | .mslEnable p v => Sys2Proof.Machine.execMslEnable p v s
  | .autoRootTimeout => Sys2Proof.Machine.execAutoRootTimeout s
  | .portSignal q => Sys2Proof.Machine.execPortSignal q s
  | .trainTimeout q => Sys2Proof.Machine.execTrainTimeout q s
  | .train q w => Sys2Proof.Machine.execTrain q w s
  | .idle q w => Sys2Proof.Machine.execIdle q w s
  | .ack q w => Sys2Proof.Machine.execAck q w s
  | .nak q w => Sys2Proof.Machine.execNak q w s
  | .delayReq q w turn => Sys2Proof.Machine.execDelayReq q w turn s
  | .delayRsp q w => Sys2Proof.Machine.execDelayRsp q w s
  | .tick q w => Sys2Proof.Machine.execTick q w s
  | .trig q w => Sys2Proof.Machine.execTrig q w s
  | .touchdown q w => Sys2Proof.Machine.execTouchdown q w s
  | .barArrive q w => Sys2Proof.Machine.execBarArrive q w s
  | .barRelease q w => Sys2Proof.Machine.execBarRelease q w s
  | .enumSize q w => Sys2Proof.Machine.execEnumSize q w s
  | .enumAssign q w => Sys2Proof.Machine.execEnumAssign q w s
  | .enumeration => Sys2Proof.Machine.execEnumeration s
  | .syncLoss q w => Sys2Proof.Machine.execSyncLoss q w s
  | .retrainDone q moved => Sys2Proof.Machine.execRetrainDone q moved s
  | .unfence p q => Sys2Proof.Machine.execUnfence p q s
  | .portRetrain p q => Sys2Proof.Machine.execPortRetrain p q s
  | .calPeriod => Sys2Proof.Machine.execCalPeriod s
  | .delayCalDone ppb => Sys2Proof.Machine.execDelayCalDone ppb s
  | .timeSlew => Sys2Proof.Machine.execTimeSlew s
  | .portDown q => Sys2Proof.Machine.execPortDown q s
  | .indexAssert => Sys2Proof.Machine.execIndexAssert s
  | .indexRelease => Sys2Proof.Machine.execIndexRelease s
  | .mslTickReq p => Sys2Proof.Machine.execMslTickReq p s
  | .systickEffect => Sys2Proof.Machine.execSystickEffect s
  | .mslTrigRaise p v => Sys2Proof.Machine.execMslTrigRaise p v s
  | .mslTrigEffect t => Sys2Proof.Machine.execMslTrigEffect t s
  | .mslTdReq p => Sys2Proof.Machine.execMslTdReq p s
  | .mslBarArrive p v => Sys2Proof.Machine.execMslBarArrive p v s
  | .barrierReleaseEffect b => Sys2Proof.Machine.execBarrierReleaseEffect b s
  | .trigOutPulseEnd i1 => Sys2Proof.Machine.execTrigOutPulseEnd i1 s
  | .calGapOpen p => Sys2Proof.Machine.execCalGapOpen p s
  | .calGapClose p => Sys2Proof.Machine.execCalGapClose p s
  | .calClReq p n v => Sys2Proof.Machine.execCalClReq p n v s
  | .calAgeExpiry n x age => Sys2Proof.Machine.execCalAgeExpiry n x age s
  | .calSliceStart => Sys2Proof.Machine.execCalSliceStart s
  | .calSliceEnd n o => Sys2Proof.Machine.execCalSliceEnd n o s
  | .calApertureWrite p a wide v => Sys2Proof.Machine.execCalApertureWrite p a wide v s
  | .clkVpPeriodWrite p r v => Sys2Proof.Machine.execClkVpPeriodWrite p r v s
  | .vclkLock r => Sys2Proof.Machine.execVclkLock r s
  | .muxSelect p x sel => Sys2Proof.Machine.execMuxSelect p x sel s
  | .muxSwitch x => Sys2Proof.Machine.execMuxSwitch x s
  | .muxReset p x on => Sys2Proof.Machine.execMuxReset p x on s
  | .muxForce p x sel => Sys2Proof.Machine.execMuxForce p x sel s
  | .swStuck x => Sys2Proof.Machine.execSwStuck x s
  | .refLoss => Sys2Proof.Machine.execRefLoss s
  | .refReturn => Sys2Proof.Machine.execRefReturn s
  | .bkoscFail => Sys2Proof.Machine.execBkoscFail s
  | .aonFail => Sys2Proof.Machine.execAonFail s
  | .pllUnlock i1 => Sys2Proof.Machine.execPllUnlock i1 s
  | .vclkUnlock r => Sys2Proof.Machine.execVclkUnlock r s
  | .bkoscQualCheck cnt => Sys2Proof.Machine.execBkoscQualCheck cnt s
  | .refOk => Sys2Proof.Machine.execRefOk s
  | .mtbLock => Sys2Proof.Machine.execMtbLock s
  | .clockNormal => Sys2Proof.Machine.execClockNormal s
  | .idleEntry n => Sys2Proof.Machine.execIdleEntry n s
  | .idleDwell n => Sys2Proof.Machine.execIdleDwell n s
  | .retentionSaveDone n => Sys2Proof.Machine.execRetentionSaveDone n s
  | .pwrClWake p n => Sys2Proof.Machine.execPwrClWake p n s
  | .wakeN => Sys2Proof.Machine.execWakeN s
  | .wakeAdmit => Sys2Proof.Machine.execWakeAdmit s
  | .wakeComplete n => Sys2Proof.Machine.execWakeComplete n s
  | .pwrClTolWrite p n v => Sys2Proof.Machine.execPwrClTolWrite p n v s
  | .pwrHib p v => Sys2Proof.Machine.execPwrHib p v s
  | .hbmSelfRefresh => Sys2Proof.Machine.execHbmSelfRefresh s
  | .d3hot on => Sys2Proof.Machine.execD3hot on s
  | .dvfsTargetWrite p v => Sys2Proof.Machine.execDvfsTargetWrite p v s
  | .dvfsStep mv => Sys2Proof.Machine.execDvfsStep mv s
  | .dvfsDone => Sys2Proof.Machine.execDvfsDone s
  | .avsTrim low => Sys2Proof.Machine.execAvsTrim low s
  | .avsFrame cause frame mv => Sys2Proof.Machine.execAvsFrame cause frame mv s
  | .avsRetry => Sys2Proof.Machine.execAvsRetry s
  | .thermalReading t cnt c broken => Sys2Proof.Machine.execThermalReading t cnt c broken s
  | .thermalRelease z => Sys2Proof.Machine.execThermalRelease z s
  | .thmMaxWrite p t v => Sys2Proof.Machine.execThmMaxWrite p t v s
  | .shadowEnd k => Sys2Proof.Machine.execShadowEnd k s
  | .fltSafeRel p v => Sys2Proof.Machine.execFltSafeRel p v s
  | .faultInject p v => Sys2Proof.Machine.execFaultInject p v s
  | .bstReq p v => Sys2Proof.Machine.execBstReq p v s
  | .bistSliceStart n => Sys2Proof.Machine.execBistSliceStart n s
  | .bistSliceEnd n o => Sys2Proof.Machine.execBistSliceEnd n o s
  | .bistSliceTimeout n o => Sys2Proof.Machine.execBistSliceTimeout n o s
  | .bstFuseCtrl p v => Sys2Proof.Machine.execBstFuseCtrl p v s
  | .fuseDone bad => Sys2Proof.Machine.execFuseDone bad s
  | .mspNop cmd ovr => Sys2Proof.Machine.execMspNop cmd ovr s
  | .mspRead cmd ovr => Sys2Proof.Machine.execMspRead cmd ovr s
  | .mspWrite cmd ws ovr => Sys2Proof.Machine.execMspWrite cmd ws ovr s
  | .mspWake cmd ovr => Sys2Proof.Machine.execMspWake cmd ovr s
  | .mspShortWord => Sys2Proof.Machine.execMspShortWord s
  | .mspFrameTimeout => Sys2Proof.Machine.execMspFrameTimeout s
  | .mspCfgWrite p v => Sys2Proof.Machine.execMspCfgWrite p v s
  | .mspMasterGo p v => Sys2Proof.Machine.execMspMasterGo p v s
  | .mspMasterDone rx => Sys2Proof.Machine.execMspMasterDone rx s
  | .pmcDump => Sys2Proof.Machine.execPmcDump s
  | .pmcSmpClr p n => Sys2Proof.Machine.execPmcSmpClr p n s
  | .pmcDumpConsWrite p v => Sys2Proof.Machine.execPmcDumpConsWrite p v s
  | .porN => Sys2Proof.Machine.execPorN s
  | .porNRelease => Sys2Proof.Machine.execPorNRelease s
  | .supply => Sys2Proof.Machine.execSupply s
  | .perst => Sys2Proof.Machine.execPerst s
  | .glbRstCtrl p v => Sys2Proof.Machine.execGlbRstCtrl p v s
  | .flr => Sys2Proof.Machine.execFlr s
  | .glbClRst p v => Sys2Proof.Machine.execGlbClRst p v s
  | .clusterResetDone n => Sys2Proof.Machine.execClusterResetDone n s
  | .linkUp speed width => Sys2Proof.Machine.execLinkUp speed width s
  | .lcsChalReq p => Sys2Proof.Machine.execLcsChalReq p s
  | .lcsCheck p => Sys2Proof.Machine.execLcsCheck p s
  | .lcsExit p => Sys2Proof.Machine.execLcsExit p s
  | .advance p t => Sys2Proof.Machine.execAdvance p t s
  | .advanceDone => Sys2Proof.Machine.execAdvanceDone s
  | .idcode => Sys2Proof.Machine.execIdcode s
  | .bypass tdi => Sys2Proof.Machine.execBypass tdi s
  | .samplePreload scan => Sys2Proof.Machine.execSamplePreload scan s
  | .extest => Sys2Proof.Machine.execExtest s
  | .lcsAccess wr off v => Sys2Proof.Machine.execLcsAccess wr off v s
  | .z64LoWrite p off v => Sys2Proof.Machine.execZ64LoWrite p off v s
  | .z64HiWrite p off v => Sys2Proof.Machine.execZ64HiWrite p off v s
  | .z64LoRead p off => Sys2Proof.Machine.execZ64LoRead p off s
  | .z64HiRead p off => Sys2Proof.Machine.execZ64HiRead p off s
  | .z64TimeWrite p off v => Sys2Proof.Machine.execZ64TimeWrite p off v s
  | .z64Strobe p v => Sys2Proof.Machine.execZ64Strobe p v s
  | .z64Period p v => Sys2Proof.Machine.execZ64Period p v s
  | .z64Start p v => Sys2Proof.Machine.execZ64Start p v s
  | .z64CtrlWrite p ch v => Sys2Proof.Machine.execZ64CtrlWrite p ch v s
  | .vaonLoss => Sys2Proof.Machine.execVaonLoss s
  | .supplyReturn => Sys2Proof.Machine.execSupplyReturn s
  | .perstNRelease => Sys2Proof.Machine.execPerstNRelease s
  | .warmResetDone => Sys2Proof.Machine.execWarmResetDone s
  | .pcieLinkDown => Sys2Proof.Machine.execPcieLinkDown s
  | .pmuClampAct g high => Sys2Proof.Machine.execPmuClampAct g high s
  | .csConflict => Sys2Proof.Machine.execCsConflict s
  | .registerRead p a wide => Sys2Proof.Machine.execRegisterRead p a wide s

end Sys2Proof.Machine
end

