-- ==== Sys2Proof/Machine/Step.lean ====
section
/-! DEFINITION. One step: the command at the front of the queue runs; on an empty queue the block idles for one MTB tick. -/

namespace Sys2Proof.Machine

/-- The queue is empty: one MTB tick of system time passes while the MTB runs (R348); nothing else changes
(notes/assumptions/3.md). -/
def idle (s : State) : State :=
  if s.d.bit clkB .CLK_STAT_MTB_LOCK then { s with d := { s.d with time := (s.d.time + 1024) % 2 ^ 64 } } else s

/-- One step of the block. -/
def step (s : State) : Host.Outcome State Fault Refusal :=
  match s.pending with
  | [] => .next (idle s)
  | c :: rest => exec c { s with pending := rest }

/-- Put the command that a word spells at the front of the queue; no row of the table gives bits, so no word spells one. -/
def State.withFetchWord (s : State) (nbits w : Nat) : State :=
  match Sys2Proof.decodeTableWord nbits w with
  | some c => { s with pending := c :: s.pending }
  | none => s

end Sys2Proof.Machine
end

