-- ==== Sys2Proof/Safety.lean ====
section
/-! DEFINITION. What the claims count as a sound state, a safe step, and an access that reaches its register. -/

namespace Sys2Proof.Machine

/-- The pattern store is in its canonical form: addresses rise, and no listed byte reads as an unlisted one does. -/
def storeWf (m : Tab Byte) : Bool := Tab.wf storeDflt m

/-- No listed byte of the pattern store lies beyond its 48 GiB (R157). -/
def storeIn (m : Tab Byte) : Bool := m.all (fun e => decide (e.1 < storeBytes))

/-- A sound state: the store is canonical and lies within its populated part. -/
def State.sound (s : State) : Bool := storeWf s.store && storeIn s.store

/-- A safe step answers a next state: it neither faults nor is refused. -/
def stepsOn (s : State) : Prop := ∃ t, step s = .next t

/-- Command `c` runs at `s`: it answers a next state that has the queue and the pattern store as they were, and whose block meets `P`. -/
def Runs (c : Instr) (s : State) (P : Dev → Prop) : Prop := ∃ t, exec c s = .next t ∧ t.pending = s.pending ∧ t.store = s.store ∧ P t.d

/-- A detection of source `s` by block `d` is in the record of block `e` (R428, R430, R433): within a shadow it is consequential, else it is the first fault
record, or an overflow of one that stands. -/
def Dev.recorded (d e : Dev) (s : Nat) : Prop :=
  if d.consequential s then
    e.bit fltB .FLT_CONSEQ_SET = true ∧ e.get fltB .FLT_CONSEQ_COUNT = Nat.min (d.get fltB .FLT_CONSEQ_COUNT + 1) (2 ^ 16 - 1) ∧
      e.word (fltB + 0x40) = d.word (fltB + 0x40) ∧ e.word (fltB + 0x50) = d.word (fltB + 0x50)
  else if d.bit fltB .FLT_FIRST_VALID then
    e.bit fltB .FLT_OVF_SET = true ∧ e.get fltB .FLT_OVF_COUNT = Nat.min (d.get fltB .FLT_OVF_COUNT + 1) (2 ^ 16 - 1) ∧
      e.word (fltB + 0x40) = d.word (fltB + 0x40) ∧ e.word (fltB + 0x54) = d.word (fltB + 0x54)
  else
    e.bit fltB .FLT_FIRST_VALID = true ∧ e.get fltB .FLT_FIRST_SOURCE = s ∧ e.get fltB .FLT_FIRST_CLASS = d.srcClass s ∧
      e.word (fltB + 0x50) = d.word (fltB + 0x50) ∧ e.word (fltB + 0x54) = d.word (fltB + 0x54)

/-- The bits at an address that an open transaction captures (R43). -/
def txnBitsAt (a : Nat) : Nat :=
  match areaOf a with
  | .page kind base off => match rowAt kind base off with | some (r, _) => r.txn | none => 0
  | .bcast _ => 2 ^ 32 - 1
  | _ => 0

/-- Port `p` performs an access at `a` as it comes: the port answers (R27, R33, R450), no reset holds the access (R471, R497), no capture stages
it (R43), and FALLBACK, on the MSP, leaves the page readable (R455). -/
def Dev.portOpen (d : Dev) (p : HPort) (a : Nat) : Bool :=
  match p with
  | .pcie => d.pcieOk && !d.heldNow a && (!d.bit txnB .TXN_CAPTURE_EN || txnBitsAt a == 0)
  | .msp => d.mspReach && !d.heldNow a && (d.clkState != 3 || mspPage a)

/-- The register at `a` answers as it is: its cluster is present (R33), no self-test slice occupies its page (R50, R443), and a block register's clock is
not gated (R391). -/
def Dev.pageOpen (d : Dev) (a : Nat) : Bool :=
  !(addrCluster a).any (fun n => !d.present n) &&
  match areaOf a with
  | .page kind base off => !kind.header || (!d.bit base .PG_STAT_SELFTEST && (decide (off < 0x40) || !d.bit base .PG_STAT_GATED))
  | _ => true

/-- An access through port `p` reaches the register at `a`. -/
def Dev.reaches (d : Dev) (p : HPort) (a : Nat) : Bool := d.portOpen p a && d.pageOpen a

/-- The block after an access through `p` that met no error: on the MSP no error is noted for the word (R455); nothing else differs. -/
def Dev.clean (d : Dev) (p : HPort) : Dev :=
  match p with
  | .pcie => d
  | .msp => { d with msp := { d.msp with accErr := false } }

/-- The walk that the engine of cluster `n` runs stands at op `o` of its head path `p`, with room for a leaf: nothing else is eligible before it
(R135, R136, R139, R141). -/
def State.walkAt (s : State) (n : Nat) (r : URun) (h : Hdr) (p : Path) (rest : List Path) (o : OpW) : Prop :=
  s.d.engine n = s.d ∧ s.d.running n = some r ∧ (s.d.cx r.rtn.ctx).hdr = some h ∧ s.d.engUp n = true ∧ r.walks h = true ∧ r.begun = true ∧ r.ovf = false ∧
    r.work = p :: rest ∧ p.opidx < h.opsCount ∧ p.n < 32 ∧ h.opAt (s.d.opView n s.store) p.opidx = o ∧ s.d.romOwn n r.rtn.slot = true ∧
    r.leaves.length < 8 ∧ r.leaves.foldl (fun a x => a + x.acts.length) 0 + p.acts.length + 1 ≤ 64

/-- The engine of cluster `n` has chosen a routine of slot `slot`, which runs next from its first word to its end, and no patch replaces it
(R134 to R136, R148). -/
def Dev.atRoutine (d : Dev) (n : Nat) (r : URun) (slot : Nat) : Prop :=
  d.engine n = d ∧ d.running n = some r ∧ d.engUp n = true ∧ r.rtn.slot = slot ∧ r.tail = none ∧ d.romOwn n slot = true

/-- The engine of cluster `n` stands at a word of op `op` with operands `w`, before the commit of its routine; the word is legal and one that
the ROM may hold there, and where it comes from the patch RAM it is the one that stands there (R128, R132 to R134, R148). -/
def Dev.atWord (d : Dev) (n : Nat) (r : URun) (op w : Nat) : Prop :=
  d.engine n = d ∧ d.running n = some r ∧ d.engUp n = true ∧ r.tail = none ∧ uIllegal op w (r.reg (w / 2 ^ 9 % 8)) false = false ∧
    (d.fetchAddr n r.upc < 0x4000 ∧ romWord (d.fetchAddr n r.upc) op = true ∨ d.fetchAddr n r.upc < 0x4400 ∧ d.armed 0x20 n 5 = false ∧ (d.eng n).pbad.contains (d.fetchAddr n r.upc - 0x4000) = false ∧
      Tab.get (fun _ => 0) (d.eng n).pram (d.fetchAddr n r.upc - 0x4000) = op * 2 ^ 15 + w)

/-- The routine with its micro-address as the match registers redirect it (R148). -/
def Dev.redirected (d : Dev) (n : Nat) (r : URun) : URun := { r with upc := d.fetchAddr n r.upc }

end Sys2Proof.Machine
end

