-- ==== Sys2Proof/Certificates/Slice0/Obligations.lean ====
section
/-! DEFINITION. The statements about the model, from the rules of the spec. -/

open Sys2Proof Sys2Proof.Machine

/-- A step takes the command at the front of the queue and runs it on the state with the rest of the queue. On an empty queue the block idles: one MTB tick of
system time passes while the MTB runs, and nothing else changes (the model's choice, notes/assumptions/3.md). -/
def Obligations.StepTakesFront : Prop :=
  (∀ (c : Instr) (s : State), step { s with pending := c :: s.pending } = exec c s) ∧
  (∀ s : State, s.pending = [] → ∃ t, step s = .next t ∧ t.pending = [] ∧ t.store = s.store ∧ t.d = { s.d with time := t.d.time } ∧
    (s.d.bit clkB .CLK_STAT_MTB_LOCK = true → t.d.time = (s.d.time + 1024) % 2 ^ 64) ∧ (s.d.bit clkB .CLK_STAT_MTB_LOCK = false → t.d.time = s.d.time))

/-- Every command answers a next state, and leaves the queue as it finds it. -/
def Obligations.CommandsAnswer : Prop :=
  ∀ (c : Instr) (s : State), ∃ t, exec c s = .next t ∧ t.pending = s.pending

/-- Reset: every register word reads as its register map gives it, but for the LCS page, which shows the life-cycle state that the fuses hold; the queue and
the pattern store list nothing; clocks, links and outputs are off. -/
def Obligations.ResetState : Prop :=
  State.reset.pending = [] ∧ State.reset.store = [] ∧ State.reset.d.clkState = 0 ∧ State.reset.d.lcsState = State.reset.d.fuse.life ∧
    State.reset.d.get lcsB .LCS_STATE_BASE = State.reset.d.fuse.life ∧ State.reset.d.get lcsB .PG_STAT_STATE = State.reset.d.fuse.life ∧
    (∀ a, a ≠ lcsB + 0xC → a ≠ lcsB + 0x40 → State.reset.d.word a = (resetWord a).toNat) ∧
    (∀ g : Fin 1024, (State.reset.d.pin g).drv = .z ∧ State.reset.d.bit (pinBase g) .PIN_STAT_PARKED = true) ∧
    State.reset.d.out = [] ∧ State.reset.d.hif.served = false ∧ State.reset.d.time = 0 ∧ State.reset.d.allCtx = [] ∧
    (∀ c, State.reset.d.cx c = {}) ∧ (∀ n, State.reset.d.eng n = {} ∧ State.reset.d.clu n = {})

/-- The state right after reset is sound. -/
def Obligations.ResetSound : Prop := State.reset.sound = true

/-- Soundness is kept by every step, from every sound state: the pattern store stays in its canonical form and within its 48 GiB (R157). -/
def Obligations.StepKeepsSound : Prop := ∀ s t : State, s.sound = true → step s = .next t → t.sound = true

/-- Only a BAR2 write, the store clear, a geyser write and a resumed stream change the pattern store. -/
def Obligations.StoreFrame : Prop :=
  ∀ (c : Instr) (s t : State), exec c s = .next t →
    (∀ a bs, c ≠ .bar2Write a bs) → c ≠ .patternStoreReady → (∀ q x bs e, c ≠ .geyser q x bs e) → (∀ q bs, c ≠ .streamResume q bs) → t.store = s.store

/-- What events leave unchanged: of the register words all but those named, of the block all but system time, what goes out, and the host interface, link, power,
collector and reset state; and what writes of registers without a side of their own leave unchanged: every other word, and the block but for what the port
notes. -/
def Obligations.Frames : Prop :=
  (∀ (s : State) (r : Fin 8) (x : Fin 4) (n : Fin 32) (q : Fin 4) (k : Fin 33) (i : Fin 2) (mv : BitVec 10) (w : Word) (b : Bool) (l : List Bool) (u v : BitVec 4) (o : MsixOp),
    ∀ f ∈ ([(.msixUnmask o, []), (.vclkLock r, [vpBase r + Fld.CLK_VP_STAT_LOCKED.off, clkB + Fld.CLK_PLL_LOCK_VCLK.off, clkB + 0x10]),
        (.muxSwitch x, [muxBase x + Fld.CLK_SW_STAT_CUR.off]), (.swStuck x, [muxBase x + Fld.CLK_SW_WAIT_AON_CYC.off, clkB + 0x10]),
        (.refOk, [clkB + Fld.CLK_STAT_REF_OK.off, clkB + 0xC]), (.mtbLock, [clkB + Fld.CLK_STAT_MTB_LOCK.off, clkB + Fld.CLK_PLL_LOCK_PLL.off]),
        (.idleEntry n, [pwrCl n + Fld.PWR_CL_STAT_STATE.off]), (.hbmSelfRefresh, []), (.d3hot b, []), (.dvfsStep mv, [pwrB + 0x60]),
        (.dvfsDone, [pwrB + 0x60, pwrB + 0x10]), (.avsTrim b, [pwrB + 0x60]), (.avsRetry, []),
        (.shadowEnd k, [fltB + Fld.FLT_STAT_DEV_SHADOW.off, fltB + Fld.FLT_SHADOW_MAP_CLUSTER.off]),
        (.trainTimeout q, [portB q + Fld.MSL_PORT_STAT_STATE.off]), (.portSignal q, [portB q + Fld.MSL_PORT_STAT_STATE.off]),
        (.autoRootTimeout, [mslB + Fld.MSL_STAT_IS_ROOT.off, mslB + 0xC, mslB + 0x10]), (.calPeriod, []), (.timeSlew, []), (.trigOutPulseEnd i, []),
        (.mspMasterDone w, [mspB + 0x68, mspB + 0x60, mspB + 0x10]), (.pmcDump, [pmcB + 0x58, pmcB + 0x60, pmcB + 0x10]),
        (.linkUp u v, [hifB + 0x40]), (.pcieLinkDown, [hifB + 0x40]), (.porNRelease, []), (.supplyReturn, []), (.perstNRelease, []), (.warmResetDone, []),
        (.idcode, []), (.bypass l, []), (.samplePreload l, [])] : List (Instr × List Nat)),
      Runs f.1 s (fun d => (∀ a, a ∉ f.2 → d.word a = s.d.word a) ∧
        d = { s.d with regs := d.regs, time := d.time, out := d.out, free := d.free, hif := d.hif, lnk := d.lnk, pow := d.pow, flt := d.flt, rst := d.rst, dumps := d.dumps })) ∧
  (∀ (s : State) (p : HPort) (t : Fin 48) (v : Word) (u : BitVec 3),
    ∀ f ∈ ([(.thmMaxWrite p t v, [thmB + 0x200 + 4 * t.val]), (.pmcDumpConsWrite p v, [pmcB + 0x5C]), (.dvfsTargetWrite p u, [pwrB + 0x5C, pwrB + 0x60]),
        (.mspCfgWrite p v, [mspB + 0x40])] : List (Instr × List Nat)),
      (∀ a ∈ f.2.take 1, s.d.reaches p a = true) → Runs f.1 s (fun d => (∀ a, a ∉ f.2 → d.word a = s.d.word a) ∧ d = { s.d with regs := d.regs, msp := d.msp }))

/-- A write of a register of the HIF, SEQ, ACQ and TDC pages (R8), and reads of registers (R36 to R39): the bits that the access codes let a write change,
the data that a read returns, the holder that a low word loads. A high word held for another port stays. -/
def Obligations.RegisterAccess : Prop :=
  ∀ (s : State) (p : HPort) (a : BitVec 24) (kind : PageKind) (base off : Nat) (row : RegRow),
    areaOf a.toNat = .page kind base off → base + off = a.toNat → rowAt kind base off = some (row, false) → a.toNat % 4 = 0 → s.d.reaches p a.toNat = true →
    (∀ v : BitVec 64, row.wide = false → 0x40 ≤ off → kind ∈ [PageKind.hif, .seq, .acq, .tdc] →
      Runs (.registerWrite p a (.bar0 false) v) s (fun d => ∀ i, i < 32 → (d.word a.toNat).testBit i =
        ((((s.d.word a.toNat).testBit i && !row.rw.testBit i) || (v.toNat.testBit i && row.rw.testBit i)) && !(v.toNat.testBit i && row.w1c.testBit i)
          || (v.toNat.testBit i && row.w1s.testBit i)))) ∧
    (row.wide = false → (kind.header = true → off ≠ 0x24) → ¬ (kind = .pin ∧ off = 0x318) →
      Runs (.registerRead p a (.bar0 false)) s (fun d => d.regs = s.d.regs ∧ d.snap = s.d.snap ∧
        d.out = .read p (if row.snap = 0 then s.d.live kind base off else (Tab.get (fun _ => 0) s.d.snap a.toNat).toNat) :: s.d.out)) ∧
    (row.wide = true → row.snap = 0 → kind ≠ .res → kind ≠ .ras → kind.header = true →
      Runs (.lowWordRead p a) s (fun d => d.regs = s.d.regs ∧
        d.out = .read p ((s.d.live kind base off + s.d.live kind base (off + 4) * 2 ^ 32) % 2 ^ 32) :: s.d.out ∧
        Tab.get (fun _ => 0) d.snapHi (holderKey p base) = BitVec.ofNat 32 ((s.d.live kind base off + s.d.live kind base (off + 4) * 2 ^ 32) / 2 ^ 32) ∧
        ∀ k, k ≠ holderKey p base → Tab.get (fun _ => 0) d.snapHi k = Tab.get (fun _ => 0) s.d.snapHi k))

/-- Transactions (R43 to R49): the slots and their commands, as their own state lets them act. -/
def Obligations.TransactionSlots : Prop :=
  ∀ (s : State) (p : HPort) (k : Fin 8) (v : Word),
    (s.d.reaches p (txnSlot k) = true →
      (s.d.txnState k ∈ [0, 4, 5] → Runs (.txnBegin p k v) s (fun d => d.txnState k = 1 ∧ d.slot k = {} ∧ d.get (txnReg k) .TXN_TAG_TAG = v.toNat % 2 ^ 16 ∧
        d.get (txnReg k) .TXN_STAT_COUNT = 0 ∧ d.get txnB .TXN_CAPTURE_SLOT = k ∧ d.bit txnB .TXN_CAPTURE_EN = true)) ∧
      (s.d.txnState k ∉ [0, 4, 5] → Runs (.txnBegin p k v) s (fun d => d.bit (txnReg k) .TXN_STAT_IGNORED = true ∧ d.txnState k = s.d.txnState k ∧ d.slot k = s.d.slot k))) ∧
    (s.d.reaches p (txnB + 0x40) = true →
      (bitOf v.toNat 4 = true → s.d.txnState (v.toNat % 8) = 1 → Runs (.txnCaptureWrite p v) s (fun d => d.get txnB .TXN_CAPTURE_SLOT = v.toNat % 8 ∧ d.bit txnB .TXN_CAPTURE_EN = true)) ∧
      (bitOf v.toNat 4 = true → s.d.txnState (v.toNat % 8) ≠ 1 → Runs (.txnCaptureWrite p v) s (fun d => d.word (txnB + 0x40) = s.d.word (txnB + 0x40))) ∧
      (bitOf v.toNat 4 = false → Runs (.txnCaptureWrite p v) s (fun d => d.get txnB .TXN_CAPTURE_SLOT = v.toNat % 8 ∧ d.bit txnB .TXN_CAPTURE_EN = false))) ∧
    (s.d.reaches p (txnSlot k + 4) = true →
      (s.d.txnState k ≠ 1 → Runs (.txnCommit p k v) s (fun d => d.bit (txnReg k) .TXN_STAT_IGNORED = true ∧ d.txnState k = s.d.txnState k)) ∧
      (s.d.txnState k = 1 → s.d.bit (txnReg k) .TXN_STAT_CONFLICTED = true → Runs (.txnCommit p k v) s (fun d => d.txnState k = 5 ∧ d.get (txnReg k) .TXN_STAT_FAIL = 1 ∧
        d.bitN txnB .PG_IRQ_STAT_BITS k = true)) ∧
      (s.d.txnState k = 1 → s.d.bit (txnReg k) .TXN_STAT_CONFLICTED = false → (s.d.slot k).ovr = true → Runs (.txnCommit p k v) s (fun d => d.txnState k = 5 ∧
        d.get (txnReg k) .TXN_STAT_FAIL = 2)) ∧
      (s.d.txnState k = 1 → s.d.bit (txnReg k) .TXN_STAT_CONFLICTED = false → (s.d.slot k).ovr = false → s.d.badTarget (v.toNat / 2 ^ 28) (v.toNat % 1024) = true →
        Runs (.txnCommit p k v) s (fun d => d.txnState k = 5 ∧ d.get (txnReg k) .TXN_STAT_FAIL = 5)) ∧
      (s.d.txnState k = 1 → s.d.bit (txnReg k) .TXN_STAT_CONFLICTED = false → (s.d.slot k).ovr = false → s.d.badTarget (v.toNat / 2 ^ 28) (v.toNat % 1024) = false →
        Runs (.txnCommit p k v) s (fun d => d.txnState k = 2 ∧ (d.slot k).point = v.toNat / 2 ^ 28 ∧ (d.slot k).target = v.toNat % 1024 ∧ (d.slot k).writes = (s.d.slot k).writes ∧
          (s.d.get txnB .TXN_CAPTURE_SLOT = k → d.bit txnB .TXN_CAPTURE_EN = false) ∧
          ∀ t : Fin 8, t ≠ k → s.d.txnState t ∈ [1, 2, 3] → stagedClash (s.d.slot t).writes (s.d.slot k).writes = true → d.bit (txnReg t) .TXN_STAT_CONFLICTED = true))) ∧
    (s.d.reaches p (txnSlot k + 8) = true →
      (s.d.txnState k = 0 → Runs (.txnRollback p k) s (fun d => d.bit (txnReg k) .TXN_STAT_IGNORED = true ∧ d.txnState k = 0)) ∧
      (s.d.txnState k ≠ 0 → Runs (.txnRollback p k) s (fun d => d.txnState k = 0 ∧ d.slot k = {} ∧ d.get (txnReg k) .TXN_STAT_COUNT = 0 ∧
        (s.d.txnState k = 1 → s.d.get txnB .TXN_CAPTURE_SLOT = k → d.bit txnB .TXN_CAPTURE_EN = false))))

/-- Staging and commit points (R43, R44, R46 to R50): a staged write changes nothing but its slot; a slot whose commit point has come applies. -/
def Obligations.StagingAndApply : Prop :=
  ∀ s : State,
    (∀ (a : BitVec 24) (wide : Bool) (v : BitVec 64) (kind : PageKind) (base off : Nat) (row : RegRow) (hi : Bool) (k : Nat),
      s.d.pcieOk = true → s.d.heldNow a.toNat = false → s.d.capSlot = some k → s.d.hitOf a.toNat wide true = .ok (.reg kind base off row hi) →
      row.txn ≠ 0 → Nat.land (andNot (fullMask wide) row.txn) row.acc = 0 → (kind.header = true → s.d.bit base .PG_STAT_GATED = false) →
      (s.d.slot k).writes.length < 4096 →
      Runs (.txnStageWrite a wide v) s (fun d => (d.slot k).writes = (s.d.slot k).writes ++ [(a.toNat, row.txn, v.toNat % 2 ^ (if wide then 64 else 32))] ∧
        d.get (txnReg k) .TXN_STAT_COUNT = ((s.d.slot k).writes.length + 1) % 2 ^ 13 ∧ d.txnState k = s.d.txnState k ∧ (∀ t, t ≠ k → d.slot t = s.d.slot t) ∧
        ∀ b, b ≠ txnReg k + 0x10C → d.word b = s.d.word b)) ∧
    (∀ k : Fin 8, s.d.txnState k = 2 →
      ((s.d.slot k).point = 1 ∨ (s.d.slot k).point = 3 ∨ (s.d.slot k).point = 2 ∧ s.d.ctxActive (s.d.slot k).target = true →
        Runs (.txnPrepareDone k) s (fun d => d.txnState k = 3 ∧ (d.slot k).writes = (s.d.slot k).writes ∧ (d.slot k).pendT = s.d.time)) ∧
      ((s.d.slot k).point = 2 → s.d.ctxActive (s.d.slot k).target = false →
        Runs (.txnPrepareDone k) s (fun d => d.txnState k = 5 ∧ d.get (txnReg k) .TXN_STAT_FAIL = 3 ∧ d.bitN txnB .PG_IRQ_STAT_BITS k = true)) ∧
      (∀ (a mask v : Nat) (kind : PageKind) (base off : Nat) (row : RegRow), (s.d.slot k).point = 0 → (s.d.slot k).writes = [(a, mask, v)] →
        areaOf a = .page kind base off → base + off = a → kind ∈ [PageKind.seq, .acq, .tdc] → 0x40 ≤ off → rowAt kind base off = some (row, false) →
        row.wide = false → row.w1c = 0 → row.w1s = 0 → s.d.txnBlocked k = false →
        Runs (.txnPrepareDone k) s (fun d => d.txnState k = 4 ∧ d.get (txnReg k) .TXN_APPLY_TIME_TIME = s.d.time % 2 ^ 64 ∧ d.bitN txnB .PG_IRQ_STAT_BITS k = true ∧
          ∀ i, i < 32 → (d.word a).testBit i = (if mask.testBit i && row.rw.testBit i then v.testBit i else (s.d.word a).testBit i)))) ∧
    (∀ (k : Fin 8) (t : Nat), s.d.txnState k = 3 → (s.d.slot k).waitT = some t → (s.d.slot k).writes = [] →
      Runs (.txnLateApply k) s (fun d => d.txnState k = 4 ∧ d.bit (txnReg k) .TXN_STAT_LATE = true ∧
        d.get (txnReg k) .TXN_LATE_TICKS_TICKS = Nat.min ((s.d.time - t) / 1024) (2 ^ 32 - 1) ∧ d.get (txnReg k) .TXN_APPLY_TIME_TIME = s.d.time % 2 ^ 64))

/-- The page header (R31, R38, R41): IRQ_SET, IRQ_EN, SNAP; and MSI-X (R42): what software opens is sent at once if it was pending, each vector as one message,
and nothing else is sent. -/
def Obligations.HeaderWrites : Prop :=
  (∀ (s : State) (p : HPort) (a : BitVec 24) (v : Word) (kind : PageKind), kind.header = true →
    (areaOf (pageOf a.toNat + 0x18) = .page kind (pageOf a.toNat) 0x18 → s.d.reaches p (pageOf a.toNat + 0x18) = true →
      Runs (.pgIrqSet p a v) s (fun d => ∀ i, i < 32 → bitOf (Nat.land v.toNat kind.irqMask) i = true → d.bitN (pageOf a.toNat) .PG_IRQ_STAT_BITS i = true)) ∧
    (areaOf (pageOf a.toNat + 0x14) = .page kind (pageOf a.toNat) 0x14 → s.d.reaches p (pageOf a.toNat + 0x14) = true →
      Runs (.pgIrqEnWrite p a v) s (fun d => d.get (pageOf a.toNat) .PG_IRQ_EN_BITS = Nat.land v.toNat kind.irqMask)) ∧
    (areaOf (pageOf a.toNat + 0x20) = .page kind (pageOf a.toNat) 0x20 → s.d.reaches p (pageOf a.toNat + 0x20) = true →
      Runs (.pgSnap p a v) s (fun d => ∀ row ∈ rowsOf kind, row.snap ≠ 0 → ∀ i, i < row.c1 → ∀ j, j < row.c2 →
      (Tab.get (fun _ => 0) d.snap (pageOf a.toNat + (row.off + i * row.s1 + j * row.s2))).toNat = s.d.word (pageOf a.toNat + (row.off + i * row.s1 + j * row.s2))))) ∧
  (∀ s : State,
    let sent := fun (en fm : Bool) (vs : List Nat) (d : Dev) =>
      d.hif.enable = en ∧ d.hif.fmask = fm ∧ d.hif.vopen = vs ∧
      (∀ v, v ∈ d.hif.pba ↔ v ∈ s.d.hif.pba ∧ (en = false ∨ fm = true ∨ vs.contains v = false)) ∧
      d.out = ((if en && !fm then s.d.hif.pba.filter vs.contains else []).map Out.msix).reverse ++ s.d.out ∧ d.regs = s.d.regs
    (∀ on, Runs (.msixUnmask (.enable on)) s (sent on s.d.hif.fmask s.d.hif.vopen)) ∧
    (∀ m, Runs (.msixUnmask (.function m)) s (sent s.d.hif.enable m s.d.hif.vopen)) ∧
    (∀ v, Runs (.msixUnmask (.vector v true)) s (sent s.d.hif.enable s.d.hif.fmask (s.d.hif.vopen.filter (fun x => x != v.val)))) ∧
    (∀ v, Runs (.msixUnmask (.vector v false)) s (sent s.d.hif.enable s.d.hif.fmask (s.d.hif.vopen.filter (fun x => x != v.val) ++ [v.val]))))

/-- Gates (R390, R391) and soft resets (R497). -/
def Obligations.GatesAndSoftResets : Prop :=
  ∀ (s : State) (p : HPort) (a : BitVec 24) (kind : PageKind), kind.header = true →
    let b := pageOf a.toNat
    (areaOf (b + 8) = .page kind b 8 → s.d.reaches p (b + 8) = true →
      (s.d.bit b .PG_CTRL_GATE_REQ = false → Runs (.gateRequest p a) s (fun d => d.bit b .PG_CTRL_GATE_REQ = true ∧
        (d.bit b .PG_STAT_GATED = true ∨ d.bit b .PG_STAT_GATE_DEFER = true) ∧ d.get b .PG_CTRL_EN = s.d.get b .PG_CTRL_EN)) ∧
      (s.d.bit b .PG_CTRL_GATE_REQ = true → Runs (.gateRelease p a) s (fun d => d.bit b .PG_CTRL_GATE_REQ = false ∧ d.bit b .PG_STAT_GATED = false ∧
        d.bit b .PG_STAT_GATE_DEFER = false ∧ d.get b .PG_CTRL_EN = s.d.get b .PG_CTRL_EN)) ∧
      (s.d.srstOk kind b = true → (kind = .msp → p = .pcie) → Runs (.softReset p a) s (fun d => d.bit b .PG_CTRL_SRST = true ∧ d.bit b .PG_STAT_BUSY = true))) ∧
    (∀ idle, s.d.bit b .PG_STAT_GATE_DEFER = true → s.d.bit b .PG_CTRL_GATE_REQ = true → s.d.bit b .PG_STAT_SELFTEST = false →
      Runs (.gateRetry a idle) s (fun d => d = if idle then (s.d.setb b .PG_STAT_GATED true).setb b .PG_STAT_GATE_DEFER false else s.d)) ∧
    (s.d.bit b .PG_CTRL_SRST = true → (b = mspB → s.d.msp.srst = false) → s.d.hif.held = [] →
      Runs (.softResetDone a) s (fun d => d = (s.d.setb b .PG_CTRL_SRST false).setb b .PG_STAT_BUSY false))

/-- HIF_ERR_FIRST captures the first logged error after VALID was cleared and holds it until software writes VALID with 1; PG_ERR_ADDR is overwritten by every
error in its page (R34). In FALLBACK the HIF page is held in reset (R395). -/
def Obligations.FirstErrorHeld : Prop :=
  ∀ (s : State) (p : HPort) (a : BitVec 24) (wide : Bool) (v : BitVec 64) (c : ErrCause), s.d.reaches p a.toNat = true → s.d.clkState = 2 → (p = .msp → wide = false) →
    s.d.hitOf a.toNat wide true = .error c →
      Runs (.registerWrite p a (.bar0 wide) v) s (fun d =>
        (s.d.bit hifB .HIF_ERR_FIRST_VALID = true → d.word (hifB + 0x4C) = s.d.word (hifB + 0x4C)) ∧
        (s.d.bit hifB .HIF_ERR_FIRST_VALID = false → d.bit hifB .HIF_ERR_FIRST_VALID = true ∧ d.bit hifB .HIF_ERR_FIRST_WRITE = true ∧ d.get hifB .HIF_ERR_FIRST_CAUSE = c.code ∧
          d.get hifB .HIF_ERR_FIRST_ADDR = a.toNat) ∧
        (∀ kind base off, areaOf a.toNat = .page kind base off → kind.header = true → d.word (base + 0x28) = 2 ^ 31 + c.code * 2 ^ 24 + off)) ∧
      (wide = false → s.d.hitOf a.toNat false false = .error c → Runs (.registerRead p a (.bar0 false)) s (fun d =>
        (s.d.bit hifB .HIF_ERR_FIRST_VALID = true → d.word (hifB + 0x4C) = s.d.word (hifB + 0x4C)) ∧
        (s.d.bit hifB .HIF_ERR_FIRST_VALID = false → d.bit hifB .HIF_ERR_FIRST_VALID = true ∧ d.bit hifB .HIF_ERR_FIRST_WRITE = false ∧ d.get hifB .HIF_ERR_FIRST_CAUSE = c.code ∧
          d.get hifB .HIF_ERR_FIRST_ADDR = a.toNat) ∧
        (∀ kind base off, areaOf a.toNat = .page kind base off → kind.header = true → d.word (base + 0x28) = 2 ^ 31 + c.code * 2 ^ 24 + off) ∧
        d.out = .read p (c.data false) :: s.d.out)) ∧
    (∀ x : BitVec 64, s.d.reaches p (hifB + 0x4C) = true → Runs (.registerWrite p 0x104C (.bar0 false) x) s (fun d =>
      d.bit hifB .HIF_ERR_FIRST_VALID = (s.d.bit hifB .HIF_ERR_FIRST_VALID && !bitOf x.toNat 31)))

/-- A detection that is not consequential while FLT_FIRST.VALID = 1 sets FLT_OVF.SET and increments FLT_OVF.COUNT, which saturates; a write of SET with 1 clears
both (R430). Detections that come together are logged one after the other. -/
def Obligations.FaultOverflow : Prop :=
  ∀ (s : State) (p : HPort) (x : BitVec 64),
    (s.d.bit fltB .FLT_FIRST_VALID = true → ∀ (type unit bit : Nat) (own : List Nat) (level inj : Bool), s.d.consequential (srcWord type unit bit) = false →
      let d := s.d.collectNow type unit bit own level inj false
      d.bit fltB .FLT_OVF_SET = true ∧ d.get fltB .FLT_OVF_COUNT = Nat.min (s.d.get fltB .FLT_OVF_COUNT + 1) (2 ^ 16 - 1) ∧ d.word (fltB + 0x40) = s.d.word (fltB + 0x40)) ∧
    (s.d.reaches p (fltB + 0x50) = true → bitOf x.toNat 31 = true → Runs (.registerWrite p 0x6050 (.bar0 false) x) s (fun d =>
      d.bit fltB .FLT_OVF_SET = false ∧ d.get fltB .FLT_OVF_COUNT = 0)) ∧
    (s.d.reaches p (fltB + 0x50) = true → bitOf x.toNat 31 = false → Runs (.registerWrite p 0x6050 (.bar0 false) x) s (fun d => d.word (fltB + 0x50) = s.d.word (fltB + 0x50)))

/-- The target state of a cluster, as PWR_CL_STAT shows it (R401): the deepest state that the tolerance allows, limited by the first condition that applies;
BLOCK shows every condition that applies. -/
def Obligations.TargetState : Prop :=
  ∀ (s : State) (p : HPort) (a : BitVec 24) (n : Fin 32), a.toNat = pwrB + 0x108 + 0x10 * n.val → s.d.reaches p a.toNat = true →
    let tol := s.d.get (pwrCl n) .PWR_CL_TOL_NS
    let deep := if 200000 ≤ tol then 3 else if 16000 ≤ tol then 2 else 1
    let cs := s.d.ctxOfCluster n
    let rows : List (Bool × Nat) :=
      [(cs.any (fun c => s.d.ctxState c == 3 || s.d.ctxState c == 4), 0),
       ((s.d.clu n).slice != 0 || (s.d.clu n).bst.isSome, 0),
       ((List.range 4).any (fun x => s.d.genState (4 * n + x) == 1 || s.d.genState (4 * n + x) == 2) || s.d.rasOnCluster n, 1),
       (cs.any (fun c => s.d.ctxState c == 2), 2),
       ((List.range 2).any (fun i => s.d.dpsState (2 * n + i) > 1), 2),
       (s.d.bufLevel n != 0, 2),
       (s.d.bit (pwrCl n) .PWR_CL_CFG_FORCE_RUN, 0)]
    Runs (.registerRead p a (.bar0 false)) s (fun d => ∃ v, d.out = .read p v :: s.d.out ∧
      v / 2 ^ 24 % 16 = (match rows.find? (fun r => r.1) with | some r => Nat.min deep r.2 | none => deep) ∧
      v % 2 ^ 7 = ((List.range 7).map (fun i => if (rows.getD i (false, 0)).1 then 2 ^ i else 0)).sum ∧ v / 2 ^ 28 = s.d.clState n)

/-- Start-up and selection of the clocks (R386, R388, R394, R395, R399): what each event of the start-up leaves in the CLK page. -/
def Obligations.ClockStart : Prop :=
  ∀ s : State,
    (s.d.coldHeld = false → s.d.pow.stop = false → s.d.clkState ≤ 1 →
      Runs .refOk s (fun d => d.bit clkB .CLK_STAT_REF_OK = true ∧ d.clkState = 0)) ∧
    (s.d.coldHeld = false → s.d.pow.stop = false → s.d.clkState = 3 → Runs .refOk s (fun d => d = s.d.setb clkB .CLK_STAT_REF_OK true)) ∧
    (s.d.pow.stop = false → s.d.clkState ≤ 1 → s.d.bit clkB .CLK_STAT_REF_OK = true → s.d.bit clkB .CLK_STAT_MTB_LOCK = false →
      Runs .mtbLock s (fun d => d.bit clkB .CLK_STAT_MTB_LOCK = true ∧ d.bitN clkB .CLK_PLL_LOCK_PLL 0 = true ∧ d.time = 0 ∧
        ∀ a, a ≠ clkB + 0x40 → a ≠ clkB + 0x44 → d.word a = s.d.word a)) ∧
    (s.d.clkState ≤ 1 → s.d.bit clkB .CLK_STAT_MTB_LOCK = true →
      Runs .clockNormal s (fun d => d.clkState = 2 ∧ d.get clkB .CLK_PLL_LOCK_PLL = 0x3F ∧ d.hif.served = s.d.rst.busy.isNone ∧ d.time = s.d.time)) ∧
    (∀ cnt : BitVec 16, s.d.coldHeld = false → s.d.pow.stop = false → s.d.clkState ≤ 1 → s.d.rst.bkosc = true → s.d.bit clkB .CLK_STAT_BKOSC_QUAL = false →
      Runs (.bkoscQualCheck cnt) s (fun d => d.get clkB .CLK_BKOSC_CNT_COUNT = cnt.toNat ∧
        (d.bit clkB .CLK_STAT_BKOSC_QUAL = true ↔ 5888 ≤ cnt.toNat ∧ cnt.toNat ≤ 6912) ∧
        (¬ (5888 ≤ cnt.toNat ∧ cnt.toNat ≤ 6912) → (s.d.rst.qualN < 3 → d.rst.qualN = s.d.rst.qualN + 1) ∧
          (3 ≤ s.d.rst.qualN → d.bit clkB .CLK_STAT_BKOSC_FAIL = true ∧ d.bitN clkB .PG_FLT_STAT_BITS 1 = true ∧ s.d.recorded d (srcWord 0x04 0 1))))) ∧
    (∀ r : Fin 8, s.d.bit (vpBase r) .CLK_VP_STAT_OFF = false → s.d.bit (vpBase r) .CLK_VP_STAT_LOCKED = false →
      Runs (.vclkLock r) s (fun d => d.bit (vpBase r) .CLK_VP_STAT_LOCKED = true ∧ d.bitN clkB .CLK_PLL_LOCK_VCLK r = true ∧
        d.bitN clkB .PG_IRQ_STAT_BITS 3 = true ∧ d.time = s.d.time ∧ d.pins = s.d.pins ∧ d.ctxs = s.d.ctxs)) ∧
    (∀ m : Fin 4, s.d.get (muxBase m) .CLK_SW_STAT_STATE = 1 →
      let gated := [pwrB, bstB, rasB].any (fun b => s.d.bit b .PG_STAT_GATED && [pwrB, bstB, rasB].idxOf b == m.val)
      (gated = true → Runs (.muxSwitch m) s (fun d => d = s.d)) ∧
      (gated = false → Runs (.muxSwitch m) s (fun d => d.get (muxBase m) .CLK_SW_STAT_CUR = s.d.get (muxBase m) .CLK_SW_STAT_REQ ∧ d.get (muxBase m) .CLK_SW_STAT_STATE = 0 ∧
        ∀ a, a ≠ muxBase m + 0x104 → d.word a = s.d.word a))) ∧
    (∀ m : Fin 4, s.d.get (muxBase m) .CLK_SW_STAT_STATE = 1 →
      Runs (.swStuck m) s (fun d => d.bitN clkB .PG_IRQ_STAT_BITS 1 = true ∧ d.get (muxBase m) .CLK_SW_STAT_STATE = 1))

/-- The clock monitors (R393, R395 to R398): each detection sets its bit of PG_FLT_STAT and reaches the collector; a loss of the reference
brings FALLBACK or, without a qualified BKOSC, SAFE-WAIT, and its return ends SAFE-WAIT. -/
def Obligations.ClockFaults : Prop :=
  ∀ s : State,
    Runs .aonFail s (fun d => d.bitN clkB .PG_FLT_STAT_BITS 2 = true ∧ s.d.recorded d (srcWord 0x04 0 2)) ∧
    (s.d.bit clkB .CLK_STAT_BKOSC_QUAL = true → s.d.clkState ≠ 3 →
      Runs .bkoscFail s (fun d => d.bit clkB .CLK_STAT_BKOSC_QUAL = false ∧ d.bitN clkB .PG_FLT_STAT_BITS 1 = true ∧ s.d.recorded d (srcWord 0x04 0 1))) ∧
    (s.d.bit clkB .CLK_STAT_BKOSC_QUAL = true → s.d.clkState = 3 →
      Runs .bkoscFail s (fun d => d.clkState = 4 ∧ d.bitN clkB .PG_FLT_STAT_BITS 1 = true ∧ d.word (fltB + 0x40) = s.d.word (fltB + 0x40))) ∧
    (∀ i : Fin 7, i ≠ 0 → s.d.bitN clkB .CLK_PLL_LOCK_PLL i = true →
      Runs (.pllUnlock i) s (fun d => d.bitN clkB .CLK_PLL_LOCK_PLL i = false ∧ d.bitN clkB .CLK_UNLOCK_MAP_PLL i = true ∧
        d.bitN clkB .PG_FLT_STAT_BITS 3 = true ∧ s.d.recorded d (srcWord 0x04 0 3))) ∧
    (∀ r : Fin 8, s.d.bit (vpBase r) .CLK_VP_STAT_LOCKED = true →
      Runs (.vclkUnlock r) s (fun d => d.bit (vpBase r) .CLK_VP_STAT_LOCKED = false ∧ d.bitN clkB .CLK_UNLOCK_MAP_PLL (8 + r) = true ∧
        d.bitN clkB .PG_FLT_STAT_BITS 4 = true ∧ s.d.recorded d (srcWord 0x04 0 4))) ∧
    (s.d.refWatched = true → s.d.clkState ≤ 2 →
      Runs .refLoss s (fun d => d.clkState = (if s.d.bit clkB .CLK_STAT_BKOSC_QUAL then 3 else 4) ∧ d.bitN clkB .PG_FLT_STAT_BITS 0 = true ∧
        d.get clkB .CLK_REF_LOSS_CNT_COUNT = Nat.min (s.d.get clkB .CLK_REF_LOSS_CNT_COUNT + 1) (2 ^ 32 - 1) ∧
        (∀ g, (d.pin g).drv = .z ∧ (d.pin g).owner = none) ∧ d.ctxs = [] ∧ d.hif.served = false ∧ d.faultNLow = true ∧ d.bit fltB .FLT_STAT_DEV_SHADOW = true ∧
        (s.d.consequential (srcWord 0x04 0 0) = false → s.d.bit fltB .FLT_FIRST_VALID = false →
          d.bit fltB .FLT_FIRST_VALID = true ∧ d.get fltB .FLT_FIRST_SOURCE = srcWord 0x04 0 0 ∧ d.get fltB .FLT_FIRST_CLASS = 2))) ∧
    (s.d.refWatched = true → s.d.clkState = 4 → s.d.get bstB .PG_STAT_STATE ≠ 2 →
      Runs .refReturn s (fun d => d.word (glbB + 0x4C) = 64 ∧ d.clkState = 0 ∧ d.pins = [] ∧ d.ctxs = [] ∧ (∀ a ∈ aonWords, d.word a = s.d.word a)))

/-- Writes of the CLK page (R386 to R389): vector periods, source requests, domain resets, forced sources. -/
def Obligations.ClockWrites : Prop :=
  ∀ (s : State) (p : HPort),
    (∀ (r : Fin 8) (v : Word), s.d.reaches p (clkB + 0x80 + 8 * r.val) = true →
      (s.d.vpBusy r = false → Runs (.clkVpPeriodWrite p r v) s (fun d => d.get (vpBase r) .CLK_VP_PERIOD_PERIOD = v.toNat % 2 ^ 20 ∧
        (s.d.bit (vpBase r) .CLK_VP_STAT_OFF = true → d.get (vpBase r) .CLK_VP_STAT_PERIOD_NOW = s.d.get (vpBase r) .CLK_VP_STAT_PERIOD_NOW) ∧
        (s.d.bit (vpBase r) .CLK_VP_STAT_OFF = false → d.get (vpBase r) .CLK_VP_STAT_PERIOD_NOW = clampTv (v.toNat % 2 ^ 20) ∧
          d.bit (vpBase r) .CLK_VP_STAT_LOCKED = false ∧ d.bitN clkB .CLK_PLL_LOCK_VCLK r = false))) ∧
      (s.d.vpBusy r = true → s.d.clkState ≠ 3 → Runs (.clkVpPeriodWrite p r v) s (fun d => d.word (vpBase r + 0x80) = s.d.word (vpBase r + 0x80) ∧
        d.word (vpBase r + 0x84) = s.d.word (vpBase r + 0x84) ∧ (s.d.bit hifB .HIF_ERR_FIRST_VALID = false → d.get hifB .HIF_ERR_FIRST_CAUSE = 6)))) ∧
    (∀ (x : Fin 4) (sel : BitVec 4), s.d.reaches p (clkB + 0x100 + 0x10 * x.val) = true →
      (x.val < 2 → sel.toNat < 2 → s.d.get (muxBase x) .CLK_SW_STAT_REQ ≠ sel.toNat → Runs (.muxSelect p x sel) s (fun d =>
        d.get (muxBase x) .CLK_MUX_CTRL_SEL = sel.toNat ∧ d.get (muxBase x) .CLK_SW_STAT_REQ = sel.toNat ∧
        d.bit (muxBase x) .CLK_MUX_CTRL_RST = s.d.bit (muxBase x) .CLK_MUX_CTRL_RST ∧
        d.get (muxBase x) .CLK_SW_STAT_CUR = s.d.get (muxBase x) .CLK_SW_STAT_CUR ∧
        d.get (muxBase x) .CLK_SW_STAT_STATE = (if s.d.get (muxBase x) .CLK_SW_STAT_CUR = sel.toNat then 0 else 1))) ∧
      (x.val = 3 → Runs (.muxSelect p x sel) s (fun d => ∀ a, clkB ≤ a → a < clkB + 0x1000 → d.word a = s.d.word a)) ∧
      (x.val ≠ 3 → (x.val = 2 → s.d.bit rasB .RAS_CTRL_EN = false) → ∀ on, Runs (.muxReset p x on) s (fun d => d.bit (muxBase x) .CLK_MUX_CTRL_RST = on)) ∧
      (x.val < 2 → s.d.bit (muxBase x) .CLK_MUX_CTRL_RST = true → Runs (.muxForce p x sel) s (fun d => d.get (muxBase x) .CLK_MUX_CTRL_SEL = sel.toNat ∧
        d.get (muxBase x) .CLK_SW_STAT_REQ = sel.toNat ∧ d.get (muxBase x) .CLK_SW_STAT_CUR = sel.toNat ∧ d.get (muxBase x) .CLK_SW_STAT_STATE = 2)) ∧
      (x.val < 2 → s.d.bit (muxBase x) .CLK_MUX_CTRL_RST = false → Runs (.muxForce p x sel) s (fun d => d.bit (muxBase x) .CLK_SW_STAT_FORCE_REFUSED = true ∧
        d.get (muxBase x) .CLK_SW_STAT_CUR = s.d.get (muxBase x) .CLK_SW_STAT_CUR)))

/-- Enabling, settling, disabling and parking a pin channel (R89 to R93, R200, R202). -/
def Obligations.PinEnable : Prop :=
  ∀ (s : State) (g : Fin 1024) (p : HPort),
    let x := s.d.pin g
    let b := pinBase g
    (s.d.reaches p (b + 8) = true → s.d.bit b .PG_CTRL_EN = false → x.safe = false → Runs (.channelEnable p g) s (fun d =>
      d.bit b .PG_CTRL_EN = true ∧ d.pins = s.d.pins ∧ d.pmus = s.d.pmus ∧ d.get b .PMU_STAT_SEQ ≠ 7 ∧ ∀ a, a ≠ b + 8 → a ≠ b + 0x21C → d.word a = s.d.word a)) ∧
    (s.d.reaches p (b + 8) = true → s.d.bit b .PG_CTRL_EN = false → x.safe = true → s.d.bit hifB .HIF_ERR_FIRST_VALID = false → Runs (.channelEnable p g) s (fun d =>
      d.bit b .PG_CTRL_EN = false ∧ d.pins = s.d.pins ∧ d.get hifB .HIF_ERR_FIRST_CAUSE = 6)) ∧
    (x.phase = .enaSlew → s.d.lvlNow g = x.tgt → (s.d.pmu g).atEna = none → Runs (.enableSettled g) s (fun d => (d.pin g).phase = .idle ∧
      (s.d.clState (g / 32) ≠ 3 → (d.pin g).clamp = s.d.bit b .PIN_CTRL_CLAMP_EN) ∧ (d.pin g).pull = s.d.bit b .PIN_CTRL_PULL ∧
      (s.d.clState (g / 32) < 2 → (d.pin g).cmp = x.mode ∧ (x.cmp ≠ x.mode → x.mode ≠ .off → d.bit b .PIN_CMP_STAT_SETTLING = true) ∧
        (d.pin g).drv = (if (s.d.service g).isSome then x.drv else drvOfCode (s.d.get b .PIN_CTRL_STATIC))) ∧
      (s.d.clState (g / 32) = 2 → (d.pin g).cmp = sleepMode (s.d.get b .PIN_CMP_SLEEP_MODE) false ∧ (d.pin g).drv = drvOfCode (s.d.get b .PIN_CTRL_NAP_STATE)) ∧
      (s.d.clState (g / 32) = 3 → (d.pin g).cmp = sleepMode (s.d.get b .PIN_CMP_SLEEP_MODE) true ∧ (d.pin g).drv = .z ∧ (d.pin g).clamp = false) ∧
      d.lvlNow g = s.d.lvlNow g)) ∧
    (s.d.reaches p (b + 8) = true → s.d.bit b .PG_CTRL_EN = true → x.safe = false → x.phase ≠ .disSlew → Runs (.channelDisable p g) s (fun d =>
      d.bit b .PG_CTRL_EN = false ∧ (d.pin g).phase = .disSlew ∧ (d.pin g).drv = .z ∧ (d.pin g).clamp = false ∧ (d.pin g).pull = true ∧ (d.pin g).cmp = .off ∧
      (d.pin g).tgt = [0x40000, 0x40000, 0x40000, 0x40000, 0x40000, 0x40000] ∧ (d.pmu g).seq = .disconnect ∧ (d.pmu g).park = true ∧
      d.get b .PMU_STAT_SEQ = 6 ∧ ((s.d.service g).isSome = true → d.bit b .PIN_STAT_PARKED_IN_USE = true))) ∧
    (x.phase = .disSlew → s.d.lvlNow g = zeroLevels → Runs (.parkComplete g) s (fun d => (d.pin g).phase = .idle ∧ d.get b .PIN_STAT_SPAN_NOW = 1 ∧
      d.bit b .PIN_STAT_PARKED = true ∧ d.lvlNow g = zeroLevels ∧ ((s.d.pmu g).seq = .none → d.get b .PMU_STAT_SPAN_NOW = 1 ∧ d.get b .PMU_STAT_IRANGE_NOW = 3 ∧
        d.get b .PMU_STAT_MODE_NOW = 0 ∧ d.bit b .PMU_STAT_CONN = false)))

/-- Levels, spans, comparators, blanking, clamps and faults of a pin channel (R60, R61, R65, R66, R69, R70, R71 to R75). -/
def Obligations.PinEvents : Prop :=
  ∀ (s : State) (g : Fin 1024),
    let x := s.d.pin g
    let b := pinBase g
    (x.tgt.length = 6 → (∀ t ∈ x.tgt, t < 2 ^ 20) → Runs (.levelSlewStep g) s (fun d => d.lvlNow g =
        (s.d.lvlNow g).zipWith (fun now t => if x.step = 0 then t
          else if now < t then Nat.min t (now + x.step) else Nat.max t (now - x.step)) x.tgt ∧ d.pins = s.d.pins ∧
      ∀ a, a < b + 0x60 ∨ b + 0x78 ≤ a → d.word a = s.d.word a)) ∧
    (x.phase = .spanToZero → s.d.lvlNow g = zeroLevels → x.spanTgt < 2 → Runs (.spanSwitch g) s (fun d => d.get b .PIN_STAT_SPAN_NOW = x.spanTgt ∧
      (d.pin g).phase = .spanFromZero ∧ (d.pin g).tgt = (s.d.lvlCodes g).map (fun c => if c < 0x0CCCD then 0x0CCCD else if 0xF3333 < c then 0xF3333 else c) ∧
      (d.pin g).tgt.length = 6)) ∧
    (x.phase = .spanFromZero → s.d.lvlNow g = x.tgt → x.defer = none → Runs (.spanDone g) s (fun d => d.bit b .PIN_STAT_SPAN_BUSY = false ∧
      (d.pin g).phase = (if x.enaSpan then .enaSlew else .idle) ∧ d.bitN b .PG_IRQ_STAT_BITS 4 = true ∧ d.lvlNow g = s.d.lvlNow g)) ∧
    (s.d.bit b .PIN_CMP_STAT_SETTLING = true →
      (s.d.bit b .PIN_STAT_SPAN_BUSY = false → x.blank = false → x.cmp ≠ .off → Runs (.comparatorSettled g) s (fun d => d.bit b .PIN_CMP_STAT_SETTLING = false ∧
        d.bit b .PIN_CMP_STAT_CH = x.rawCH ∧ d.bit b .PIN_CMP_STAT_CL = x.rawCL)) ∧
      (s.d.bit b .PIN_STAT_SPAN_BUSY = true ∨ x.blank = true → Runs (.comparatorSettled g) s (fun d => d = s.d.setb b .PIN_CMP_STAT_SETTLING false))) ∧
    (∀ (high : Bool) (v : Int) tick raw,
      let half : Int := (if (s.d.service g).isSome && !x.safe then 0 else [0, 10, 25, 50].getD x.hyst 0 : Nat) * 2 ^ 19
      let th := s.d.lvlQ g (if high then 3 else 4)
      let rise := if high then (decide (th + half < v) || (decide (th - half ≤ v) && x.rawCH)) else (decide (v < th - half) || (decide (v ≤ th + half) && x.rawCL))
      let out := if high then Fld.PIN_CMP_STAT_CH else Fld.PIN_CMP_STAT_CL
      let k := (if high then 0 else 2) + (if rise then 0 else 1)
      (x.cmp ≠ .off → s.d.cmpHeld g = false → s.d.bit b out ≠ rise → Runs (.pinComparatorEdge g high v tick raw) s (fun d => d.bit b out = rise ∧
        (if high then (d.pin g).rawCH else (d.pin g).rawCL) = rise ∧ d.bitN b .PG_IRQ_STAT_BITS k = true)) ∧
      (x.cmp = .off ∨ s.d.cmpHeld g = true → Runs (.pinComparatorEdge g high v tick raw) s (fun d => d.regs = s.d.regs ∧
        (if high then (d.pin g).rawCH else (d.pin g).rawCL) = rise))) ∧
    (∀ (r : Fin 8) (t : Fin 4),
      let tb := blankBase r + 16 * t
      let sel := fun (h : Fin 1024) => decide (h.val / 128 = r.val) && (s.d.service h).isSome && (s.d.pin h).bsel == t.val + 1
      let key := 4 * r.val + t.val
      let restart := s.d.get tb .SEQ_BLANK_CFG_MODE = 2 ∧ s.d.blankArm.contains key = true
      (s.d.get tb .SEQ_BLANK_WIDTH_WIDTH ≠ 0 → s.d.get tb .SEQ_BLANK_CFG_MODE = 1 → Runs (.blankWindow r t true) s (fun d => d.regs = s.d.regs ∧
        d.blankOpen = s.d.blankOpen ++ [key] ∧ ∀ h : Fin 1024, (d.pin h).blank = (sel h || (s.d.pin h).blank))) ∧
      (s.d.get tb .SEQ_BLANK_CFG_MODE = 2 → s.d.blankArm.contains (4 * r.val + t.val) = false → Runs (.blankWindow r t true) s (fun d => d = s.d)) ∧
      (¬ restart → (s.d.blankOpen.erase key).contains key = false → Runs (.blankWindow r t false) s (fun d => d.blankOpen = s.d.blankOpen.erase key ∧
        ∀ h : Fin 1024, (d.pin h).blank = (!sel h && (s.d.pin h).blank))) ∧
      ((s.d.blankOpen.erase key).contains key = true → Runs (.blankWindow r t false) s (fun d => d.pins = s.d.pins ∧ d.regs = s.d.regs)) ∧
      (restart → Runs (.blankWindow r t false) s (fun d => d = s.d))) ∧
    (∀ v : Int, let lo := s.d.lvlQ g 1 - (x.margin + 1) * 100 * 2 ^ 20
      let lo := if lo < -2400 * 2 ^ 20 then -2400 * 2 ^ 20 else lo
      (x.clamp = true → s.d.lvlQ g 5 < v → Runs (.clampConduction g v) s (fun d => d.bit b .PIN_STAT_CLAMP_HI = true ∧ d.bitN b .PG_IRQ_STAT_BITS 7 = true ∧ d.pins = s.d.pins)) ∧
      (x.clamp = true → v < lo → Runs (.clampConduction g v) s (fun d => d.bit b .PIN_STAT_CLAMP_LO = true ∧ d.bitN b .PG_IRQ_STAT_BITS 7 = true ∧ d.pins = s.d.pins)) ∧
      (x.clamp = false ∨ (lo ≤ v ∧ v ≤ s.d.lvlQ g 5) → Runs (.clampConduction g v) s (fun d => d = s.d))) ∧
    (∀ i : Fin 3, s.d.srcSlice (srcWord 0x28 g i) = none → Runs (.pinFaultDetect g i) s (fun d => d.bitN b .PG_FLT_STAT_BITS i = true ∧
      s.d.recorded d (srcWord 0x28 g i)))

/-- The sequences of a pin's force and measure unit (R185, R191 to R198, R211, R212, R500). A connect has two timed switch steps: the amplifier forces
the tracking reading while the switch closes, then CONN is set and the final slew starts. -/
def Obligations.PmuSequences : Prop :=
  ∀ (s : State) (g : Fin 1024),
    let x := s.d.pmu g
    let b := pinBase g
    let m := s.d.get b .PMU_STAT_MODE_NOW
    let free := s.d.ownerHolding g = false
    let sine := s.d.bit b .PMU_STAT_SINE_ON
    (∀ track, free → x.sw = false → x.set.mode < 4 →
      (x.seq = .connect → x.forces = false → Runs (.pmuSwitchStep g track) s (fun d => (d.pmu g).forces = true ∧ (d.pmu g).sw = false ∧ (d.pmu g).seq = .connect ∧
        d.get b .PMU_STAT_MODE_NOW = x.set.mode ∧ d.bit b .PMU_STAT_CONN = s.d.bit b .PMU_STAT_CONN ∧
        (x.set.mode = 1 → (d.pmu g).centre = pmuClip 1 x.set.span track.toNat) ∧ (x.set.mode = 2 → (d.pmu g).centre = 0x80000))) ∧
      (x.seq = .connect → x.forces = true → Runs (.pmuSwitchStep g track) s (fun d => (d.pmu g).sw = true ∧ (d.pmu g).seq = .connect ∧ d.bit b .PMU_STAT_CONN = true ∧
        (x.set.mode ≠ 3 → (d.pmu g).tgt = pmuClip x.set.mode x.set.span x.set.force))) ∧
      (x.seq = .engage → Runs (.pmuSwitchStep g track) s (fun d => (d.pmu g).sw = true ∧ (d.pmu g).seq = .engage ∧ d.get b .PMU_STAT_MODE_NOW = x.set.mode ∧
        (x.set.mode ≠ 3 → (d.pmu g).tgt = pmuClip x.set.mode x.set.span x.set.force)))) ∧
    (∀ track, free → x.sw = false → x.centre = x.tgt → sine = false → x.zWait = false →
      (x.seq = .release ∨ x.seq = .disconnect → Runs (.pmuSwitchStep g track) s (fun d => (d.pmu g).sw = true ∧ (d.pmu g).seq = x.seq ∧
        d.get b .PMU_STAT_MODE_NOW = m)) ∧
      (x.seq = .zero → x.set.mode < 4 → x.set.span < 2 → Runs (.pmuSwitchStep g track) s (fun d => (d.pmu g).sw = true ∧ d.get b .PMU_STAT_MODE_NOW = x.set.mode ∧
        d.get b .PMU_STAT_SPAN_NOW = x.set.span ∧ (d.pmu g).set.force = s.d.get b .PMU_FORCE_CODE ∧
        (d.pmu g).tgt = pmuClip x.set.mode x.set.span (s.d.get b .PMU_FORCE_CODE)))) ∧
    (∀ track, (x.seq = .release ∨ x.seq = .disconnect ∨ x.seq = .zero) → (x.centre ≠ x.tgt ∨ sine = true ∨ x.zWait = true) →
      Runs (.pmuSwitchStep g track) s (fun d => d = s.d)) ∧
    (∀ track, s.d.ownerHolding g = true → Runs (.pmuSwitchStep g track) s (fun d => d = s.d) ∧ Runs (.pmuSlewStep g) s (fun d => d = s.d) ∧
      Runs (.pmuSeqEnd g) s (fun d => d = s.d) ∧ Runs (.pmuSineUpdate g) s (fun d => d = s.d)) ∧
    (free → x.seq ≠ .range → (x.seq = .connect ∨ x.seq = .engage → x.sw = true) →
      let step := s.d.get b .PMU_SLEW_STEP_STEP
      let next := if step = 0 then x.tgt else if x.centre < x.tgt then Nat.min x.tgt (x.centre + step) else Nat.max x.tgt (x.centre - step)
      Runs (.pmuSlewStep g) s (fun d => (d.pmu g).centre = next ∧ d.bit b .PMU_STAT_SLEWING = decide (next ≠ x.tgt) ∧
        d.get b .PMU_FORCE_NOW_CODE = (if sine then s.d.get b .PMU_FORCE_NOW_CODE else next % 2 ^ 20))) ∧
    (free → x.measSw = true → Runs (.pmuSeqEnd g) s (fun d => (d.pmu g).measSw = false ∧ (d.pmu g).seq = x.seq ∧ d.regs = s.d.regs)) ∧
    (free → x.measSw = false → x.sw = true → x.defer = none →
      ((x.seq = .connect ∨ x.seq = .engage ∨ x.seq = .zero) → x.centre = x.tgt → Runs (.pmuSeqEnd g) s (fun d => (d.pmu g).seq = .none ∧ d.get b .PMU_STAT_SEQ = 2 ∧
        (x.set.sine = true → (m = 1 ∨ m = 2) → sine = false → (d.pmu g).sineReq = true))) ∧
      (x.seq = .release → Runs (.pmuSeqEnd g) s (fun d => (d.pmu g).seq = .none ∧ d.get b .PMU_STAT_SEQ = 2 ∧ d.get b .PMU_STAT_MODE_NOW = 3)) ∧
      (x.seq = .disconnect → x.park = false → x.back = false → x.set.span < 2 → x.set.range < 5 → Runs (.pmuSeqEnd g) s (fun d => (d.pmu g).seq = .none ∧
        d.get b .PMU_STAT_SEQ = 0 ∧ d.get b .PMU_STAT_MODE_NOW = 0 ∧ d.bit b .PMU_STAT_CONN = false ∧ d.get b .PMU_STAT_SPAN_NOW = x.set.span ∧
        d.get b .PMU_STAT_IRANGE_NOW = x.set.range ∧ (d.pmu g).set = x.set)) ∧
      (x.seq = .disconnect → x.park = true → x.atEna = none → Runs (.pmuSeqEnd g) s (fun d => (d.pmu g).seq = .none ∧ d.get b .PMU_STAT_MODE_NOW = 0 ∧
        d.bit b .PMU_STAT_CONN = false ∧ d.get b .PMU_STAT_SPAN_NOW = 1 ∧ d.get b .PMU_STAT_IRANGE_NOW = 3))) ∧
    (free → x.measSw = false → x.defer = none → x.seq = .range → x.set.span < 2 → x.set.range < 5 → Runs (.pmuSeqEnd g) s (fun d => (d.pmu g).seq = .none ∧
      d.get b .PMU_STAT_SEQ = 2 ∧ d.get b .PMU_STAT_SPAN_NOW = x.set.span ∧ d.get b .PMU_STAT_IRANGE_NOW = x.set.range)) ∧
    (free → (m = 1 ∨ m = 2) →
      (sine = true → x.sineEnd = false →
        let a := (x.acc + Nat.min x.set.ftw 0x06666666) % 2 ^ 32
        let amp := if a / 2 ^ 31 ≠ x.acc / 2 ^ 31 then x.set.amp else x.amp
        Runs (.pmuSineUpdate g) s (fun d => (d.pmu g).acc = a ∧ (d.pmu g).amp = amp ∧ d.bit b .PMU_STAT_SINE_ON = true ∧ (d.pmu g).centre = x.centre ∧
          (m = 2 ∨ s.d.get b .PMU_STAT_SPAN_NOW = 0 →
            let y : Int := x.centre * 2 ^ 60 + amp * sinCircle a (2 ^ 30)
            (0x1999A + 3) * 2 ^ 60 ≤ y → y ≤ (0xE6666 - 3) * 2 ^ 60 →
            y - 2 * 2 ^ 60 ≤ d.get b .PMU_FORCE_NOW_CODE * 2 ^ 60 ∧ (d.get b .PMU_FORCE_NOW_CODE : Int) * 2 ^ 60 ≤ y + 2 * 2 ^ 60))) ∧
      (sine = true → x.sineEnd = true → x.zWait = false → (x.acc + Nat.min x.set.ftw 0x06666666) % 2 ^ 32 / 2 ^ 31 ≠ x.acc / 2 ^ 31 →
        Runs (.pmuSineUpdate g) s (fun d => d.bit b .PMU_STAT_SINE_ON = false ∧ (d.pmu g).sineReq = x.sineReq ∧ d.get b .PMU_FORCE_NOW_CODE = x.centre % 2 ^ 20)) ∧
      (sine = false → x.sineReq = true → x.centre = x.tgt → Runs (.pmuSineUpdate g) s (fun d => (d.pmu g).acc = x.set.phase ∧
        (d.pmu g).amp = x.set.amp ∧ (d.pmu g).sineReq = false ∧ d.bit b .PMU_STAT_SINE_ON = true)) ∧
      ∀ high, Runs (.pmuClampAct g high) s (fun d => d.bit b (if high then .PMU_STAT_CLAMP_HI else .PMU_STAT_CLAMP_LO) = true ∧ d.pmus = s.d.pmus)) ∧
    (m = 0 ∨ m = 3 → ∀ high, Runs (.pmuClampAct g high) s (fun d => d = s.d))

/-- Measurements and faults of a pin's force and measure unit (R181, R199, R203, R205, R206, R208, R215, R217). -/
def Obligations.PmuMeasurements : Prop :=
  ∀ (s : State) (g : Fin 1024),
    let x := s.d.pmu g
    let b := pinBase g
    (∀ p, s.d.reaches p (b + 0x230) = true →
      (s.d.get b .PMU_ADC_CFG_MODE = 1 → Runs (.pmuAdcGo p g) s (fun d => d.bit b .PMU_ADC_RSTAT_BUSY = true ∧ d.bit b .PMU_ADC_RSTAT_DONE = false ∧
        (d.pmu g).host = {} ∧ (d.pmu g).hostLog = s.d.get b .PMU_ADC_CFG_AVG)) ∧
      (s.d.get b .PMU_ADC_CFG_MODE ≠ 1 → Runs (.pmuAdcGo p g) s (fun d => d.bit b .PMU_ADC_RSTAT_REFUSED = true ∧ d.pmus = s.d.pmus))) ∧
    (∀ raw overlap, s.d.clState (g / 32) ≤ 2 → s.d.bit b .PMU_ADC_RSTAT_BUSY = true → s.d.get b .PMU_STAT_MODE_NOW ≠ 0 → x.measSw = false → x.seq ≠ .range →
      let v := s.d.pmuAdc g (decide (x.meas = 1) && decide (s.d.get b .PMU_STAT_MODE_NOW ≠ 3)) raw.toInt
      let a := x.host.add v overlap
      (x.host.n + 1 < 2 ^ x.hostLog → Runs (.pmuConversion g raw overlap) s (fun d => (d.pmu g).host = a ∧ d.bit b .PMU_ADC_RSTAT_BUSY = true ∧ a.n = x.host.n + 1)) ∧
      (2 ^ x.hostLog ≤ x.host.n + 1 → Runs (.pmuConversion g raw overlap) s (fun d => d.bit b .PMU_ADC_RSTAT_BUSY = false ∧ d.bit b .PMU_ADC_RSTAT_DONE = true ∧
        d.get b .PMU_ADC_RESULT_SAMPLE = sampleWord (a.out x.hostLog) ∧ (overlap = true → d.get b .PMU_ADC_RESULT_SAMPLE = 0xFFF80000) ∧ (d.pmu g).host = {} ∧
        d.get b .PMU_ADC_CNT_COUNT = Nat.min (s.d.get b .PMU_ADC_CNT_COUNT + 1) (2 ^ 32 - 1)))) ∧
    (∀ raw overlap, s.d.bit b .PMU_ADC_RSTAT_BUSY = true → (s.d.get b .PMU_STAT_MODE_NOW = 0 ∨ s.d.clState (g / 32) = 3 ∨ s.d.clState (g / 32) = 4) →
      Runs (.pmuConversion g raw overlap) s (fun d => d.bit b .PMU_ADC_RSTAT_BUSY = false ∧ d.bit b .PMU_ADC_RSTAT_DONE = s.d.bit b .PMU_ADC_RSTAT_DONE ∧
        d.get b .PMU_ADC_RESULT_SAMPLE = s.d.get b .PMU_ADC_RESULT_SAMPLE ∧ d.pmus = s.d.pmus)) ∧
    (∀ raw overlap, s.d.bit b .PMU_ADC_RSTAT_BUSY = false → (s.d.clState (g / 32) = 3 ∨ s.d.clState (g / 32) = 4) → Runs (.pmuConversion g raw overlap) s (fun d => d = s.d)) ∧
    (∀ raw overlap c, s.d.clState (g / 32) ≤ 1 → s.d.bit b .PMU_ADC_RSTAT_BUSY = false → s.d.get b .PMU_ADC_CFG_MODE = 3 → s.d.get b .PMU_STAT_MODE_NOW ≠ 0 →
      x.sched.on = true → x.sched.stop = none → s.d.service g = some c → s.d.ctxState c = 3 → x.sched.avgLog = 0 → x.sched.avg = {} → x.sched.miss = false →
      x.measSw = false → x.seq ≠ .range → overlap = false →
      let v := s.d.pmuAdc g (decide (x.meas = 1) && decide (s.d.get b .PMU_STAT_MODE_NOW ≠ 3)) raw.toInt
      let t := x.sched.anchor + (x.sched.delay + x.sched.k * x.sched.period) * 1024
      (-0x7FFFF < v) → v < 0x7FFFF → Runs (.pmuConversion g raw overlap) s (fun d => d.get b .PMU_ADC_LAST_SAMPLE = sampleWord v ∧
        (d.pmu g).sched.k = x.sched.k + 1 ∧ (d.pmu g).sched.slots = x.sched.slots + 1 ∧
        (d.pmu g).sched.on = !decide (x.sched.count ≠ 0 ∧ x.sched.slots + 1 ≥ x.sched.count) ∧
        (d.cx c).inbox = (s.d.cx c).inbox ++ [((t + usFine) / s.d.ctxTv c, { src := .pmu, slot := (s.d.pin g).slot, val := v, ptime := t, inv := false, sat := false })])) ∧
    (∀ raw overlap, s.d.clState (g / 32) ≤ 1 → s.d.bit b .PMU_ADC_RSTAT_BUSY = false → s.d.get b .PMU_ADC_CFG_MODE = 2 → s.d.get b .PMU_STAT_MODE_NOW ≠ 0 →
      s.d.get b .PMU_ADC_CFG_AVG = 0 → x.free = {} → s.d.bit b .PMU_ALARM_CFG_EN = false →
      let v := s.d.pmuAdc g (decide (x.meas = 1) && decide (s.d.get b .PMU_STAT_MODE_NOW ≠ 3)) raw.toInt
      (x.measSw = false → x.seq ≠ .range → overlap = false → -0x7FFFF ≤ v → v ≤ 0x7FFFF → Runs (.pmuConversion g raw overlap) s (fun d =>
        d.get b .PMU_ADC_LAST_SAMPLE = sampleWord v ∧ d.bit b .PMU_STAT_ADC_OVR = s.d.bit b .PMU_STAT_ADC_OVR)) ∧
      (x.measSw = false → x.seq ≠ .range → overlap = false → 0x7FFFF < v → Runs (.pmuConversion g raw overlap) s (fun d =>
        d.get b .PMU_ADC_LAST_SAMPLE = 0x7FFFF ∧ d.bit b .PMU_STAT_ADC_OVR = true)) ∧
      (overlap = true ∨ x.measSw = true ∨ x.seq = .range → Runs (.pmuConversion g raw overlap) s (fun d => d.get b .PMU_ADC_LAST_SAMPLE = 0xFFF80000))) ∧
    (∀ sw : Bool, s.d.srcSlice (srcWord 0x28 g (if sw then 17 else 16)) = none → Runs (.pmuFaultDetect g sw) s (fun d =>
      d.bit b (if sw then .PMU_FLT_SW_MISMATCH else .PMU_FLT_PMU_OC) = true ∧ d.bitN (wfgBase (g / 32)) .PG_FLT_STAT_BITS 31 = true ∧
      d.bitN (wfgBase (g / 32)) .WFG_PMU_FLT_CH (g % 32) = true ∧ s.d.recorded d (srcWord 0x28 g (if sw then 17 else 16))))

/-- Time measurement: arming by GO and by MARK, time-out, the result, the FIFO's pop (R235, R240 to R245, R254). Time measurement: tokens, the drain of a cluster's FIFOs, the code-density slice (R245, R246, R249, R250). -/
def Obligations.TimeMeasurements : Prop :=
  (∀ (s : State) (g : Fin 1024),
    let x := s.d.tdc g
    let b := pinBase g
    (∀ p, s.d.reaches p (b + 0x314) = true →
      (s.d.tdcRefused g = true → Runs (.tdcGo p g) s (fun d => d.bit b .TDC_STAT_REFUSED = true ∧ d.tdcState g = s.d.tdcState g ∧ d.tdcs = s.d.tdcs)) ∧
      (s.d.tdcRefused g = false → s.d.tdcState g = 1 → x.nxt = none → Runs (.tdcGo p g) s (fun d => d.tdcState g = (if s.d.tdcFunc g = 1 then 2 else 3) ∧
        (d.tdc g).ta = (s.d.time + 1023) / 1024 * 1024 ∧ (d.tdc g).ctx = none ∧ (d.tdc g).n = 0 ∧ d.get b .TDC_RES_STAT_STATUS = 0)) ∧
      (s.d.tdcRefused g = false → s.d.tdcBusy g = true → x.nxt = none → Runs (.tdcGo p g) s (fun d => d.tdcState g = s.d.tdcState g ∧
        d.tdc g = { x with nxt := some ((s.d.time + 1023) / 1024 * 1024) } ∧ d.regs = s.d.regs)) ∧
      (s.d.tdcRefused g = false → s.d.tdcState g = 4 → Runs (.tdcGo p g) s (fun d => (d.tdc g).goWait = true ∧ d.tdcState g = 4))) ∧
    (∀ c t, s.d.actCtx g = some c → s.d.clState (g / 32) ≤ 1 →
      (∀ sp, s.d.tdcMode g = 2 → s.d.tdcState g = 1 → s.d.spanAt c t.toNat = some sp → sp.hold = false →
        let starts := s.d.tdcFunc g = 1 → bitOf (s.d.get b .TDC_CFG_START_SRC) 4 = true
        Runs (.markAct g t) s (fun d => (d.tdc g).ta = sp.v * s.d.ctxTv c + (t.toNat - sp.s) ∧ (d.tdc g).ctx = some c ∧ (starts → d.tdcState g = 3) ∧
          (¬ starts → d.tdcState g = 2))) ∧
      (∀ sp, s.d.tdcMode g = 2 → (s.d.tdcState g = 1 ∨ s.d.tdcBusy g = true) → s.d.spanAt c t.toNat = some sp → sp.hold = true →
        Runs (.markAct g t) s (fun d => d.get b .TDC_HOLD_DROP_COUNT = Nat.min (s.d.get b .TDC_HOLD_DROP_COUNT + 1) (2 ^ 32 - 1) ∧ d.tdcs = s.d.tdcs)) ∧
      (s.d.tdcMode g = 1 → s.d.tdcState g = 2 → x.nxt = none → s.d.tdcFunc g = 1 → bitOf (s.d.get b .TDC_CFG_START_SRC) 4 = true → x.ta ≤ t.toNat → t.toNat ≤ x.ta + x.lim →
        Runs (.markAct g t) s (fun d => d.tdcState g = 3 ∧ (d.tdc g).start = some t.toNat)) ∧
      (s.d.tdcMode g = 1 → s.d.tdcState g = 3 → x.nxt = none → x.func = 1 → bitOf (s.d.get b .TDC_CFG_STOP_SRC) 4 = true → x.ta ≤ t.toNat → t.toNat ≤ x.ta + x.lim →
        x.stops = s.d.get b .TDC_CFG_NSTOP →
        Runs (.markAct g t) s (fun d => d.tdcState g = 1 ∧ ∃ r, (d.tdc g).res = x.res ++ [r] ∧ r.status = 1 ∧ r.value = t.toNat - x.start.getD x.ta)) ∧
      (s.d.tdcState g = 0 → Runs (.markAct g t) s (fun d => d = s.d))) ∧
    (s.d.tdcBusy g = true → x.nxt = none → x.tips = [] → Runs (.tdcTimeout g) s (fun d => d.tdcState g = 1 ∧ ∃ r, (d.tdc g).res = x.res ++ [r] ∧ r.ctx = x.ctx ∧
      r.close = x.ta + x.lim ∧ (x.func = 0 → r.status = 1 ∧ r.n = x.n ∧ r.value = 0 ∧ r.t0 = x.ta) ∧ (x.func = 1 → r.status = 2 ∧ r.value = 0) ∧
      (x.func = 2 → r.status = (if x.n < 2 then 4 else 1) ∧ r.n = x.n))) ∧
    (∀ ta, s.d.tdcBusy g = true → x.nxt = some ta → x.tips = [] → x.ta + x.lim ≤ ta → Runs (.tdcTimeout g) s (fun d => d.tdcBusy g = true ∧ (d.tdc g).ta = ta ∧
      (d.tdc g).nxt = none ∧ ∃ r, (d.tdc g).res = x.res ++ [r] ∧ r.close = x.ta + x.lim ∧ (x.func ≤ 1 → r.status = x.func + 1))) ∧
    (∀ ta, s.d.tdcBusy g = true → x.nxt = some ta → x.res = [] → ta < x.ta + x.lim → x.ctx = none → x.func ≤ 1 → Runs (.tdcResult g) s (fun d => d.tdcBusy g = true ∧
      (d.tdc g).ta = ta ∧ (d.tdc g).res = [] ∧ d.get b .TDC_RES_STAT_STATUS = 3)) ∧
    (s.d.tdcBusy g = false → x.nxt = none → Runs (.tdcTimeout g) s (fun d => d = s.d)) ∧
    (∀ r rs, x.nxt = none → x.res = r :: rs →
      (r.ctx = none → Runs (.tdcResult g) s (fun d => (d.tdc g).res = rs ∧ d.get b .TDC_RES_STAT_STATUS = r.status % 16 ∧ d.get b .TDC_RES_STAT_N = r.n % 2 ^ 25 ∧
        d.bit b .TDC_RES_STAT_DEAD = r.dead ∧ d.get b .TDC_RES_VALUE_VALUE = r.value % 2 ^ 64 ∧ d.get b .TDC_RES_T0_TIME = r.t0 % 2 ^ 64 ∧
        d.bitN (tdccBase (g / 32)) .TDC_DONE_MAP_CH (g % 32) = true)) ∧
      (∀ c, r.ctx = some c → 0 < x.tok → Runs (.tdcResult g) s (fun d => (d.tdc g).res = rs ∧ (d.tdc g).tok = x.tok - 1 ∧
        ∃ e i, (d.cx c).inbox = (s.d.cx c).inbox ++ [(e, i)] ∧ i.val = (r.value : Int) ∧ i.status = r.status ∧ i.ptime = r.close ∧
          i.t0 = r.t0 ∧ i.n = r.n)) ∧
      (∀ c, r.ctx = some c → x.tok = 0 → Runs (.tdcResult g) s (fun d => (d.tdc g).res = rs ∧ d.bit b .TDC_STAT_LOST = true ∧
        d.get b .TDC_LOST_CNT_COUNT = Nat.min (s.d.get b .TDC_LOST_CNT_COUNT + 1) (2 ^ 32 - 1) ∧ d.ctxs = s.d.ctxs))) ∧
    (∀ p, s.d.reaches p (b + 0x318) = true →
      (∀ e es, x.fifo = e :: es → s.d.tdcMode g = 1 → Runs (.tdcPop p g) s (fun d => (d.tdc g).fifo = es ∧ d.get b .TDC_STAMP_TIME_TIME = e.time % 2 ^ 64 ∧
        d.get b .TDC_STAT_LEVEL = es.length % 128 ∧ ∃ w, d.out = .read p w :: s.d.out ∧ w = 2 ^ 31 + (if e.lost then 2 ^ 30 else 0) + (if e.dead then 2 ^ 29 else 0) +
          (if e.interp then 2 ^ 28 else 0) + e.event * 2 ^ 24 + e.seq)) ∧
      (x.fifo = [] → Runs (.tdcPop p g) s (fun d => d.tdcs = s.d.tdcs ∧ d.out = .read p x.popSeq :: s.d.out)))) ∧
  (∀ (s : State),
    (∀ (g : Fin 1024) c, s.d.service g = some c → s.d.ctxState c = 3 → Runs (.tdcToken g) s (fun d => d = s.d.setTdc g { s.d.tdc g with tok := Nat.min 64 ((s.d.tdc g).tok + 1) })) ∧
    (∀ (g : Fin 1024) c, s.d.service g = some c → s.d.ctxState c = 4 → Runs (.tdcToken g) s (fun d => d = s.d)) ∧
    (∀ n : Fin 32,
      Runs (.tdcDrain n) s (fun d => (∀ i, i < 32 → (d.tdc (32 * n + i)).fifo = ((s.d.tdc (32 * n + i)).fifo.filter (fun e => e.ctx.isNone))) ∧
        ∀ c, (d.cx c).inbox.length = (s.d.cx c).inbox.length +
          ((List.range 32).flatMap (fun i => (s.d.tdc (32 * n + i)).fifo)).countP (fun e => e.ctx == some c))) ∧
    (∀ (n : Fin 32) (h : Fin 32768 × BitVec 20),
      let k := 32 * n.val * 1024 + h.1.val
      (s.d.get (tdccBase n) .PG_STAT_STATE = 2 → Runs (.tdcCdSlice n [h]) s (fun d => Tab.get (fun _ => 0) d.hist k = Tab.get (fun _ => 0) s.d.hist k + h.2.toNat ∧
        (∀ j, j ≠ k → Tab.get (fun _ => 0) d.hist j = Tab.get (fun _ => 0) s.d.hist j) ∧ d.regs = s.d.regs)) ∧
      (∀ gap, s.d.get (tdccBase n) .PG_STAT_STATE ≠ 2 → s.d.calNext n = some (2, gap) → s.d.calPlaces < s.d.calMaxPar → s.d.clState n ≤ 1 →
        Runs (.tdcCdSlice n [h]) s (fun d => d.get (tdccBase n) .PG_STAT_STATE = 2 ∧ (∀ g ∈ clPins n, d.tdcState g = 4) ∧
          Tab.get (fun _ => 0) d.hist k = h.2.toNat ∧ (d.clu n).slice = 2 ∧ d.get (calcBase n) .CAL_CL_STAT_RUNNING = 2 ∧
          d.bitN calB .CAL_RUN_MAP_CLUSTER n = true)) ∧
      (s.d.get (tdccBase n) .PG_STAT_STATE ≠ 2 → (s.d.sliceBarred n = true ∨ s.d.bit calB .CAL_GAP_OPEN = false ∨
        (clPins n).any (fun g => s.d.tdcBusy g && s.d.tdcMode g == 1) = true ∨ (s.d.ctxOfCluster n).any s.d.ctxActive = true) →
        Runs (.tdcCdSlice n [h]) s (fun d => d = s.d))) ∧
    (∀ (n : Fin 32) khz,
      (s.d.get (tdccBase n) .PG_STAT_STATE = 2 → Runs (.cdDone n khz) s (fun d => d.get (tdccBase n) .PG_STAT_STATE = 0 ∧ d.get (tdccBase n) .TDC_RND_RATE_KHZ = khz.toNat ∧
        d.bit (tdccBase n) .TDC_HIST_DATA_VALID = true ∧ d.bitN (tdccBase n) .PG_IRQ_STAT_BITS 2 = true ∧ (∀ g ∈ clPins n, d.tdcState g ≠ 4) ∧ d.calA = s.d.calA)) ∧
      (s.d.get (tdccBase n) .PG_STAT_STATE ≠ 2 → Runs (.cdDone n khz) s (fun d => d = s.d))))

/-- Device power: slewing, the ends of the sequences, trips and detections (R219, R222, R223, R225 to R227, R229, R231, R232). Device power: measurement, gangs and the disable (R224, R228, R229, R231). -/
def Obligations.DevicePower : Prop :=
  (∀ (s : State) (k : Fin 64),
    let x := s.d.dp k
    let b := dpsBase k
    let free := s.d.dpsHolding k = false
    let now := s.d.get b .DPS_FORCE_NOW_CODE
    let step := s.d.get (dpsBase (s.d.dpsSrc k)) .DPS_SLEW_STEP_STEP
    let off := fun (i : Nat) (d : Dev) => (∀ j ∈ s.d.dpsGang k, s.d.dpsState j ≠ 0 → s.d.dpsState j ≠ 7 →
      (s.d.srcClass (srcWord 0x11 k i) ≠ 2 → d.dpsState j = 6) ∧ d.bit (dpsBase j) .DPS_STAT_TRIPPED = true ∧ (d.dp j).loop = false ∧ (d.dp j).q3 = true) ∧
      (∀ j ∈ s.d.dpsGang k, s.d.dpsState j = 7 → d.dpsState j = 7) ∧ d.bitN b .PG_FLT_STAT_BITS i = true ∧ s.d.recorded d (srcWord 0x11 k i)
    (free → s.d.dpsState k = 2 → x.loop = false → step ≠ 0 → s.d.armed 0x11 k 3 = false →
      Runs (.dpsSlewStep k) s (fun d => d.dp k = { x with loop := true } ∧ d.regs = s.d.regs)) ∧
    (free → s.d.dpsState k = 2 → x.loop = false → step ≠ 0 → s.d.armed 0x11 k 3 = true → s.d.srcSlice (srcWord 0x11 k 3) = none →
      Runs (.dpsSlewStep k) s (fun d => d.bitN b .PG_FLT_STAT_BITS 3 = true ∧ s.d.recorded d (srcWord 0x11 k 3))) ∧
    (free → (s.d.dpsState k = 3 ∨ s.d.dpsState k = 2 ∧ x.loop = true) → x.tgt < 2 ^ 20 → Runs (.dpsSlewStep k) s (fun d => d.dpsState k = s.d.dpsState k ∧
      d.get b .DPS_FORCE_NOW_CODE = (if step = 0 then x.tgt else if now < x.tgt then Nat.min x.tgt (now + step) else Nat.max x.tgt (now - step)))) ∧
    (free → s.d.dpsState k = 4 → x.tgt = 0x80000 → step = 0 → Runs (.dpsSlewStep k) s (fun d => d.get b .DPS_FORCE_NOW_CODE = 0x80000 ∧ d.dpsState k = 5 ∧
      (d.dp k).loop = false ∧ (d.dp k).q3 = true ∧ d.bit b .DPS_STAT_LIMITING = false)) ∧
    (s.d.dpsHolding k = true → Runs (.dpsSlewStep k) s (fun d => d = s.d) ∧ Runs (.rampDone k) s (fun d => d = s.d)) ∧
    (free → x.defer = none → s.d.dpsState k = 2 → x.loop = true → now = x.tgt → Runs (.rampDone k) s (fun d => d.dpsState k = 3 ∧ d.bitN b .PG_IRQ_STAT_BITS 4 = true)) ∧
    (x.defer = none → s.d.dpsState k = 5 → Runs (.dpsDischargeDone k) s (fun d => d.dpsState k = (if s.d.bit b .PG_CTRL_EN then 1 else 0))) ∧
    (x.loop = true → Runs (.ilimTrip k 1) s (fun d => d.bit b .DPS_STAT_LIMITING = true ∧ d.dpsState k = s.d.dpsState k)) ∧
    Runs (.ilimTrip k 0) s (fun d => d.bit b .DPS_STAT_LIMITING = false ∧ d.dpsState k = s.d.dpsState k) ∧
    (x.loop = true → s.d.bit b .DPS_STAT_LIMITING = true → s.d.srcSlice (srcWord 0x11 k 0) = none → Runs (.ilimTrip k 2) s (off 0)) ∧
    (x.loop = true → s.d.srcSlice (srcWord 0x11 k 1) = none → Runs (.dpsOv k) s (off 1)) ∧
    (x.loop = false → (∀ ph, ph ≠ 0 → Runs (.ilimTrip k ph) s (fun d => d = s.d)) ∧ Runs (.dpsOv k) s (fun d => d = s.d) ∧ Runs (.stageFail k) s (fun d => d = s.d)) ∧
    (∀ below, Runs (.dpsUv k below) s (fun d => (d.dp k).below = below ∧ (d.dp k).guard = (below && s.d.bit b .DPS_CFG_GUARD_EN) ∧
      d.bit b .DPS_STAT_UV = (below && s.d.dpsState k == 3) ∧
      (below = true → s.d.dpsState k = 3 → s.d.bit b .DPS_STAT_UV = false → d.bitN b .PG_IRQ_STAT_BITS 1 = true) ∧
      (below = true → s.d.bit b .DPS_CFG_GUARD_EN = true → x.guard = false → d.bitN b .PG_IRQ_STAT_BITS 2 = true))) ∧
    (s.d.dpsState k = 3 → s.d.bit b .DPS_STAT_LOCAL = false → s.d.srcSlice (srcWord 0x11 k 2) = none → Runs (.senseOpen k) s (fun d =>
      d.bit b .DPS_STAT_LOCAL = true ∧ d.bitN b .PG_FLT_STAT_BITS 2 = true ∧ s.d.recorded d (srcWord 0x11 k 2) ∧ (s.d.srcClass (srcWord 0x11 k 2) = 0 → (d.dp k).sOpen = true))) ∧
    (x.loop = true → s.d.armed 0x11 k 3 = false → s.d.srcSlice (srcWord 0x11 k 3) = none → Runs (.stageFail k) s (fun d =>
      d.bitN b .PG_FLT_STAT_BITS 3 = true ∧ s.d.recorded d (srcWord 0x11 k 3)))) ∧
  (∀ (s : State) (k : Fin 64) (p : HPort),
    let x := s.d.dp k
    let b := dpsBase k
    (s.d.reaches p (b + 0x80) = true →
      (s.d.get b .DPS_MEAS_CFG_MODE = 1 → Runs (.dpsMeasGo p k) s (fun d => (d.dp k).hostBusy = true ∧ (d.dp k).host = {} ∧ (d.dp k).hostI = {} ∧
        (d.dp k).hostLog = s.d.get b .DPS_MEAS_CFG_AVG ∧ d.regs = s.d.regs)) ∧
      (s.d.get b .DPS_MEAS_CFG_MODE ≠ 1 → Runs (.dpsMeasGo p k) s (fun d => d.dpss = s.d.dpss ∧ d.regs = s.d.regs))) ∧
    (∀ rv ri overlap, (s.d.dpsState k = 0 ∨ s.d.dpsState k = 6 ∨ s.d.dpsState k = 7) → Runs (.dpsConversion k rv ri overlap) s (fun d => d.regs = s.d.regs ∧
      (s.d.clState (k / 2) ≤ 2 → (d.dp k).hostBusy = false))) ∧
    (∀ rv ri c, s.d.clState (k / 2) ≤ 2 → 1 ≤ s.d.dpsState k → s.d.dpsState k ≤ 5 → x.hostBusy = false → s.d.get b .DPS_MEAS_CFG_MODE = 3 → x.sched.on = true →
      x.sched.stop = none → s.d.dpsOwner k = some c → s.d.ctxState c = 3 → x.sched.avgLog = 0 → x.sched.avg = {} → x.schedI = {} → x.sched.miss = false →
      s.d.dpsLeader k = none →
      let v := s.d.dpsAdc k 1 rv.toInt
      let i := s.d.dpsAdc k (2 + x.irange) ri.toInt
      let t := x.sched.anchor + (x.sched.delay + x.sched.k * x.sched.period) * 1024
      let e := (t + usFine) / s.d.ctxTv c
      (-0x7FFFF < v) → v < 0x7FFFF → (-0x7FFFF < i) → i < 0x7FFFF → Runs (.dpsConversion k rv ri false) s (fun d =>
        d.get b .DPS_V_LAST_SAMPLE = sampleWord v ∧ d.get b .DPS_I_LAST_SAMPLE = sampleWord i ∧ (d.dp k).sched.slots = x.sched.slots + 1 ∧
        (d.cx c).inbox = (s.d.cx c).inbox ++ [(e, { src := .dpsV, slot := k % 8, val := v, ptime := t, inv := false, sat := false }),
          (e, { src := .dpsI, slot := k % 8, val := i, ptime := t, inv := false, sat := false })])) ∧
    (∀ rv ri overlap, 1 ≤ s.d.dpsState k → s.d.dpsState k ≤ 5 → s.d.clState (k / 2) ≤ 2 → x.hostBusy = true →
      let v := s.d.dpsAdc k 1 rv.toInt
      let i := s.d.dpsAdc k (2 + x.irange) ri.toInt
      (x.host.n + 1 < 2 ^ x.hostLog → Runs (.dpsConversion k rv ri overlap) s (fun d => d = s.d.setDp k { x with host := x.host.add v overlap, hostI := x.hostI.add i overlap })) ∧
      (2 ^ x.hostLog ≤ x.host.n + 1 → s.d.dpsLeader k = none → Runs (.dpsConversion k rv ri overlap) s (fun d => (d.dp k).hostBusy = false ∧
        d.get b .DPS_V_LAST_SAMPLE = sampleWord ((x.host.add v overlap).out x.hostLog) ∧
        d.get b .DPS_I_LAST_SAMPLE = sampleWord ((x.hostI.add i overlap).out x.hostLog) ∧ d.bitN b .PG_IRQ_STAT_BITS 3 = true))) ∧
    (∀ v, s.d.reaches p (b + 0x60) = true →
      ((∀ i, i < 8 → s.d.bit (dpsBase (k / 8 * 8 + i)) .DPS_GANG_EN = true → s.d.dpsState (k / 8 * 8 + i) = 1) → Runs (.dpsGangWrite p k v) s (fun d =>
        d.get b .DPS_GANG_LEADER = v.toNat % 8 ∧ d.bit b .DPS_GANG_EN = bitOf v.toNat 8)) ∧
      (∀ i, i < 8 → s.d.bit (dpsBase (k / 8 * 8 + i)) .DPS_GANG_EN = true → s.d.dpsState (k / 8 * 8 + i) ≠ 1 → Runs (.dpsGangWrite p k v) s (fun d =>
        d.word (b + 0x60) = s.d.word (b + 0x60) ∧ d.bit b .DPS_STAT_GANG_REJ = true))) ∧
    (s.d.reaches p (b + 8) = true → s.d.bit b .PG_CTRL_EN = true →
      (s.d.dpsState k = 3 → s.d.get (dpsBase (s.d.dpsSrc k)) .DPS_SLEW_STEP_STEP ≠ 0 → s.d.get b .DPS_FORCE_NOW_CODE ≠ 0x80000 → Runs (.dpsDisable p k) s (fun d =>
        d.bit b .PG_CTRL_EN = false ∧ d.dpsState k = 4 ∧ (d.dp k).tgt = 0x80000 ∧ (d.dp k).defer = none ∧ d.bit b .PG_STAT_BUSY = false)) ∧
      (s.d.dpsState k = 1 ∨ s.d.dpsState k = 6 → Runs (.dpsDisable p k) s (fun d => d.bit b .PG_CTRL_EN = false ∧ d.dpsState k = 0 ∧ d.dpss = s.d.dpss)) ∧
      (s.d.dpsState k = 4 ∨ s.d.dpsState k = 5 → Runs (.dpsDisable p k) s (fun d => d.bit b .PG_CTRL_EN = false ∧ d.dpsState k = s.d.dpsState k ∧ d.dpss = s.d.dpss))))

/-- Waveform generators: the start, stop and jump requests, the latch, the boundary, the over-load (R256, R257, R259 to R264, R272, R274). -/
def Obligations.Generators : Prop :=
  ∀ (s : State) (n : Fin 32) (x : Fin 4) (p : HPort),
    let w := 4 * n.val + x.val
    let b := genBase w
    let g := s.d.gen w
    let clean := s.d.armed 0x25 n x = false
    let first := s.d.get b .WFG_CTRL_FIRST
    let own := ((s.d.genOwn w).gen w).own
    let rest := s.d.ownHeld own (tickUp s.d.time)
    (s.d.reaches p (wfgBase n + 0x104 + x.val * 0x40) = true →
      (s.d.forced n = false → s.d.wfgSlice n = false → s.d.genActive w = false → clean → 4 ≤ s.d.get (entryBase w first) .WFG_E_LEN_LEN →
        Runs (.wfgStart p n x) s (fun d => d.genState w = (if rest = 0 then 1 else 2) ∧ (d.gen w).own = own ∧ (d.gen w).n0 = tickUp s.d.time / 1024 ∧
          d.get b .WFG_STAT_CAUSE = 0 ∧ d.get b .WFG_STAT_ENTRY = first ∧ d.get b .WFG_POS_GRAN = 0 ∧
          d.get b .WFG_START_TIME_TIME = (s.d.time + 1023) / 1024 * 1024 % 2 ^ 64 ∧ d.get b .WFG_DISP_D = rest % 2 ^ 64 ∧
          d.get b .WFG_SEG_CNT_COUNT = Nat.min (s.d.get b .WFG_SEG_CNT_COUNT + 1) (2 ^ 32 - 1))) ∧
      (s.d.forced n = false → s.d.wfgSlice n = false → s.d.genActive w = false → clean → s.d.get (entryBase w first) .WFG_E_LEN_LEN < 4 →
        Runs (.wfgStart p n x) s (fun d => d.genState w = 3 ∧ d.get b .WFG_STAT_CAUSE = 3 ∧ (d.gen w).seg = none)) ∧
      (s.d.forced n = false → s.d.genActive w = true → own = g.own → Runs (.wfgStart p n x) s (fun d => d.genState w = s.d.genState w ∧
        (d.gen w).jump = some first ∧ d.bit b .WFG_STAT_JUMP_PEND = true ∧ (d.gen w).seg = g.seg)) ∧
      (s.d.forced n = true → own = g.own → Runs (.wfgStart p n x) s (fun d => d.genState w = s.d.genState w ∧ (d.gen w).seg = g.seg ∧ (d.gen w).jump = g.jump)) ∧
      (s.d.forced n = false → s.d.genActive w = false → s.d.wfgSlice n = true → Runs (.wfgStart p n x) s (fun d => d.genState w = s.d.genState w ∧
        (d.gen w).startW = some { own := [], late := 0 }))) ∧
    (s.d.reaches p (wfgBase n + 0x108 + x.val * 0x40) = true →
      (s.d.genActive w = true → Runs (.wfgStop p n x) s (fun d => (d.gen w).stop = true ∧ (d.gen w).stopC = (if g.stop = true ∧ g.stopC = 5 then 5 else 1) ∧
        d.bit b .WFG_STAT_JUMP_PEND = true ∧ (d.gen w).seg = g.seg ∧ d.genState w = s.d.genState w)) ∧
      (s.d.genActive w = false → Runs (.wfgStop p n x) s (fun d => d.gens = s.d.gens))) ∧
    (∀ t, s.d.reaches p (wfgBase n + 0x10C + x.val * 0x40) = true →
      (s.d.genActive w = true → Runs (.wfgJump p n x t) s (fun d => (d.gen w).jump = some t.toNat ∧ d.bit b .WFG_STAT_JUMP_PEND = true ∧
        d.get b .WFG_JUMP_TARGET = t.toNat ∧ (d.gen w).seg = g.seg)) ∧
      (s.d.genActive w = false → Runs (.wfgJump p n x t) s (fun d => d.gens = s.d.gens ∧ d.get b .WFG_JUMP_TARGET = t.toNat))) ∧
    (∀ q, g.seg = some q → s.d.genState w = 1 →
      (g.lat = none → g.stop = true → Runs (.wfgLatch n x) s (fun d => (d.gen w).lat = some (.stop g.stopC) ∧ (d.gen w).jump = none ∧
        d.bit b .WFG_STAT_JUMP_PEND = s.d.bit b .WFG_STAT_JUMP_PEND)) ∧
      (g.lat = none → g.stop = false → g.jump = none → g.gran + 1 < q.len → Runs (.wfgLatch n x) s (fun d => d = s.d.setGen w { g with lat := some .cont })) ∧
      (g.lat = none → g.stop = false → g.jump = none → q.len ≤ g.gran + 1 → q.stop = true → Runs (.wfgLatch n x) s (fun d => d = s.d.setGen w { g with lat := some (.stop 2) })) ∧
      (∀ e jump, g.lat = none → g.stop = false → clean → 4 ≤ s.d.get (entryBase w e) .WFG_E_LEN_LEN →
        (jump = true ∧ g.jump = some e ∨ jump = false ∧ g.jump = none ∧ q.len ≤ g.gran + 1 ∧ q.stop = false ∧ q.next = e) →
        Runs (.wfgLatch n x) s (fun d => (d.gen w).jump = none ∧ ∃ q', (d.gen w).lat = some (.seg q' jump) ∧ q'.entry = e ∧
          q'.len = s.d.get (entryBase w e) .WFG_E_LEN_LEN ∧ q'.next = s.d.get (entryBase w e) .WFG_E_NEXT_NEXT ∧ q'.stop = s.d.bit (entryBase w e) .WFG_E_NEXT_STOP ∧
          q'.ftw = Nat.min (s.d.get (entryBase w e) .WFG_E_FTW_FTW) 0x666666666666)) ∧
      (g.lat = some .cont → g.stop = false → Runs (.wfgBoundary n x) s (fun d => d.genState w = 1 ∧ (d.gen w).gran = g.gran + 1 ∧ (d.gen w).lat = none ∧
        d.get b .WFG_POS_GRAN = (g.gran + 1) % 2 ^ 20 ∧ (d.gen w).n0 = g.n0 + 64)) ∧
      (∀ q' j, g.lat = some (.seg q' j) → g.stop = false → Runs (.wfgBoundary n x) s (fun d => (d.gen w).seg = some q' ∧ (d.gen w).gran = 0 ∧ (d.gen w).lat = none ∧
        d.get b .WFG_STAT_ENTRY = q'.entry % 16 ∧ d.get b .WFG_SEG_CNT_COUNT = Nat.min (s.d.get b .WFG_SEG_CNT_COUNT + 1) (2 ^ 32 - 1) ∧
        (j = true → d.bitN (wfgBase n) .PG_IRQ_STAT_BITS (4 + x) = true ∧ d.bit b .WFG_STAT_JUMP_PEND = g.jump.isSome))) ∧
      (∀ c, g.lat = some (.stop c) → g.stopC ≠ 5 → Runs (.wfgBoundary n x) s (fun d => d.genState w = 3 ∧ d.get b .WFG_STAT_CAUSE = c % 16 ∧ (d.gen w).seg = none ∧
        d.bitN (wfgBase n) .PG_IRQ_STAT_BITS x = true))) ∧
    (s.d.genState w ≠ 1 → Runs (.wfgLatch n x) s (fun d => d = s.d) ∧ Runs (.wfgBoundary n x) s (fun d => d = s.d)) ∧
    (s.d.srcSlice (srcWord 0x25 n (4 + x)) = none → Runs (.acOvl n x) s (fun d => d.bitN (wfgBase n) .PG_FLT_STAT_BITS (4 + x) = true ∧
      s.d.recorded d (srcWord 0x25 n (4 + x))))

/-- Acquisition (R276, R277, R284, R288, R290, R300): an input is dropped or taken, tokens, the end of a run. -/
def Obligations.Acquisition : Prop :=
  ∀ (s : State) (c : Fin 1024),
    let x := s.d.cx c
    let b := acqBase (c / 32)
    let clean := s.d.armed 0x23 (c.val / 32) 0 = false ∧ s.d.armed 0x23 (c.val / 32) 1 = false
    (∀ v i rest, clean → x.endSt = none → x.inbox = (v, i) :: rest → v < s.d.vidx c → v ≤ x.aTo →
      ((∀ k, k < 8 → (x.aslot k).takes v i = false) → Runs (.acqInput c) s (fun d => (d.cx c).inbox = rest ∧ (d.cx c).slots = x.slots ∧
        d.get b .ACQ_DROP_CNT_COUNT = Nat.min (s.d.get b .ACQ_DROP_CNT_COUNT + 1) (2 ^ 32 - 1))) ∧
      (∀ k, k < 8 → (∀ j, j < 8 → ((x.aslot j).takes v i = true ↔ j = k)) → (x.aslot k).perPin = false →
        let a := (x.aslot k).acc 0xFF
        ((x.aslot k).kind = 1 → Runs (.acqInput c) s (fun d => (d.cx c).inbox = rest ∧
          d.get b .ACQ_IN_CNT_COUNT = Nat.min (s.d.get b .ACQ_IN_CNT_COUNT + 1) (2 ^ 64 - 1) ∧
          (((d.cx c).aslot k).acc 0xFF).fails = (if i.fail then Nat.min (a.fails + 1) (2 ^ 48 - 1) else a.fails) ∧
          (i.fail = true → a.firstV = none → (((d.cx c).aslot k).acc 0xFF).firstV = some v ∧ (((d.cx c).aslot k).acc 0xFF).firstS = i.slot))) ∧
        ((x.aslot k).kind = 3 → i.src = .pmu → a.n + 1 < 16777215 → Runs (.acqInput c) s (fun d => (d.cx c).inbox = rest ∧
          (i.inv = false → (((d.cx c).aslot k).acc 0xFF).n = a.n + 1 ∧ (((d.cx c).aslot k).acc 0xFF).sum = a.sum + i.val ∧
            (((d.cx c).aslot k).acc 0xFF).mn = min a.mn i.val ∧ (((d.cx c).aslot k).acc 0xFF).mx = max a.mx i.val) ∧
          (i.inv = true → (((d.cx c).aslot k).acc 0xFF).n = a.n ∧ (((d.cx c).aslot k).acc 0xFF).sum = a.sum))) ∧
        ((x.aslot k).kind = 3 → i.src = .tdcRes → i.inv = false → a.n + 1 < 16777215 → Runs (.acqInput c) s (fun d => (d.cx c).inbox = rest ∧
          (i.status = 1 → (((d.cx c).aslot k).acc 0xFF).n = a.n + 1 ∧
            (((d.cx c).aslot k).acc 0xFF).sum = a.sum + max (-0x80000) (min 0x7FFFF (i.val / 2 ^ ((x.aslot k).p0 / 2 ^ 25 % 64)))) ∧
          (i.status ≠ 1 → (((d.cx c).aslot k).acc 0xFF).n = a.n ∧ bitOf (((d.cx c).aslot k).acc 0xFF).flags 4 = true))))) ∧
    (x.endSt = none → (∀ e ∈ x.inbox, s.d.vidx c ≤ e.1) → Runs (.acqInput c) s (fun d => d = s.d)) ∧
    (∀ k : Fin 8,
      let a := x.aslot k
      (a.kind = 7 ∨ a.kind = 2 → a.st ≠ .error → Runs (.captureToken c k) s (fun d =>
        ((d.cx c).aslot k).tok = Nat.min 64 (a.tok + (x.aTo * s.d.ctxTv c - a.tokT) / (2 ^ (Nat.max 4 (a.p0 % 32)) * 1024)) ∧ d.regs = s.d.regs)) ∧
      (a.kind ≠ 7 → a.kind ≠ 2 → Runs (.captureToken c k) s (fun d => d = s.d))) ∧
    (∀ st cause, clean → x.endSt = some (st, cause) → Runs (.slotEndClose c) s (fun d => (d.cx c).endSt = none ∧ (d.cx c).isOpen = false ∧ (d.cx c).inbox = [] ∧
      (d.cx c).due = [] ∧ (d.cx c).aseq = (x.aseq + 1) % 2 ^ 32 ∧ ∀ k, k < 8 → ((d.cx c).aslot k).st ≠ .live ∧ ((d.cx c).aslot k).st ≠ .stopped)) ∧
    (x.endSt = none → Runs (.slotEndClose c) s (fun d => d = s.d))

/-- Rings (R311 to R313): a record reaches host memory, the consumer's counter, the enable, the coalescing timer. Mailboxes and routing (R309, R310, R314, R315). -/
def Obligations.RingsAndMailboxes : Prop :=
  (∀ (s : State) (k : Fin 64),
    let b := ringBase k
    let prod := s.d.get b .RES_RING_PROD_PROD
    (∀ (n : Fin 32) r rest, s.d.dmaUp = true → s.d.bufs = r :: rest → r.cl = n.val → r.dest = .ring k → s.d.ringOpen k = true → s.d.recFree [] r = true →
      s.d.armed 0x0C 0 0 = false → Runs (.ringWrite n) s (fun d => d.bufs = rest ∧ d.get b .RES_RING_PROD_PROD = (prod + 1) % 2 ^ 32 ∧
        d.get b .RES_RING_CNT_COUNT = Nat.min (s.d.get b .RES_RING_CNT_COUNT + 1) (2 ^ 32 - 1) ∧
        d.get resB .RES_REC_CNT_COUNT = Nat.min (s.d.get resB .RES_REC_CNT_COUNT + 1) (2 ^ 64 - 1) ∧
        ∃ l, d.out = l ++ .hostWr (s.d.get b .RES_RING_BASE_BASE * 32 + 32 * (prod % 2 ^ s.d.ringLog k)) r.words :: s.d.out)) ∧
    (∀ n : Fin 32, s.d.dmaUp = false → Runs (.ringWrite n) s (fun d => d = s.d)) ∧
    (Tab.get (fun _ => 0) s.d.coal k ≠ 0 → s.d.bit b .RES_RING_CFG_IRQ_EN = true → Runs (.coalTimer k) s (fun d => d.bitN resB (ringIrqFld k) (k % 32) = true)) ∧
    (Tab.get (fun _ => 0) s.d.coal k = 0 ∨ s.d.bit b .RES_RING_CFG_IRQ_EN = false → Runs (.coalTimer k) s (fun d => d = s.d)) ∧
    (∀ p v, s.d.reaches p (b + 0x10C) = true →
      ((prod + 2 ^ 32 - v.toNat) % 2 ^ 32 ≤ 2 ^ s.d.ringLog k → Runs (.resRingConsWrite p k v) s (fun d => d.get b .RES_RING_CONS_CONS = v.toNat ∧
        d.bit b .RES_RING_STAT_FULL = ((prod + 2 ^ 32 - v.toNat) % 2 ^ 32 == 2 ^ s.d.ringLog k) ∧ d.get b .RES_RING_PROD_PROD = prod)) ∧
      (2 ^ s.d.ringLog k < (prod + 2 ^ 32 - v.toNat) % 2 ^ 32 → Runs (.resRingConsWrite p k v) s (fun d =>
        d.get b .RES_RING_CONS_CONS = s.d.get b .RES_RING_CONS_CONS ∧ d.bit b .RES_RING_STAT_BAD_CONS = true ∧ d.bitN resB .PG_IRQ_STAT_BITS 2 = true))) ∧
    (∀ p v, s.d.reaches p (b + 0x108) = true →
      (s.d.bit b .RES_RING_CFG_EN = false → bitOf v.toNat 8 = true → Runs (.ringEnable p k v) s (fun d => d.bit b .RES_RING_CFG_EN = true ∧
        d.get b .RES_RING_CFG_LOG2 = v.toNat % 32 ∧ d.bit b .RES_RING_CFG_LANE = bitOf v.toNat 9 ∧ d.get b .RES_RING_PROD_PROD = 0 ∧ d.get b .RES_RING_CONS_CONS = 0)) ∧
      (s.d.bit b .RES_RING_CFG_EN = true → Runs (.ringEnable p k v) s (fun d => d.bit b .RES_RING_CFG_EN = bitOf v.toNat 8 ∧
        d.get b .RES_RING_CFG_LOG2 = s.d.get b .RES_RING_CFG_LOG2 ∧ d.get b .RES_RING_PROD_PROD = prod ∧ d.get b .RES_RING_CONS_CONS = s.d.get b .RES_RING_CONS_CONS)))) ∧
  (∀ (s : State) (m : Fin 8) (p : HPort),
    let b := mbBase m
    let value := fun (wide : Bool) (v : Nat) => if p = .pcie ∧ wide = true then v else v % 2 ^ 32
    (∀ (n : Fin 32) r rest, s.d.bufs = r :: rest → r.cl = n.val → r.dest = .mb m → (s.d.mb m).length < 64 → s.d.recFree [] r = true → s.d.armed 0x0C 0 0 = false →
      Runs (.mailboxPush n) s (fun d => d.bufs = rest ∧ d.mb m = s.d.mb m ++ [r] ∧ d.get b .RES_MB_STAT_LEVEL = (s.d.mb m).length + 1 ∧
        (s.d.mb m = [] → s.d.bit b .RES_MB_CFG_IRQ_EN = true → d.bitN resB .PG_IRQ_STAT_BITS (8 + m) = true))) ∧
    (∀ n : Fin 32, s.d.bufs = [] → Runs (.mailboxPush n) s (fun d => d = s.d)) ∧
    (∀ wide, s.d.reaches p (b + 0x908) = true →
      (∀ r rs, s.d.mb m = r :: rs → r.words.length = 8 → rs.length < 64 → Runs (.resMbPop p m wide) s (fun d => d.mb m = rs ∧ d.get b .RES_MB_STAT_LEVEL = rs.length ∧
        d.get b .RES_MB_POP_SEQ = (if r.run = (s.d.cx r.ctx).run then (r.words.getD 0 0).toNat else 0xFFFFFFFF) ∧ (∀ i, i < 8 → d.word (b + 0x920 + 4 * i) = (r.words.getD i 0).toNat) ∧
        d.get b .RES_MB_POPPED_COUNT = Nat.min (s.d.get b .RES_MB_POPPED_COUNT + 1) (2 ^ 32 - 1) ∧
        d.out = .read p (value wide (2 ^ 63 + rs.length * 2 ^ 48 + (r.words.getD 0 0).toNat)) :: s.d.out)) ∧
      (s.d.mb m = [] → Runs (.resMbPop p m wide) s (fun d => d.mbs = s.d.mbs ∧ d.regs = s.d.regs ∧ d.out = .read p (s.d.get b .RES_MB_POP_SEQ) :: s.d.out))) ∧
    (∀ wide, s.d.reaches p (b + 0x910) = true →
      (∀ r rs, s.d.mb m = r :: rs → rs.length < 64 → Runs (.resMbPeek p m wide) s (fun d => d.mbs = s.d.mbs ∧ d.regs = s.d.regs ∧
        d.out = .read p (value wide (2 ^ 63 + (rs.length + 1) * 2 ^ 48 + (r.words.getD 0 0).toNat)) :: s.d.out)) ∧
      (s.d.mb m = [] → Runs (.resMbPeek p m wide) s (fun d => d.regs = s.d.regs ∧ d.out = .read p (s.d.get b .RES_MB_POP_SEQ) :: s.d.out))) ∧
    (∀ v, s.d.reaches p (b + 0x900) = true →
      (s.d.ctxOwning (s.d.get b .RES_MB_CFG_CTX) = false → s.d.ctxOwning (v.toNat % 1024) = false → Runs (.resMbCfgWrite p m v) s (fun d =>
        d.bit b .RES_MB_CFG_EN = bitOf v.toNat 31 ∧ d.bit b .RES_MB_CFG_IRQ_EN = bitOf v.toNat 30 ∧ d.get b .RES_MB_CFG_CTX = v.toNat % 1024 ∧
        (bitOf v.toNat 31 = false → ∀ r ∈ d.bufs, r.dest ≠ .mb m))) ∧
      (s.d.mbOf (s.d.get b .RES_MB_CFG_CTX) = some m.val → s.d.ctxOwning (s.d.get b .RES_MB_CFG_CTX) = true → (bitOf v.toNat 31 = false ∨ s.d.get b .RES_MB_CFG_CTX ≠ v.toNat % 1024) →
        Runs (.resMbCfgWrite p m v) s (fun d => d.word (b + 0x900) = s.d.word (b + 0x900) ∧ d.mbs = s.d.mbs ∧
          (s.d.bit hifB .HIF_ERR_FIRST_VALID = false → d.get hifB .HIF_ERR_FIRST_CAUSE = 6)))) ∧
    (∀ (j : Fin 256) v, s.d.reaches p (resB + 0xC00 + 4 * j) = true →
      let a := resB + 0xC00 + 4 * j.val
      ((∀ i, i < 4 → s.d.ctxOwning (4 * j + i) = false) → Runs (.resRouteWrite p j v) s (fun d => ∀ i, i < 4 →
        d.word a / 256 ^ i % 256 = v.toNat / 256 ^ i % 64 + v.toNat / 256 ^ i / 128 % 2 * 128)) ∧
      (∀ i, i < 4 → s.d.ctxOwning (4 * j + i) = true → s.d.mbOf (4 * j + i) = none → s.d.word a / 256 ^ i % 256 / 128 = 1 → bitOf v.toNat (8 * i + 7) = false →
        Runs (.resRouteWrite p j v) s (fun d => d.word a / 256 ^ i % 256 = s.d.word a / 256 ^ i % 256 ∧
          (s.d.bit hifB .HIF_ERR_FIRST_VALID = false → d.get hifB .HIF_ERR_FIRST_CAUSE = 6)))))

/-- Context commands (R101 to R104, R122, R123, R134): each puts its routine at the end of the engine's queue, in the states that take it; the last redirect
written acts, and a stop discards it. -/
def Obligations.ContextCommands : Prop :=
  ∀ (s : State) (p : HPort) (c : Fin 1024) (v : Word),
    let b := ctxBase c
    let asks := fun (slot arg : Nat) (d : Dev) => (d.eng (c / 32)).queue = (s.d.eng (c / 32)).queue ++ [{ slot := slot, ctx := c, arg := arg }] ∧
      (d.eng (c / 32)).run = (s.d.eng (c / 32)).run
    let stays := fun (d : Dev) => d.engs = s.d.engs ∧ d.ctxs = s.d.ctxs ∧ d.ctxState c = s.d.ctxState c
    (s.d.reaches p (b + 0x10) = true → (s.d.ctxState c ∈ [0, 1, 5, 6] → Runs (.ctxLoad p c) s (asks 0x20 (s.d.get b .CTX_IMAGE_ADDR * 64))) ∧
      (s.d.ctxState c ∉ [0, 1, 5, 6] → Runs (.ctxLoad p c) s stays)) ∧
    (s.d.reaches p (b + 0x14) = true → (s.d.ctxState c ∈ [1, 5, 6] → Runs (.ctxArm p c) s (asks 0x21 0)) ∧ (s.d.ctxState c ∉ [1, 5, 6] → Runs (.ctxArm p c) s stays)) ∧
    (s.d.reaches p (b + 0x18) = true → (s.d.ctxState c = 2 → Runs (.ctxStart p c) s (fun d => asks 0x22 s.d.time d ∧ (s.d.startReady c = true → d.ctxState c = 2) ∧
        (d.ctxState c = 2 ∨ d.ctxState c = 3 ∧ (d.cx c).late = some s.d.time))) ∧
      (s.d.ctxState c = 7 → s.d.clkState ≠ 3 → s.d.bit hifB .HIF_ERR_FIRST_VALID = false →
        Runs (.ctxStart p c) s (fun d => d.ctxState c = 7 ∧ d.engs = s.d.engs ∧ d.bit hifB .HIF_ERR_FIRST_VALID = true ∧ d.get hifB .HIF_ERR_FIRST_CAUSE = 8 ∧
          d.get hifB .HIF_ERR_WR_CNT_COUNT = Nat.min (s.d.get hifB .HIF_ERR_WR_CNT_COUNT + 1) (2 ^ 32 - 1))) ∧
      (s.d.ctxState c ≠ 2 → s.d.ctxState c ≠ 7 → Runs (.ctxStart p c) s stays)) ∧
    (s.d.reaches p (b + 0x1C) = true → (s.d.ctxActive c = true → (s.d.cx c).req ≠ 2 → Runs (.ctxStop p c) s (fun d => asks 0x25 0 d ∧ (d.cx c).req = 2)) ∧
      (s.d.ctxActive c = false → Runs (.ctxStop p c) s stays)) ∧
    (s.d.reaches p (b + 0x20) = true → (s.d.ctxActive c = true → (s.d.cx c).req ≠ 2 → Runs (.ctxRedirect p c v) s (fun d => asks 0x24 0 d ∧ (d.cx c).req = 1 ∧
        (d.cx c).reqKeep = bitOf v.toNat 31 ∧ (d.cx c).reqTgt = v.toNat % 2 ^ 20)) ∧
      (s.d.ctxActive c = true → (s.d.cx c).req = 2 → Runs (.ctxRedirect p c v) s stays) ∧ (s.d.ctxActive c = false → Runs (.ctxRedirect p c v) s stays)) ∧
    (s.d.reaches p (b + 0x24) = true → (s.d.ctxState c ∈ [2, 5, 6, 7] → Runs (.ctxClearGo p c) s (asks 0x26 0)) ∧ (s.d.ctxState c ∉ [2, 5, 6, 7] → Runs (.ctxClearGo p c) s stays) ∧
      (s.d.ctxActive c = false → Runs (.ctxClearUnload p c) s (asks 0x26 1)) ∧ (s.d.ctxActive c = true → Runs (.ctxClearUnload p c) s stays))

/-- The command routines of the ROM (R100 to R105, R122, R139, R140, R147): what each publishes at its commit, after which the engine is free. The engine
runs no routine behind it. -/
def Obligations.ContextRoutines : Prop :=
  ∀ (s : State) (n : Fin 32) (r : URun),
    let c := r.rtn.ctx
    let x := s.d.cx c
    let free := fun (d : Dev) => d.running n = none
    (s.d.atRoutine n r 0x20 → s.d.ctxState c ∈ [0, 1, 5, 6] →
      let h := readHdr (s.d.view s.store) r.rtn.arg
      (hdrOk (s.d.view s.store) h = true → Runs (.rtLoad n) s (fun d => free d ∧ d.ctxState c = 1 ∧ d.get (ctxBase c) .CTX_STATE_CAUSE = 0 ∧ (d.cx c).hdr = some h)) ∧
      (hdrOk (s.d.view s.store) h = false → Runs (.rtLoad n) s (fun d => free d ∧ d.ctxState c = 0 ∧ d.get (ctxBase c) .CTX_STATE_CAUSE = 1 ∧ (d.cx c).hdr = none))) ∧
    (∀ h, x.hdr = some h → s.d.atRoutine n r 0x21 → s.d.ctxState c ∈ [1, 5, 6] →
      (∀ cause slot, s.d.armCause c h = some (cause, slot) → n.val = c / 32 → Runs (.rtArm n) s (fun d => free d ∧ d.ctxState c = s.d.ctxState c ∧
        d.get (ctxBase c) .CTX_STATE_CAUSE = cause ∧ d.get (ctxBase c) .CTX_STATE_ARM_SLOT = slot ∧ d.bitN (seqBase n) .PG_IRQ_STAT_BITS 0 = true)) ∧
      (s.d.armCause c h = none → n.val = c / 32 → ((s.d.armStages s.store c h).walkAll s.store h r.rtn).ovf = false → Runs (.rtArm n) s (fun d => free d ∧ d.ctxState c = 2 ∧ d.get (ctxBase c) .CTX_STATE_CAUSE = 0 ∧
        (d.cx c).site = (s.d.siteRegs c).filterMap id ∧ (d.cx c).opidx = h.entry ∧ (d.cx c).stack = [] ∧
        (d.cx c).table = some (((s.d.armStages s.store c h).walkAll s.store h r.rtn).table .decide)))) ∧
    (∀ h, x.hdr = some h → s.d.atRoutine n r 0x22 → s.d.ctxState c = 2 →
      Runs (.rtStart n) s (fun d => free d ∧ (d.cx c).run = x.runNext % 16384 ∧ (d.cx c).runNext = (x.runNext + 1) % 16384 ∧ d.ctxState c ≠ 2)) ∧
    (∀ h l, x.hdr = some h → x.chosen = some l → s.d.atRoutine n r 0x23 → s.d.ctxActive c = true → (s.d.walkAll s.store h r.rtn).ovf = false → x.table = none →
      Runs (.rtDecide n) s (fun d => free d ∧ (d.cx c).table = some ((s.d.walkAll s.store h r.rtn).table .decide) ∧ (d.cx c).chosen = none ∧ (d.cx c).opidx = l.next ∧
        (d.cx c).stack = l.stack ∧ (d.cx c).map = l.map ∧ (d.cx c).hf = l.hf)) ∧
    (∀ h, x.hdr = some h → s.d.atRoutine n r 0x24 → s.d.ctxActive c = true → x.req = 1 → (s.d.walkAll s.store h r.rtn).ovf = false → x.table = none →
      Runs (.rtRedirect n) s (fun d => free d ∧ (d.cx c).table = some ((s.d.walkAll s.store h r.rtn).table .redirect) ∧ (d.cx c).req = 0)) ∧
    (s.d.atRoutine n r 0x25 → s.d.ctxActive c = true → x.req = 2 → (∀ t, x.table = some t → t.tag ≠ .react) →
      Runs (.rtStop n) s (fun d => free d ∧ (x.table.map (fun t => t.tag) ≠ some .stop → (d.cx c).table = some { leaves := [endLeaf], tag := .stop }))) ∧
    (s.d.atRoutine n r 0x26 → r.rtn.arg = 1 → s.d.ctxActive c = false → Runs (.rtClear n) s (fun d => free d ∧ d.ctxState c = 0 ∧ (d.cx c).hdr = none)) ∧
    (s.d.atRoutine n r 0x26 → r.rtn.arg ≠ 1 → s.d.ctxState c ∈ [2, 5, 6, 7] → Runs (.rtClear n) s (fun d => free d ∧ d.ctxState c = 1 ∧ (d.cx c).hdr = x.hdr)) ∧
    (s.d.atRoutine n r 0x27 → s.d.ctxActive c = true → n.val = c / 32 → (∀ t, x.table = some t → t.tag ≠ .react) →
      Runs (.rtReact n) s (fun d => free d ∧ (d.cx c).table = some { leaves := [reactLeaf r.rtn.arg], tag := .react } ∧ ∀ q ∈ (d.eng n).queue, q.ctx = c → 0x28 ≤ q.slot)) ∧
    (s.d.atRoutine n r 0x27 → s.d.ctxState c = 2 → n.val = c / 32 →
      Runs (.rtReact n) s (fun d => free d ∧ d.ctxState c = 7 ∧ d.get (ctxBase c) .CTX_STATE_CAUSE = r.rtn.arg % 256 ∧ d.bitN (seqBase n) .SEQ_CTX_EVT_END (c % 32) = true))

/-- The service routines (R378, R461): CAL_APPLY prepares the inactive bank, and PMC_SAMPLE moves the waiting sample into its buffer. -/
def Obligations.ServiceRoutines : Prop :=
  ∀ (s : State) (n : Fin 32) (r : URun),
    let b := calcBase n
    let k := s.d.get (pmccBase n) .PMC_SMP_STAT_LEVEL
    (s.d.atRoutine n r 0x28 → s.d.get b .CAL_CL_PEND_PEND ≠ 0 → (s.d.clu n).calEnd = none →
      (s.d.calForeign n = false → s.d.bitN b .CAL_CL_CTRL_ACT_AT 2 = false → Runs (.rtCalApply n) s (fun d => d.running n = none ∧ d.bit b .CAL_CL_PEND_PREPARED = true ∧
        d.calA = s.d.calA ∧ (∀ o, o < calSize → Tab.get (calDflt s.d.fuse.dsn) d.calI (n * calSize + o) = Tab.get (calDflt s.d.fuse.dsn) s.d.calS (n * calSize + o)))) ∧
      (s.d.calForeign n = true → Runs (.rtCalApply n) s (fun d => d.running n = none ∧ d.get b .CAL_CL_STAT_CAUSE = 5 ∧ d.bitN b .PG_IRQ_STAT_BITS 3 = true ∧ d.calA = s.d.calA))) ∧
    (∀ w0 w1 w2 w3, s.d.atRoutine n r 0x29 → (s.d.clu n).cap = some [w0, w1, w2, w3] → k < 64 →
      Runs (.pmcSample n) s (fun d => d.running n = none ∧ (d.clu n).cap = none ∧ d.get (pmccBase n) .PMC_SMP_STAT_LEVEL = k + 1 ∧
        [w0, w1, w2, w3].map (fun w => w.toNat) = (List.range 4).map (fun i => d.word (pmccBase n + 0x400 + k * 16 + 4 * i)))) ∧
    (∀ ws, s.d.atRoutine n r 0x29 → (s.d.clu n).cap = some ws → k = 64 →
      Runs (.pmcSample n) s (fun d => d.running n = none ∧ (d.clu n).cap = none ∧
        d.get (pmccBase n) .PMC_SMP_STAT_LOST = Nat.min (s.d.get (pmccBase n) .PMC_SMP_STAT_LOST + 1) (2 ^ 16 - 1)))

/-- The emitting ops and the ends of a path (R110, R111, R118, R120): the leaf that BLOCK, RPT, CALGAP and END close, and the leaf with HALT that a reserved
opcode, a short op or a granule index outside its section closes. The leaf carries the actions and the key of its path; nothing but the walk changes, and the op cache,
which holds the op from then on. -/
def Obligations.WalkLeaves : Prop :=
  ∀ (s : State) (n : Fin 32) (r : URun) (h : Hdr) (p : Path) (rest : List Path) (o : OpW), s.walkAt n r h p rest o →
    let leaf := fun (x : Desc) (halt : Option Nat) (next : Nat) (d : Dev) => ∃ r' l, d = (s.d.opHold n s.store (h.opAddr p.opidx)).setRun n r' ∧ r'.work = rest ∧ r'.leaves = r.leaves ++ [l] ∧
      l.desc.kind = x.kind ∧ l.desc.gran = x.gran ∧ l.desc.count = x.count ∧ l.desc.last = x.last ∧ l.desc.act = x.act ∧ l.halt = halt ∧ l.next = next ∧
      l.care = p.care ∧ l.value = p.value ∧ l.map = p.map ∧ l.hf = p.hf ∧ l.stack.length = p.stack.length ∧
      (halt = none → l.acts = p.acts ∧ l.desc.map = p.map ∧ l.desc.clrf = p.clrf ∧ l.desc.opidx = p.opidx)
    let gran := o.b * 2 ^ 20 + o.c
    (o.op = 0x01 → 4 ≤ o.a → gran + o.a ≤ h.symCount → Runs (.block n) s (leaf { kind := .block, gran := gran, count := o.a } none (p.opidx + 1))) ∧
    (o.op = 0x01 → 4 ≤ o.a → h.symCount < gran + o.a → Runs (.block n) s (leaf { kind := .none } (some 0x16) p.opidx)) ∧
    (o.op = 0x01 → o.a < 4 → Runs (.block n) s (leaf { kind := .none } (some 0x12) p.opidx)) ∧
    (o.op = 0x02 → 4 ≤ o.a → gran < h.symCount → Runs (.rpt n) s (leaf { kind := .rpt, gran := gran, count := o.a } none (p.opidx + 1))) ∧
    (o.op = 0x02 → o.a < 4 → Runs (.rpt n) s (leaf { kind := .none } (some 0x12) p.opidx)) ∧
    (o.op = 0x0D → 4 ≤ o.c → Runs (.calgap n) s (leaf { kind := .gap, count := o.c, act := o.a % 2 == 1 } none (p.opidx + 1))) ∧
    (o.op = 0x12 → Runs (.endOp n) s (leaf { kind := .none, last := true } none p.opidx)) ∧
    (0x13 ≤ o.op → Runs (.badOp n) s (leaf { kind := .none } (some 0x11) p.opidx)) ∧
    (o.op = 0x0E → 4 ≤ o.sub → Runs (.badOp n) s (leaf { kind := .none } (some 0x11) p.opidx))

/-- The control ops (R107, R110, R112, R113, R116, R117, R119): where the path goes on, with its stack, map, fail window and actions. Nothing but the walk
and the op cache changes. The ops that a decision or a host-timed source answers (R115, R116, R126, R137): JMPC and ENDM open both outcomes of an input that is not fixed yet,
and follow a fixed one; HOSTRD and SYSTIME mark the path HOST_TIMED (mark 4). -/
def Obligations.WalkControl : Prop :=
  (∀ (s : State) (n : Fin 32) (r : URun) (h : Hdr) (p : Path) (rest : List Path) (o : OpW), s.walkAt n r h p rest o →
    let q : Path := { p with n := p.n + 1 }
    let on := fun (l : List Path) (d : Dev) => ∃ r', d = (s.d.opHold n s.store (h.opAddr p.opidx)).setRun n r' ∧ r'.work = l ++ rest ∧ r'.leaves = r.leaves ∧ r'.mmask = r.mmask
    let halts := fun (cause : Nat) (d : Dev) => ∃ r' l, d = (s.d.opHold n s.store (h.opAddr p.opidx)).setRun n r' ∧ r'.work = rest ∧ r'.leaves = r.leaves ++ [l] ∧ l.halt = some cause ∧ l.next = p.opidx
    (o.op = 0x00 → Runs (.nop n) s (on [{ q with opidx := p.opidx + 1 }])) ∧
    (o.op = 0x03 → o.c = 0 → Runs (.loop n) s (on [{ q with opidx := o.b + 1 }])) ∧
    (o.op = 0x03 → o.c ≠ 0 → p.stack.length < 16 →
      Runs (.loop n) s (on [{ q with stack := p.stack ++ [{ kind := .loop, op := p.opidx, count := o.c }], opidx := p.opidx + 1 }])) ∧
    (o.op = 0x03 → o.c ≠ 0 → 16 ≤ p.stack.length → Runs (.loop n) s (halts 0x13)) ∧
    (∀ below f, p.stack = below ++ [f] →
      (o.op = 0x04 → f.kind = .loop → f.count ≤ 1 → Runs (.endl n) s (on [{ q with stack := below, opidx := p.opidx + 1 }])) ∧
      (o.op = 0x04 → f.kind = .loop → 1 < f.count → Runs (.endl n) s (on [{ q with stack := below ++ [{ f with count := f.count - 1 }], opidx := f.op + 1 }])) ∧
      (o.op = 0x04 → f.kind ≠ .loop → Runs (.endl n) s (halts 0x14)) ∧
      (o.op = 0x06 → f.kind = .ret → Runs (.ret n) s (on [{ q with stack := below, opidx := f.op + 1 }])) ∧
      (o.op = 0x06 → f.kind ≠ .ret → Runs (.ret n) s (halts 0x14)) ∧
      (o.op = 0x0A → f.kind ≠ .mtch → Runs (.endm n) s (halts 0x14))) ∧
    (o.op = 0x04 → p.stack = [] → Runs (.endl n) s (halts 0x14)) ∧
    (o.op = 0x05 → p.stack.length < 16 → Runs (.call n) s (on [{ q with stack := p.stack ++ [{ kind := .ret, op := p.opidx, count := 0 }], opidx := o.c }])) ∧
    (o.op = 0x05 → 16 ≤ p.stack.length → Runs (.call n) s (halts 0x13)) ∧
    (o.op = 0x07 → Runs (.jmp n) s (on [{ q with opidx := o.c }])) ∧
    (o.op = 0x09 → o.a % 16 < h.maskCount → p.stack.length < 16 →
      Runs (.mloop n) s (on [{ q with stack := p.stack ++ [{ kind := .mtch, op := p.opidx, count := 1, fresh := true, quiet := o.sub % 2 == 0 }], opidx := p.opidx + 1 }])) ∧
    (o.op = 0x09 → h.maskCount ≤ o.a % 16 → Runs (.mloop n) s (halts 0x16)) ∧
    (o.op = 0x0B → o.a % 16 < h.wsmCount → Runs (.wsel n) s (on [{ q with map := o.a % 16, opidx := p.opidx + 1 }])) ∧
    (o.op = 0x0B → h.wsmCount ≤ o.a % 16 → Runs (.wsel n) s (halts 0x16)) ∧
    (o.op = 0x0C → Runs (.ldstb n) s (on [{ q with acts := p.acts ++ [.ldstb (o.a % 64)], opidx := p.opidx + 1 }])) ∧
    (o.op = 0x0E → o.sub = 0 → descsOk (s.d.opView n s.store) h (bits8 (o.a % 256)) (o.b % 256) = true →
      Runs (.acqOpen n) s (on [{ q with acts := p.acts ++ [.acq 0 (o.a % 256) (o.b % 256)], opidx := p.opidx + 1 }])) ∧
    (o.op = 0x0E → o.sub = 0 → descsOk (s.d.opView n s.store) h (bits8 (o.a % 256)) (o.b % 256) = false → Runs (.acqOpen n) s (halts 0x16)) ∧
    (o.op = 0x0E → o.sub = 1 → Runs (.acqClose n) s (on [{ q with acts := p.acts ++ [.acq 1 (o.a % 256) (o.b % 256)], opidx := p.opidx + 1 }])) ∧
    (o.op = 0x0E → o.sub = 2 → Runs (.acqReset n) s (on [{ q with acts := p.acts ++ [.acq 2 (o.a % 256) (o.b % 256)], opidx := p.opidx + 1 }])) ∧
    (o.op = 0x0E → o.sub = 3 → Runs (.acqEmit n) s (on [{ q with acts := p.acts ++ [.acq 3 (o.a % 256) (o.b % 256)], opidx := p.opidx + 1 }])) ∧
    (o.op = 0x0F → Runs (.clrf n) s (on [{ q with clrf := true, opidx := p.opidx + 1 }]))) ∧
  (∀ (s : State) (n : Fin 32) (r : URun) (h : Hdr) (p : Path) (rest : List Path) (o : OpW), s.walkAt n r h p rest o →
    let q : Path := { p with n := p.n + 1 }
    let timed : Path := { q with acts := p.acts ++ [.mark 4] }
    let fix := fun (q : Path) (bit v : Nat) => ({ q with care := setBits p.care bit 1 1, value := setBits p.value bit 1 v } : Path)
    let on := fun (l : List Path) (d : Dev) => ∃ r', d = (s.d.opHold n s.store (h.opAddr p.opidx)).setRun n r' ∧ r'.work = l ++ rest ∧ r'.leaves = r.leaves
    (o.op = 0x08 → o.sub = 0 → Runs (.jmpc n) s (on [{ q with opidx := o.c }])) ∧
    (o.op = 0x08 → o.sub = 1 → bitOf p.care 0 = false →
      Runs (.jmpc n) s (on [{ fix q 0 1 with opidx := o.c }, { fix q 0 0 with opidx := p.opidx + 1 }])) ∧
    (o.op = 0x08 → o.sub = 1 → bitOf p.care 0 = true → Runs (.jmpc n) s (on [{ q with opidx := if bitOf p.value 0 then o.c else p.opidx + 1 }])) ∧
    (o.op = 0x08 → o.sub = 2 → bitOf p.care 0 = false →
      Runs (.jmpc n) s (on [{ fix q 0 0 with opidx := o.c }, { fix q 0 1 with opidx := p.opidx + 1 }])) ∧
    (o.op = 0x08 → o.sub = 3 → bitOf p.care 1 = false →
      Runs (.jmpc n) s (on [{ fix q 1 1 with opidx := o.c }, { fix q 1 0 with opidx := p.opidx + 1 }])) ∧
    (o.op = 0x08 → 4 ≤ o.sub → o.sub ≤ 6 → bitOf p.care (o.sub - 2) = false →
      Runs (.jmpc n) s (on [{ fix timed (o.sub - 2) 1 with opidx := o.c }, { fix timed (o.sub - 2) 0 with opidx := p.opidx + 1 }])) ∧
    (o.op = 0x08 → o.sub = 7 → Runs (.jmpc n) s (on [{ timed with opidx := if bitOf p.hf 0 then o.c else p.opidx + 1 }])) ∧
    (∀ below f, p.stack = below ++ [f] → f.kind = .mtch → o.op = 0x0A →
      (f.fresh = true → Runs (.endm n) s (on [{ q with stack := below, opidx := p.opidx + 1 }])) ∧
      (f.fresh = false → p.judged = false → r.mframe = none → bitOf p.care 5 = false →
        let m := h.opAt (s.d.opView n s.store) f.op
        m.a % 16 < h.maskCount →
        Runs (.endm n) s (fun d => (∃ r', d.running n = some r' ∧ r'.mmask = some (m.a % 16)) ∧
          on [{ fix { q with judged := true } 5 1 with stack := below, opidx := p.opidx + 1 },
              if f.count < Nat.max 1 m.c then { fix { q with judged := true } 5 0 with stack := below ++ [{ f with count := f.count + 1, v0 := none }], opidx := f.op + 1 }
              else { fix { q with judged := true } 5 0 with stack := below, opidx := m.b }] d))) ∧
    (o.op = 0x10 → Runs (.hostrd n) s (on [{ timed with hf := s.d.get (ctxBase r.rtn.ctx) .CTX_MAILBOX_DATA, opidx := p.opidx + 1 }])) ∧
    (o.op = 0x11 → Runs (.systime n) s (on [{ timed with acts := p.acts ++ [.mark 4] ++ [.systime], opidx := p.opidx + 1 }])))

/-- The register ops of the microengine (R130 to R132): 20-bit results, Z and N from the result, C the carry or the borrow; the micro-address moves on
by one and nothing else of the routine changes. No register word and no context changes. -/
def Obligations.MicroArithmetic : Prop :=
  ∀ (s : State) (n : Fin 32) (r : URun) (x : BitVec 15),
    let w := x.toNat
    let u := s.d.redirected n r
    let rd := w / 2 ^ 12
    let a := r.reg (w / 2 ^ 9 % 8)
    let b := r.reg (w / 2 ^ 6 % 8)
    let goes := fun (u' : URun) (d : Dev) => d.running n = some { u' with upc := u.upc + 1 } ∧ d.regs = s.d.regs ∧ d.ctxs = s.d.ctxs
    let put := fun (v : Nat) => u.w.set rd (v % 2 ^ 20)
    let flags := fun (v : Nat) (c : Bool) => goes { u with w := put v, z := v % 2 ^ 20 == 0, n := bitOf v 19, c := c }
    (s.d.atWord n r 0x00 w → Runs (.uNop n x) s (goes u)) ∧
    (s.d.atWord n r 0x01 w → Runs (.uLdi n x) s (goes { u with w := put (w % 2 ^ 12) })) ∧
    (s.d.atWord n r 0x02 w → Runs (.uLui n x) s (goes { u with w := put (w % 256 * 2 ^ 12 + r.reg rd % 2 ^ 12) })) ∧
    (s.d.atWord n r 0x03 w → Runs (.uMov n x) s (goes { u with w := put a })) ∧
    (s.d.atWord n r 0x04 w → Runs (.uAdd n x) s (flags (a + b) (decide (2 ^ 20 ≤ a + b)))) ∧
    (s.d.atWord n r 0x05 w → Runs (.uSub n x) s (flags (a + 2 ^ 20 - b) (decide (a < b)))) ∧
    (s.d.atWord n r 0x06 w → let y := if w % 64 < 32 then w % 64 else w % 64 + 2 ^ 20 - 64
      Runs (.uAddi n x) s (flags (a + y) (decide (2 ^ 20 ≤ a + y)))) ∧
    (s.d.atWord n r 0x07 w → Runs (.uAnd n x) s (flags (Nat.land a b) r.c)) ∧
    (s.d.atWord n r 0x08 w → Runs (.uOr n x) s (flags (Nat.lor a b) r.c)) ∧
    (s.d.atWord n r 0x09 w → Runs (.uXor n x) s (flags (Nat.xor a b) r.c)) ∧
    (s.d.atWord n r 0x0A w → Runs (.uShf n x) s (goes { u with w := put (if bitOf w 5 then a / 2 ^ (w % 32) else a * 2 ^ (w % 32)) })) ∧
    (s.d.atWord n r 0x0B w → Runs (.uCmp n x) s (goes { u with z := (a + 2 ^ 20 - b) % 2 ^ 20 == 0, n := bitOf (a + 2 ^ 20 - b) 19, c := decide (a < b) }))

/-- Branches, calls and commits of the microengine (R129, R132, R142, R143, R146): where the micro-address goes, what a commit leaves, how a routine
ends. -/
def Obligations.MicroControl : Prop :=
  ∀ (s : State) (n : Fin 32) (r : URun) (x : BitVec 15),
    let w := x.toNat
    let u := s.d.redirected n r
    let goes := fun (u' : URun) (d : Dev) => d.running n = some u' ∧ d.regs = s.d.regs ∧ d.ctxs = s.d.ctxs
    (s.d.atWord n r 0x0C w → w < 6 → Runs (.uSkip n x) s (goes { u with upc := u.upc + (if (if w % 2 = 0 then [r.z, r.n, r.c].getD (w / 2) false else !([r.z, r.n, r.c].getD (w / 2) false)) then 2 else 1) })) ∧
    (s.d.atWord n r 0x0C w → 6 ≤ w → w ≤ 9 →
      Runs (.uSkip n x) s (goes { u with upc := u.upc + (if [r.stack == [], decide (16 ≤ r.stack.length), decide (8 ≤ r.leaves.length), decide (64 ≤ r.wbuf.length)].getD (w - 6) false then 2 else 1) })) ∧
    (s.d.atWord n r 0x0C w → w = 10 → Runs (.uSkip n x) s (goes { u with upc := u.upc + (if (s.d.cx r.rtn.ctx).req = 0 then 1 else 2) })) ∧
    (s.d.atWord n r 0x0C w → w = 11 → Runs (.uSkip n x) s (goes { u with upc := u.upc + (if r.outside then 2 else 1) })) ∧
    (s.d.atWord n r 0x0D w → Runs (.uJmp n x) s (goes { u with upc := w })) ∧
    (s.d.atWord n r 0x0E w → r.calls.length < 4 → Runs (.uCallu n x) s (goes { u with upc := w, calls := (u.upc + 1) :: r.calls })) ∧
    (s.d.atWord n r 0x0F w → ∀ y ys, r.calls = y :: ys → Runs (.uRetu n x) s (goes { u with upc := y, calls := ys })) ∧
    (s.d.atWord n r 0x10 w → Runs (.uDisp n x) s (goes { u with upc := r.reg (w / 2 ^ 9 % 8) % 64 })) ∧
    (s.d.atWord n r 0x1D w → Runs (.uExit n x) s (fun d => d.running n = none ∧ d.bit (seqBase n) .SEQ_STAT_ACTIVE = false ∧ d.ctxs = s.d.ctxs)) ∧
    (s.d.atWord n r 0x1E w → Runs (.uHalt n x) s (goes { u with upc := u.upc + 1, halt := some (w % 256) })) ∧
    (s.d.atWord n r 0x1C (w / 2 * 2) → Runs (.uCommitStage n x) s (fun d => d.stage n r.rtn = (r.stage + 1) % 2 ^ 8 ∧
      d.running n = some (({ u with upc := u.upc + 1, stage := r.stage + 1, wbuf := [], leaves := [], nact := 0, desc := {}, acts := [], mmask := none, mfrom := 0, halt := none, hostT := false } : URun).cleared
        (d.cx r.rtn.ctx).hdr) ∧
      (r.rtn.service = false → r.wbuf = [] → (d.cx r.rtn.ctx).opidx = r.opidx ∧ (d.cx r.rtn.ctx).map = r.map ∧ (d.cx r.rtn.ctx).hf = r.hf ∧
        (∀ k, r.halt = some k → r.leaves = [] → (s.d.cx r.rtn.ctx).table = none → ∃ t l, (d.cx r.rtn.ctx).table = some t ∧ t.leaves = [l] ∧ l.halt = some k)))) ∧
    (s.d.atWord n r 0x1C (w / 2 * 2 + 1) → Runs (.uCommitFinal n x) s (fun d => d.stage n r.rtn = 0 ∧
      d.running n = some { u with upc := u.upc + 1, stage := 0, tail := some 0, wbuf := [], leaves := [], nact := 0, desc := {}, acts := [], mmask := none, mfrom := 0, halt := none, hostT := false } ∧
      (r.rtn.slot = 0x25 → r.wbuf = [] → r.leaves = [] → r.halt = none → s.d.ctxActive r.rtn.ctx = true → (s.d.cx r.rtn.ctx).req = 2 → (s.d.cx r.rtn.ctx).table = none →
        (d.cx r.rtn.ctx).table = some { leaves := [endLeaf], tag := .stop })))

/-- Image, register and context-state access of the microengine, and its frame stack (R112, R131, R132). The faults of the microengine (R133, R143, R153): each sets its bit of PG_FLT_STAT, reaches the collector and ends the routine, which waits again unless
its tail had begun. -/
def Obligations.MicroState : Prop :=
  (∀ (s : State) (n : Fin 32) (r : URun) (x : BitVec 15),
    let w := x.toNat
    let u := s.d.redirected n r
    let rd := w / 2 ^ 12
    let a := r.reg (w / 2 ^ 9 % 8)
    let b := r.reg (w / 2 ^ 6 % 8)
    let goes := fun (u' : URun) (d : Dev) => d.running n = some { u' with upc := u.upc + 1 } ∧ d.regs = s.d.regs ∧ d.ctxs = s.d.ctxs
    let put := fun (v : Nat) => u.w.set rd (v % 2 ^ 20)
    let w' := fun (k : Nat) => w / 8 * 8 + k
    (∀ h, (s.d.cx r.rtn.ctx).hdr = some h → s.d.atWord n r 0x11 w →
      (a < (h.section (w / 2 ^ 12)).1 → Runs (.uRdimg n x) s (goes { u with latch := BitVec.ofNat 64 (storeLE (s.d.opView (r.rtn.ctx / 32) s.store) (h.base + (h.section (w / 2 ^ 12)).2 + 8 * a) 8), outside := false })) ∧
      ((h.section (w / 2 ^ 12)).1 ≤ a → Runs (.uRdimg n x) s (fun d => ∃ v : BitVec 64, goes { u with latch := v, outside := true } d))) ∧
    (s.d.atWord n r 0x12 w → Runs (.uFld n x) s (goes { u with w := put (uField r.latch.toNat (w % 64)) })) ∧
    (s.d.atWord n r 0x13 w → Runs (.uRdcs n x) s (goes { u with w := put ((s.d.uIssue n).uCs u (w % 64)) })) ∧
    (s.d.atWord n r 0x14 w → (w % 64 = 0 → Runs (.uWrcs n x) s (goes { u with opidx := a })) ∧ (w % 64 = 1 → Runs (.uWrcs n x) s (goes { u with map := a % 16 })) ∧
      (w % 64 = 2 → Runs (.uWrcs n x) s (goes { u with hf := a })) ∧ (w % 64 = 3 → Runs (.uWrcs n x) s (goes { u with stage := a % 256 }))) ∧
    (s.d.atWord n r 0x15 (w' 0) → r.stack.length < 16 → Runs (.uFrmPushLoop n x) s (goes { u with stack := r.stack ++ [{ kind := .loop, op := a, count := b }] })) ∧
    (s.d.atWord n r 0x15 (w' 1) → r.stack.length < 16 →
      Runs (.uFrmPushMatch n x) s (fun d => ∃ quiet, goes { u with stack := r.stack ++ [{ kind := .mtch, op := a, count := b, fresh := true, quiet := quiet }] } d)) ∧
    (s.d.atWord n r 0x15 (w' 2) → r.stack.length < 16 → Runs (.uFrmPushReturn n x) s (goes { u with stack := r.stack ++ [{ kind := .ret, op := a, count := b }] })) ∧
    (s.d.atWord n r 0x15 (w' 3) → Runs (.uFrmPop n x) s (goes { u with stack := r.stack.dropLast })) ∧
    (∀ below f, r.stack = below ++ [f] →
      (s.d.atWord n r 0x15 (w' 4) → Runs (.uFrmTopOp n x) s (goes { u with w := put f.op })) ∧
      (s.d.atWord n r 0x15 (w' 5) → Runs (.uFrmTopCount n x) s (goes { u with w := put f.count })) ∧
      (s.d.atWord n r 0x15 (w' 6) → Runs (.uFrmTopKind n x) s (goes { u with w := put (match f.kind with | .loop => 0 | .mtch => 1 | .ret => 2) })) ∧
      (s.d.atWord n r 0x15 (w' 7) → Runs (.uFrmSetCount n x) s (goes { u with stack := below ++ [{ f with count := b }] }))) ∧
    (r.stack = [] → s.d.atWord n r 0x15 (w' 6) → Runs (.uFrmTopKind n x) s (goes { u with w := put 3 })) ∧
    (r.stack = [] → s.d.atWord n r 0x15 (w' 4) → Runs (.uFrmTopOp n x) s (fun d => ∃ v, goes { u with w := put v } d)) ∧
    (s.d.atWord n r 0x1A w → Runs (.uRdreg n x) s (goes { u with w := put ((s.d.uIssue n).uRead n a) })) ∧
    (s.d.atWord n r 0x1B w → r.wbuf.length < 64 → Runs (.uWrreg n x) s (goes { u with wbuf := r.wbuf ++ [(a, b)] }))) ∧
  (∀ (s : State) (n : Fin 32) (r : URun) (x : BitVec 15),
    let w := x.toNat
    let u := s.d.redirected n r
    let faults := fun (bit code : Nat) (d : Dev) => d.bitN (seqBase n) .PG_FLT_STAT_BITS bit = true ∧ s.d.recorded d (srcWord 0x20 n bit) ∧
      d.running n = none ∧ d.bit (seqBase n) .SEQ_UERR_VALID = true ∧
      (s.d.bit (seqBase n) .SEQ_UERR_VALID = false → d.get (seqBase n) .SEQ_UERR_CODE = code ∧ d.get (seqBase n) .SEQ_UERR_CTX = r.rtn.ctx % 32 ∧
        d.get (seqBase n) .SEQ_UERR_UADDR = u.upc % 2 ^ 15)
    (s.d.atWord n r 0x1F w → Runs (.uFlt n x) s (faults 6 (w % 256))) ∧
    (s.d.atWord n r 0x0E w → 4 ≤ r.calls.length → Runs (.uCallu n x) s (faults 1 0xF1)) ∧
    (s.d.atWord n r 0x0F w → r.calls = [] → Runs (.uRetu n x) s (faults 1 0xF1)) ∧
    (s.d.atWord n r 0x1B w → 64 ≤ r.wbuf.length → Runs (.uWrreg n x) s (faults 2 0xF2)) ∧
    (s.d.atWord n r 0x19 w → 8 ≤ r.leaves.length → Runs (.uDleaf n x) s (faults 3 0xF3)) ∧
    (s.d.running n = some r → (s.d.clu n).bst = none → r.tail ≠ none → Runs (.tailOvf n) s (fun d => d.bitN (seqBase n) .PG_FLT_STAT_BITS 4 = true ∧
      s.d.recorded d (srcWord 0x20 n 4) ∧ d.running n = none ∧
      d.get (seqBase n) .SEQ_TAIL_MAX_CYCLES = Nat.max (s.d.get (seqBase n) .SEQ_TAIL_MAX_CYCLES) 600)))

/-- The leaf builder of the microengine (R131, R132, R137): descriptor fields, actions, leaves; HREAD takes the mailbox and marks what is published
HOST_TIMED. -/
def Obligations.MicroBuilder : Prop :=
  ∀ (s : State) (n : Fin 32) (r : URun) (x : BitVec 15),
    let w := x.toNat
    let u := s.d.redirected n r
    let a := r.reg (w / 2 ^ 9 % 8)
    let goes := fun (u' : URun) (d : Dev) => d.running n = some { u' with upc := u.upc + 1 } ∧ d.regs = s.d.regs ∧ d.ctxs = s.d.ctxs
    let k := fun (i : Nat) => if 4 < w % 8 then w else w / 8 * 8 + i
    (s.d.atWord n r 0x16 w → Runs (.uHread n x) s (goes { u with w := u.w.set (w / 2 ^ 12) (s.d.get (ctxBase r.rtn.ctx) .CTX_MAILBOX_DATA % 2 ^ 20), hostT := true })) ∧
    (s.d.atWord n r 0x17 w →
      (w % 64 = 0 → Runs (.uDset n x) s (goes { u with desc := { r.desc with gran := r.desc.gran / 2 ^ 20 * 2 ^ 20 + a } })) ∧
      (w % 64 = 1 → Runs (.uDset n x) s (goes { u with desc := { r.desc with gran := a * 2 ^ 20 + r.desc.gran % 2 ^ 20 } })) ∧
      (w % 64 = 2 → Runs (.uDset n x) s (goes { u with desc := { r.desc with count := a } })) ∧
      (w % 64 = 3 → Runs (.uDset n x) s (goes { u with desc := { r.desc with kind := [DKind.block, .rpt, .gap, .none].getD a .none } })) ∧
      (w % 64 = 4 → Runs (.uDset n x) s (goes { u with desc := { r.desc with map := a % 16 } })) ∧
      (w % 64 = 5 → Runs (.uDset n x) s (goes { u with desc := { r.desc with clrf := bitOf a 0, last := bitOf a 1, act := bitOf a 2 } })) ∧
      (w % 64 = 6 → Runs (.uDset n x) s (goes { u with desc := { r.desc with opidx := a } }))) ∧
    (r.nact < 64 →
      (s.d.atWord n r 0x18 (k 0) → Runs (.uDactAcq n x) s (goes { u with nact := r.nact + 1, acts := r.acts ++ [.acq (a / 2 ^ 16 % 4) (a / 2 ^ 8 % 256) (a % 256)] })) ∧
      (s.d.atWord n r 0x18 (k 1) → Runs (.uDactLdstb n x) s (goes { u with nact := r.nact + 1, acts := r.acts ++ [.ldstb (a % 64)] })) ∧
      (s.d.atWord n r 0x18 (k 2) → Runs (.uDactMark n x) s (goes { u with nact := r.nact + 1, acts := r.acts ++ [.mark (a % 16)] })) ∧
      (s.d.atWord n r 0x18 (k 3) → Runs (.uDactSystime n x) s (goes { u with nact := r.nact + 1, acts := r.acts ++ [.systime] })) ∧
      (s.d.atWord n r 0x18 (k 4) → Runs (.uDactMatch n x) s (fun d => ∃ v, goes { u with nact := r.nact + 1, mmask := some (a % 16), mfrom := v } d))) ∧
    (s.d.atWord n r 0x19 w → r.leaves.length < 8 →
      Runs (.uDleaf n x) s (fun d => ∃ l, goes { u with leaves := r.leaves ++ [l], desc := {}, acts := [], halt := none } d ∧ l.desc = r.desc ∧ l.acts = r.acts ∧ l.halt = r.halt ∧
        l.care = w / 64 % 64 ∧ l.value = w % 64 ∧ l.next = r.opidx ∧ l.map = r.map ∧ l.hf = r.hf ∧ l.stack = r.stack.map (fun f => { f with fresh := false })))

/-- The pump (R18 to R20, R114, R120 to R125, R171, R294): a vector, a latch, and a boundary at which what the latch fixed takes effect. The actions of a pin (R82 to R85): drives, strobes, windows, marks and reserved codes of a channel that a context has in service. -/
def Obligations.PumpSteps : Prop :=
  (∀ (s : State) (c : Fin 1024) (h : Hdr) (smp : List (BitVec 2)), (s.d.cx c).hdr = some h →
    let x := s.d.cx c
    (s.d.pumpUp c = true → x.vec < 64 → s.d.latchDue c = false → Runs (.vectorEmit c smp) s (fun d => (d.cx c).vec = x.vec + 1 ∧ (d.cx c).s = x.s + h.tv ∧
      d.time = Nat.max s.d.time x.s ∧ d.vidx c = (if x.gk = .hold then s.d.vidx c else (s.d.vidx c + 1) % 2 ^ 64))) ∧
    (s.d.emitting c = true → s.d.latchDue c = true → Runs (.decisionLatch c) s (fun d => (d.cx c).succ ≠ none ∧ (d.cx c).vec = 56 ∧ d.time = Nat.max s.d.time x.s)) ∧
    (s.d.emitting c = true → x.vec = 64 →
      (∀ cause, x.succ = some (.hold cause) → Runs (.granuleBoundary c) s (fun d => d.ctxState c = 4 ∧ (d.cx c).vec = 0 ∧ (d.cx c).gk = .hold ∧ (d.cx c).succ = none ∧
        d.get (ctxBase c) .CTX_HOLDS_COUNT = Nat.min (s.d.get (ctxBase c) .CTX_HOLDS_COUNT + 1) (2 ^ 32 - 1))) ∧
      (x.succ = some .cont → Runs (.granuleBoundary c) s (fun d => d.ctxState c = 3 ∧ (d.cx c).vec = 0 ∧ (d.cx c).curPos = x.curPos + 1 ∧ (d.cx c).gap = none)) ∧
      (∀ l tag, x.succ = some (.leaf l tag) → l.ends = false → Runs (.granuleBoundary c) s (fun d => d.ctxState c = 3 ∧ (d.cx c).vec = 0 ∧ (d.cx c).curPos = 0 ∧
        (d.cx c).cur = some l.desc ∧ d.get (ctxBase c) .CTX_OPIDX_OP = l.desc.opidx % 2 ^ 20)) ∧
      (∀ l tag cause, x.succ = some (.leaf l tag) → l.halt = some cause → Runs (.granuleBoundary c) s (fun d => d.ctxState c = 7 ∧
        d.get (ctxBase c) .CTX_STATE_CAUSE = cause % 256)) ∧
      (∀ l tag, x.succ = some (.leaf l tag) → l.halt = none → l.desc.last = true → Runs (.granuleBoundary c) s (fun d => d.ctxState c = (if tag = .stop then 5 else 6) ∧
        d.get (ctxBase c) .CTX_STATE_CAUSE = 0 ∧ (d.cx c).site = [])) ∧
      (∀ cause, x.succ = some (.strict cause) → Runs (.granuleBoundary c) s (fun d => d.ctxState c = 7 ∧ d.get (ctxBase c) .CTX_STATE_CAUSE = 0x10)) ∧
      (x.succ = some .maskStop → Runs (.granuleBoundary c) s (fun d => d.ctxState c = 6 ∧ d.bitN (acqBase (c / 32)) .ACQ_STOP_MAP_CTX (c % 32) = true)))) ∧
  (∀ (s : State) (g : Fin 1024) (y : BitVec 2),
    let p := s.d.pin g
    let tip := fun (code : Nat) => s.d.time + (s.d.edgeOf g p.wset (s.d.actEdge g code)).1 + 32768
    let drives := fun (code : Nat) (v : Drv) (d : Dev) =>
      let k := s.d.actEdge g code
      let rise := s.d.drvRise g k v
      d = s.d.setPin g { p with drv := v, edge := some { k := k, tip := tip code, fire := (tip code : Int) - s.d.pDrv g k (if rise then 0 else 1), rise := rise } }
    ((s.d.service g).isSome = true → s.d.pinLive g = true →
      Runs (.drvL g) s (drives 1 .l) ∧ Runs (.drvH g) s (drives 2 .h) ∧ Runs (.drvT g) s (drives 3 .t) ∧ Runs (.drvZ g) s (drives 4 .z)) ∧
    (∀ k old new a b, s.d.drvCode g old = some a → s.d.drvCode g new = some b → s.d.drvNow g = old → (a < b → s.d.drvRise g k new = true) ∧ (b < a → s.d.drvRise g k new = false)) ∧
    (∀ k, s.d.drvRise g k .z = false) ∧
    ((s.d.service g).isSome = true → Runs (.badAct g) s (fun d => d = s.d.setb (pinBase g) .PIN_STAT_BAD_ACT true)) ∧
    (∀ c, s.d.actCtx g = some c →
      let x := s.d.cx c
      let v := s.d.vidx c - 1
      let fails := fun (d : Dev) => (d.cx c).failV = some (match x.failV with | some f => Nat.min f v | none => v)
      let strobes := fun (code : Nat) (mask : Bool) (fail : Bool) (d : Dev) => ∃ i, (d.cx c).inbox = x.inbox ++ [(v, i)] ∧ i.slot = p.slot ∧ i.fail = fail ∧ i.expect = mask ∧
        i.ch = bitOf y.toNat 1 ∧ i.cl = bitOf y.toNat 0 ∧ (if fail then fails d else (d.cx c).failV = x.failV) ∧ d.regs = s.d.regs ∧
        d.pins = (s.d.setPin g { p with smp := some { tip := tip code, taken := (tip code : Int) + s.d.pRcv g } }).pins
      (x.loop = false → x.quiet = false → p.cmp ≠ .off → s.d.cmpHeld g = false →
        Runs (.cmpL g y) s (strobes 8 true (!bitOf y.toNat 0)) ∧ Runs (.cmpH g y) s (strobes 9 true (!bitOf y.toNat 1)) ∧
        Runs (.cmpM g y) s (strobes 10 true (bitOf y.toNat 1 || bitOf y.toNat 0)) ∧ Runs (.cmpX g y) s (strobes 11 false false)) ∧
      (p.win = none → Runs (.winL g) s (fun d => d = s.d.setPin g { p with win := some { high := false, failed := !s.d.bit (pinBase g) .PIN_CMP_STAT_CL } }) ∧
        Runs (.winH g) s (fun d => d = s.d.setPin g { p with win := some { high := true, failed := !s.d.bit (pinBase g) .PIN_CMP_STAT_CH } }) ∧
        Runs (.winEnd g) s (fun d => d = s.d)) ∧
      (∀ w, p.win = some w → x.loop = false → x.quiet = false → Runs (.winEnd g) s (fun d => (d.pin g).win = none ∧
        ∃ i, (d.cx c).inbox = x.inbox ++ [(v, i)] ∧ i.slot = p.slot ∧ i.fail = w.failed ∧ i.win = true ∧ (if w.failed then fails d else (d.cx c).failV = x.failV)))) ∧
    (∀ c, s.d.actCtx g = none → s.d.service g = some c → Runs (.cmpL g y) s (fun d => d = s.d) ∧ Runs (.winH g) s (fun d => d = s.d) ∧ Runs (.winEnd g) s (fun d => d = s.d) ∧
      ∀ t, Runs (.markAct g t) s (fun d => d = s.d)))

/-- The pattern store through BAR2 (R157, R158, R160, R161, R178): what a read returns, which bytes a write changes, the clear that ends with READY. Quotas and fills (R160, R164 to R166): a quota write that would raise the sum above 456 is discarded; a request takes the first record that is wanted
and neither held nor awaited; a completed fill makes its record resident, and one with an uncorrectable error does not. -/
def Obligations.PatternStore : Prop :=
  (∀ (s : State),
    (∀ (a : BitVec 36) (r : B2Read), s.d.pcieOk = true → s.d.storeReady = true → a.toNat + r.len.val ≤ storeBytes → a.toNat < storeBytes → 0 < r.len.val →
      s.d.armed 0x0B 0 0 = false →
      Runs (.bar2Read a r) s (fun d => (∃ v, d.out = .read .pcie v :: s.d.out ∧ v < 256 ^ r.len.val ∧
          ∀ i, i < r.len.val → (∀ o, r.ecc = .lost o → r.len.val ≤ o.val ∨ (a.toNat + o.val) / 8 ≠ (a.toNat + i) / 8) → v / 256 ^ i % 256 = storeByte s.store (a.toNat + i)) ∧
        d.get patB .PAT_RD_BYTES_BYTES = Nat.min (s.d.get patB .PAT_RD_BYTES_BYTES + r.len.val) (2 ^ 64 - 1) ∧ d.pow.selfRef = false ∧
        (r.ecc = .corrected → d.get patB .PAT_ECC_CE_CNT_COUNT = Nat.min (s.d.get patB .PAT_ECC_CE_CNT_COUNT + 1) (2 ^ 32 - 1)) ∧
        (∀ o, r.ecc = .lost o → o.val < r.len.val → d.bitN patB .PG_FLT_STAT_BITS 0 = true ∧
          d.get patB .PAT_ECC_UE_CNT_COUNT = Nat.min (s.d.get patB .PAT_ECC_UE_CNT_COUNT + 1) (2 ^ 32 - 1) ∧
          (s.d.get patB .PAT_ECC_UE_CNT_COUNT = 0 → d.get patB .PAT_ECC_UE_ADDR_ADDR = (a.toNat + o.val) % 2 ^ 36)))) ∧
    (∀ (a : BitVec 36) (r : B2Read), s.d.pcieOk = true → s.d.storeReady = true → storeBytes ≤ a.toNat ∨ r.len.val = 0 →
      Runs (.bar2Read a r) s (fun d => d.out = .read .pcie 0 :: s.d.out ∧ (storeBytes ≤ a.toNat → d.bit patB .PAT_B2_ERR_VALID = true))) ∧
    (∀ (a : BitVec 36) (len : B2Read), s.d.pcieOk = true → s.d.storeReady = false → s.d.bit patB .PAT_B2_ERR_VALID = false →
      Runs (.bar2Read a len) s (fun d => d.out = .read .pcie 0 :: s.d.out ∧ d.bit patB .PAT_B2_ERR_VALID = true ∧ d.bit patB .PAT_B2_ERR_WRITE = false ∧
        d.get patB .PAT_B2_ERR_ADDR = a.toNat / 64)) ∧
    (∀ (a : BitVec 36) (bs : List Byte), s.d.pcieOk = true → s.d.storeReady = true →
      ∃ t, exec (.bar2Write a bs) s = .next t ∧ t.pending = s.pending ∧
        (∀ b, storeByte t.store b = (if a.toNat ≤ b ∧ b < a.toNat + bs.length ∧ b < storeBytes then (bs.getD (b - a.toNat) 0).toNat else storeByte s.store b)) ∧
        t.d.get patB .PAT_WR_BYTES_BYTES = Nat.min (s.d.get patB .PAT_WR_BYTES_BYTES + Nat.min bs.length (storeBytes - a.toNat)) (2 ^ 64 - 1) ∧
        (storeBytes ≤ a.toNat ∨ storeBytes < a.toNat + bs.length → t.d.bit patB .PAT_B2_ERR_VALID = true)) ∧
    (∀ (a : BitVec 36) (bs : List Byte), s.d.pcieOk = true → s.d.storeReady = false →
      Runs (.bar2Write a bs) s (fun d => d.bit patB .PAT_B2_ERR_VALID = true)) ∧
    (s.d.storeReady = false → ∃ t, exec .patternStoreReady s = .next t ∧ t.pending = s.pending ∧ (∀ b, storeByte t.store b = 0) ∧ t.d.storeReady = true ∧
      t.d.get patB .PAT_STORE_STACKS = 3 ∧ t.d.get patB .PG_STAT_STATE = 1) ∧
    (∀ b : Bool, Runs (.hbmFail b) s (fun d => d.bitN patB .PAT_STORE_STACKS (if b then 1 else 0) = false ∧ d.bitN patB .PG_FLT_STAT_BITS (if b then 2 else 1) = true ∧
      s.d.recorded d (srcWord 0x0B 0 (if b then 2 else 1))))) ∧
  (∀ (s : State) (c : Fin 1024),
    (∀ (p : HPort) (v : Word), s.d.reaches p (quotaBase c + 0x100) = true →
      let sum := (List.range 32).foldl (fun a i => a + (if 32 * (c.val / 32) + i = c.val then 0 else s.d.get (quotaBase (32 * (c.val / 32) + i)) .PAT_QUOTA_QUOTA)) 0
      let old := s.d.get (quotaBase c) .PAT_QUOTA_QUOTA
      (v.toNat % 1024 ≤ old ∨ sum + v.toNat % 1024 ≤ 456 → Runs (.patQuotaWrite p c v) s (fun d => d.get (quotaBase c) .PAT_QUOTA_QUOTA = v.toNat % 1024 ∧
        d.get (quotaBase c) .PAT_QUOTA_EFF = s.d.get (quotaBase c) .PAT_QUOTA_EFF)) ∧
      (old < v.toNat % 1024 → 456 < sum + v.toNat % 1024 → Runs (.patQuotaWrite p c v) s (fun d => d.word (quotaBase c + 0x100) = s.d.word (quotaBase c + 0x100) ∧
        d.bitN (patcBase (c / 32)) .PG_IRQ_STAT_BITS 1 = true))) ∧
    (∀ k ks, s.d.ctxOwning c = true → s.d.storeReady = true → s.d.vcache c = false → s.d.wants c = (false, k) :: ks → s.d.holds c (false, k) = false →
      s.d.fills.any (fun f => f.ctx == c.val && !f.win && f.key == k) = false →
      Runs (.fillRequest c) s (fun d => d = { s.d with fills := s.d.fills ++ [{ ctx := c, key := k }] })) ∧
    (s.d.ctxOwning c = false ∨ s.d.storeReady = false ∨ s.d.vcache c = true → Runs (.fillRequest c) s (fun d => d = s.d)) ∧
    (∀ f h, s.d.nextFill c = some f → (s.d.cx c).hdr = some h → f.win = false → s.d.armed 0x0B 0 0 = false →
      ((s.d.recsOf c).length < s.d.cacheCap c → Runs (.fillComplete c 0) s (fun d => d.fills = s.d.fills.erase f ∧
        d.cache = s.d.cache.filter (fun x => !(x.ctx == c.val && x.win == false && x.key == f.key)) ++
          [{ ctx := c, key := f.key, data := (List.range h.granBytes).map (fun o => Tab.get storeDflt s.store (h.recAddr f.key + o)) }] ∧
        d.get patB .PAT_ECC_CE_CNT_COUNT = s.d.get patB .PAT_ECC_CE_CNT_COUNT) ∧
        Runs (.fillComplete c 3) s (fun d => d.fills = s.d.fills.erase f ∧ d.cache = s.d.cache.filter (fun x => !(x.ctx == c.val && x.win == false && x.key == f.key)) ++
          [{ ctx := c, key := f.key, data := (List.range h.granBytes).map (fun o => Tab.get storeDflt s.store (h.recAddr f.key + o)), bad := true }])) ∧
      Runs (.fillComplete c 1) s (fun d => d.fills = s.d.fills.erase f ∧ d.get patB .PAT_ECC_CE_CNT_COUNT = Nat.min (s.d.get patB .PAT_ECC_CE_CNT_COUNT + 1) (2 ^ 32 - 1)) ∧
      Runs (.fillComplete c 2) s (fun d => d.fills = s.d.fills.erase f ∧ d.cache = s.d.cache ∧ d.bitN patB .PG_FLT_STAT_BITS 0 = true ∧
        d.get patB .PAT_ECC_UE_CNT_COUNT = Nat.min (s.d.get patB .PAT_ECC_UE_CNT_COUNT + 1) (2 ^ 32 - 1) ∧ s.d.recorded d (srcWord 0x0B 0 0) ∧
        (s.d.get patB .PAT_ECC_UE_CNT_COUNT = 0 → d.get patB .PAT_ECC_UE_ADDR_ADDR = h.recAddr f.key % 2 ^ 36))))

/-- Streams (R173, R174, R176, R177): enable and disable, the producer count, a record moved into its window, the end of a descriptor, errors. -/
def Obligations.Streams : Prop :=
  ∀ (s : State) (q : Fin 16),
    let b := strBase q
    (∀ (p : HPort) (v : Word), s.d.reaches p (b + 0x100) = true →
      (s.d.bit b .PAT_STR_CTRL_EN = false → Runs (.streamEnable p q v) s (fun d => d.bit b .PAT_STR_CTRL_EN = true ∧ d.get b .PAT_STR_CTRL_CTX = v.toNat % 1024 ∧ d.strP q = 0 ∧
        d.strF q = 0 ∧ d.strK q = 0 ∧ d.strState q ∈ [1, 3, 5] ∧ ((s.d.cx (v.toNat % 1024)).hdr = none → d.strState q = 5 ∧ d.get b .PAT_STR_STAT_ERR = 2 ∧
          d.bitN patB .PG_IRQ_STAT_BITS 18 = true))) ∧
      (s.d.bit b .PAT_STR_CTRL_EN = true → Runs (.streamEnable p q v) s (fun d => d.word (b + 0x100) = s.d.word (b + 0x100) ∧ d.strState q = s.d.strState q)) ∧
      (s.d.bit b .PAT_STR_CTRL_EN = true → Runs (.streamDisable p q v) s (fun d => d.bit b .PAT_STR_CTRL_EN = false ∧ d.strState q = 0 ∧ d.strm q = none)) ∧
      (s.d.bit b .PAT_STR_CTRL_EN = false → Runs (.streamDisable p q v) s (fun d => d.bit b .PAT_STR_CTRL_EN = false ∧ d.get b .PAT_STR_CTRL_CTX = v.toNat % 1024 ∧
        d.strState q = s.d.strState q))) ∧
    (∀ (p : HPort) (v : Word), s.d.reaches p (b + 0x114) = true → Runs (.streamProdWrite p q v) s (fun d => d.get b .PAT_STR_PROD_PROD = v.toNat ∧
      d.get b .PAT_STR_CONS_CONS = s.d.get b .PAT_STR_CONS_CONS ∧ (s.d.strState q ∉ [1, 2, 3] → d.strState q = s.d.strState q))) ∧
    (∀ (desc : BitVec 128) (bs : List Byte), s.d.strState q ∈ [1, 2, 3] → s.d.dmaUp = true →
      (s.d.strm q = none → s.d.get b .PAT_STR_PROD_PROD ≠ s.d.get b .PAT_STR_CONS_CONS → Runs (.geyser q desc bs true) s (fun d => d.strState q = 5 ∧
        d.get b .PAT_STR_STAT_ERR = 4 ∧ d.strm q = none ∧ d.bitN patB .PG_IRQ_STAT_BITS 18 = true ∧ ∃ l, d.out = l ++ .hostRd (s.d.get b .PAT_STR_RING_BASE_BASE * 16 +
          16 * (s.d.get b .PAT_STR_CONS_CONS % 2 ^ s.d.strLog q)) 16 :: s.d.out)) ∧
      (∀ t h, s.d.strm q = some t → t.left ≠ 0 → (s.d.cx (s.d.get b .PAT_STR_CTRL_CTX)).hdr = some h → s.d.strP q < s.d.strF q + s.d.get b .PAT_STR_SLOTS_N →
        Runs (.geyser q desc bs true) s (fun d => d.strState q = 5 ∧ d.get b .PAT_STR_STAT_ERR = 4 ∧ d.strm q = none ∧ d.bitN patB .PG_IRQ_STAT_BITS 18 = true)) ∧
      (s.d.strLog q = if 4 ≤ s.d.get b .PAT_STR_RING_SIZE_LOG2 ∧ s.d.get b .PAT_STR_RING_SIZE_LOG2 ≤ 16 then s.d.get b .PAT_STR_RING_SIZE_LOG2 else 16) ∧
      (s.d.strm q = none → s.d.get b .PAT_STR_PROD_PROD ≠ s.d.get b .PAT_STR_CONS_CONS → readDesc desc.toNat = none →
        Runs (.geyser q desc bs false) s (fun d => d.strState q = 5 ∧ d.get b .PAT_STR_STAT_ERR = 3)) ∧
      (∀ err, s.d.strm q = none → s.d.get b .PAT_STR_PROD_PROD = s.d.get b .PAT_STR_CONS_CONS → Runs (.geyser q desc bs err) s (fun d => d = s.d))) ∧
    (∀ (desc : BitVec 128) (bs : List Byte) (t : SDesc) (h : Hdr), s.d.dmaUp = true → (s.d.cx (s.d.get b .PAT_STR_CTRL_CTX)).hdr = some h → t.left ≠ 0 →
      s.d.strP q < s.d.strF q + s.d.get b .PAT_STR_SLOTS_N → s.d.strP q + 1 < 2 ^ 64 →
      let lo := s.d.seqAddr h q (s.d.strP q)
      let moves := fun (u : State) => u.pending = s.pending ∧ u.d.strP q = s.d.strP q + 1 ∧ (∃ l, u.d.out = .hostRd t.addr h.granBytes :: l) ∧
        u.d.strm q = some { t with addr := t.addr + h.granBytes, left := t.left - 1 } ∧
        ∀ a, storeByte u.store a = (if lo ≤ a ∧ a < lo + h.granBytes ∧ a < storeBytes then (bs.getD (a - lo) 0).toNat else storeByte s.store a)
      (s.d.strState q ∈ [1, 2, 3] → s.d.strm q = some t → ∃ u, exec (.geyser q desc bs false) s = .next u ∧ moves u) ∧
      (s.d.strState q ∈ [1, 2, 3] → s.d.strm q = none → s.d.get b .PAT_STR_PROD_PROD ≠ s.d.get b .PAT_STR_CONS_CONS → readDesc desc.toNat = some t →
        ∃ u, exec (.geyser q desc bs false) s = .next u ∧ moves u) ∧
      (s.d.strState q = 2 → s.d.strm q = some t → ∃ u, exec (.streamResume q bs) s = .next u ∧ moves u)) ∧
    (∀ t, s.d.strm q = some t → t.left = 0 → Runs (.geyserDone q) s (fun d => d.strm q = none ∧ d.get b .PAT_STR_CONS_CONS = (s.d.get b .PAT_STR_CONS_CONS + 1) % 2 ^ 32 ∧
      d.get b .PAT_STR_STAT_TAG = t.tag % 2 ^ 16 ∧ (t.irq = true → d.bitN patB .PG_IRQ_STAT_BITS q = true)))

/-- Load strobes (R187 to R189): an enabled source counts and stamps one strobe of its cluster, a cluster that sleeps or runs a self-test slice holds it,
a disabled source fires nothing. No LOAD_STROBE commit waits. A trigger input acts on the first MTB tick at least 24 ns after its edge. -/
def Obligations.LoadStrobes : Prop :=
  ∀ (s : State) (n : Fin 32), (∀ t : Fin 8, s.d.txnWaits t 1 = false) → s.d.present n = true →
    let b := wfgBase n
    let due := fun (cs : List Nat) => (s.d.stbDue n s.d.time).filter (fun c => !cs.contains c)
    let acts := fun (src : Nat) (cs : List Nat) (d : Dev) => d.get b .WFG_STB_CNT_COUNT = Nat.min (s.d.get b .WFG_STB_CNT_COUNT + 1) (2 ^ 32 - 1) ∧
      d.get b .WFG_STB_SRC_SRC = (if due cs = [] then src else Nat.lor src 1) % 2 ^ 5 ∧ d.get b .WFG_STB_TIME_TIME = s.d.time % 2 ^ 64
    let own := fun (src : Fin 5) (c : Option (Fin 1024)) => if src = 0 then (c.map (fun c => c.val)).toList else []
    let on := fun (i : Nat) => bitOf (s.d.word (b + 0xF00)) i
    (∀ (src : Fin 5) (c : Option (Fin 1024)), on src = true → s.d.stbHolds n = false → s.d.stbJoin n (2 ^ src.val) (own src c) = none →
      Runs (.loadStrobe n src c) s (acts (2 ^ src.val) (own src c))) ∧
    (∀ (src : Fin 5) (c : Option (Fin 1024)) y, on src = true → s.d.stbHolds n = false → s.d.stbJoin n (2 ^ src.val) (own src c) = some y →
      Runs (.loadStrobe n src c) s (fun d => d.get b .WFG_STB_CNT_COUNT = s.d.get b .WFG_STB_CNT_COUNT ∧ d.get b .WFG_STB_SRC_SRC = Nat.lor y.src (2 ^ src.val) % 2 ^ 5 ∧
        d.get b .WFG_STB_TIME_TIME = s.d.get b .WFG_STB_TIME_TIME ∧ d.pins = s.d.pins ∧ d.pmus = s.d.pmus ∧ d.bufs = s.d.bufs)) ∧
    (∀ (src : Fin 5) (c : Option (Fin 1024)), on src = true → s.d.stbHolds n = true →
      (∀ k ∈ [2 * n.val, 2 * n + 1], s.d.dpsLeader k ≠ some k) → Runs (.loadStrobe n src c) s (fun d => d.regs = s.d.regs ∧ d.pins = s.d.pins ∧
      ∃ h, (d.clu n).held = some h ∧ h.t = s.d.time ∧ bitOf h.src src = true ∧ (s.d.clu n).held.all (fun o => o.ctxs.all h.ctxs.contains) = true)) ∧
    (∀ (src : Fin 5) (c : Option (Fin 1024)), on src = false → Runs (.loadStrobe n src c) s (fun d => d = s.d)) ∧
    (∀ p : HPort, s.d.reaches p (b + 0xF04) = true → on 1 = true → s.d.stbHolds n = false → s.d.stbJoin n 2 [] = none →
      Runs (.wfgStbFire p n) s (acts 2 [])) ∧
    (∀ h, (s.d.dp (2 * n)).held = none → (s.d.dp (2 * n + 1)).held = none → (s.d.clu n).held = some h → s.d.stbHolds n = false → Runs (.heldStrobeRelease n) s (fun d => acts h.src h.ctxs d ∧ (d.clu n).held = none)) ∧
    (∀ i : Fin 2, s.d.clkState = 2 → Runs (.trigInEdge i) s (fun d => d.time = tickUp (s.d.time + 39322) ∧
      ∀ c ∈ s.d.allCtx, s.d.ctxActive c = true → bitOf (d.cx c).trig i = true))

/-- Patches (R149, R150, R156): the lock and its grant; a patch word changes only from a commit that finds the lock held, and any other write through the
broadcast aperture is rejected. -/
def Obligations.Patches : Prop :=
  ∀ (s : State) (n : Fin 32),
    let b := ucsBase n
    (∀ p : HPort, s.d.reaches p (b + 0x40) = true →
      (s.d.bit b .UCS_PATCH_CTRL_LOCK = false → s.d.lcsState ≠ 4 → Runs (.patchLockReq p n) s (fun d => d.bit b .UCS_PATCH_CTRL_LOCK = true ∧ d.bit b .UCS_PATCH_STAT_LOCK_PEND = true ∧
        d.bit b .UCS_PATCH_CTRL_BCAST_EN = s.d.bit b .UCS_PATCH_CTRL_BCAST_EN)) ∧
      (s.d.bit b .UCS_PATCH_CTRL_LOCK = false → s.d.lcsState = 4 → s.d.clkState ≠ 3 → Runs (.patchLockReq p n) s (fun d => d.bit b .UCS_PATCH_CTRL_LOCK = false ∧
        d.bit b .UCS_PATCH_STAT_LOCK_PEND = s.d.bit b .UCS_PATCH_STAT_LOCK_PEND ∧ (s.d.bit hifB .HIF_ERR_FIRST_VALID = false → d.get hifB .HIF_ERR_FIRST_CAUSE = 6))) ∧
      (s.d.bit b .UCS_PATCH_CTRL_LOCK = true → Runs (.patchLockRelease p n) s (fun d => d.bit b .UCS_PATCH_CTRL_LOCK = false ∧ d.bit b .UCS_PATCH_STAT_LOCK_PEND = false ∧
        d.bit b .UCS_PATCH_STAT_LOCKED = false ∧ d.bit b .UCS_PATCH_CTRL_BCAST_EN = s.d.bit b .UCS_PATCH_CTRL_BCAST_EN))) ∧
    (s.d.bit b .UCS_PATCH_STAT_LOCK_PEND = true → (∀ i : Fin 32, s.d.ctxOwning (32 * n.val + i.val) = false) → s.d.running n = none → s.d.lcsState ≠ 4 →
      Runs (.patchLockGrant n) s (fun d => d = (s.d.setb b .UCS_PATCH_STAT_LOCK_PEND false).setb b .UCS_PATCH_STAT_LOCKED true)) ∧
    (∀ i : Fin 32, s.d.bit b .UCS_PATCH_STAT_LOCK_PEND = true → s.d.ctxOwning (32 * n.val + i.val) = true → Runs (.patchLockGrant n) s (fun d => d = s.d)) ∧
    (∀ (p : HPort) (a : BitVec 17) (v : Word), a.toNat % 4 = 0 → a.toNat < 0x1080 →
      (s.d.reaches p (0x60000 + a.toNat) = true → Runs (.ucsBcastWrite p a v) s (fun d => d.engs = s.d.engs ∧
        (s.d.present n = true → s.d.bit b .UCS_PATCH_CTRL_BCAST_EN = true → d.bit b .UCS_PATCH_STAT_REJECTED = true))) ∧
      (∀ k, s.d.pcieOk = true → s.d.capSlot = some k → (s.d.slot k).writes.length < 4096 → Runs (.ucsBcastWrite .pcie a v) s (fun d =>
        (d.slot k).writes = (s.d.slot k).writes ++ [(0x60000 + a.toNat, 2 ^ 32 - 1, v.toNat)] ∧ d.engs = s.d.engs)) ∧
      (∀ k : Fin 8, s.d.txnState k = 2 → (s.d.slot k).point = 0 → (s.d.slot k).writes = [(0x60000 + a.toNat, 2 ^ 32 - 1, v.toNat)] → s.d.txnBlocked k = false → a.toNat < 0x1000 →
        s.d.present n = true → s.d.bit b .UCS_PATCH_CTRL_BCAST_EN = true → s.d.bit b .UCS_PATCH_STAT_LOCKED = true →
        Runs (.txnPrepareDone k) s (fun d => Tab.get (fun _ => 0) (d.eng n).pram (a.toNat / 4) = v.toNat % 2 ^ 20 ∧ (d.eng n).run = (s.d.eng n).run)))

/-- The raster engine: enable and disable, modes, flips, frames, pops (R322, R325, R326, R329 to R336). The frames of the raster engine (R326, R329 to R331, R333 to R336): a frame starts and flips act, a line is driven, a frame ends. -/
def Obligations.RasterEngine : Prop :=
  (∀ (s : State) (p : HPort),
    let r := s.d.ras
    let st := s.d.get rasB .PG_STAT_STATE
    (∀ v, s.d.reaches p (rasB + 0x40) = true → s.d.bit rasB .RAS_CTRL_EN = false → st = 0 →
      let shadow := s.d.put rasB .RAS_CTRL_GROUP (v.toNat % 4)
      (shadow.rasCheck = none → Runs (.rasEnable p v) s (fun d => d.bit rasB .RAS_CTRL_EN = true ∧ d.get rasB .RAS_CTRL_GROUP = v.toNat % 4 ∧
        d.get rasB .PG_STAT_STATE = 1 ∧ d.ras.group = v.toNat % 4 ∧ d.ras.inFrame = false ∧ (∀ i, i < 8 → d.word (rasB + 0xC0 + 4 * i) = s.d.word (rasB + 0x80 + 4 * i)))) ∧
      (∀ c, shadow.rasCheck = some c → Runs (.rasEnable p v) s (fun d => d.bit rasB .RAS_CTRL_EN = false ∧ d.get rasB .PG_STAT_STATE = 0 ∧
        d.get rasB .RAS_STAT_CAUSE = c ∧ d.bitN rasB .PG_IRQ_STAT_BITS 6 = true ∧ d.ras = r))) ∧
    (∀ v, s.d.reaches p (rasB + 0x40) = true → s.d.bit rasB .RAS_CTRL_EN = true →
      (r.inFrame = true → Runs (.rasDisable p v) s (fun d => d.bit rasB .RAS_CTRL_EN = false ∧ d.get rasB .PG_STAT_STATE = st ∧ d.ras = { r with closing := true })) ∧
      (r.inFrame = false → Runs (.rasDisable p v) s (fun d => d.bit rasB .RAS_CTRL_EN = false ∧ d.get rasB .PG_STAT_STATE = 0 ∧ d.ras.front = [[], []] ∧
        d.ras.pend = [none, none] ∧ d.ras.lanes = []))) ∧
    (s.d.reaches p (rasB + 0x58) = true →
      (st ≠ 0 → st ≠ 4 → s.d.rasCheck = none → Runs (.rasModeApply p) s (fun d => d.ras = { r with applyT := r.applyT ++ [s.d.time] } ∧ d.regs = s.d.regs)) ∧
      (∀ c, st ≠ 0 → st ≠ 4 → s.d.rasCheck = some c → Runs (.rasModeApply p) s (fun d => d.ras = r ∧ d.get rasB .RAS_STAT_CAUSE = c ∧
        d.bitN rasB .PG_IRQ_STAT_BITS 6 = true)) ∧
      (st = 0 ∨ st = 4 → Runs (.rasModeApply p) s (fun d => d.ras = r ∧ d.regs = s.d.regs))) ∧
    (∀ v, s.d.reaches p (rasB + 0x5C) = true → r.pend.length = 2 → r.flipT.length = 2 →
      ((∀ i, i < 2 → bitOf v.toNat i = true → layerOk (s.d.layerRegs i) = true) → Runs (.rasFlip p v) s (fun d => ∀ i, i < 2 → bitOf v.toNat i = true →
        d.ras.pend.getD i none = some (s.d.layerRegs i) ∧ d.ras.flipT.getD i 0 = s.d.time ∧ d.bit (rasB + 0x80 * i) .RAS_L_FRONT_PENDING = true)) ∧
      (∀ i, i < 2 → bitOf v.toNat i = true → layerOk (s.d.layerRegs i) = false → Runs (.rasFlip p v) s (fun d => d.ras = r ∧ d.get rasB .RAS_STAT_CAUSE = 6 ∧
        d.bitN rasB .PG_IRQ_STAT_BITS 6 = true))) ∧
    (∀ wide, s.d.reaches p (rasB + 0x60) = true →
      (∀ e es, r.frames = e :: es → Runs (.rasFramePop p wide) s (fun d => d.ras = { r with frames := es, popF := e % 2 ^ 32 } ∧
        d.out = .read p (if p = .pcie ∧ wide = true then e else e % 2 ^ 32) :: s.d.out)) ∧
      (r.frames = [] → Runs (.rasFramePop p wide) s (fun d => d.ras = r ∧ d.out = .read p (if p = .pcie ∧ wide = true then r.popF else r.popF % 2 ^ 32) :: s.d.out))) ∧
    (∀ wide, s.d.reaches p (rasB + 0x68) = true →
      (∀ e es, r.rels = e :: es → Runs (.rasRelPop p wide) s (fun d => d.ras = { r with rels := es, popR := e % 2 ^ 32 } ∧
        d.out = .read p (if p = .pcie ∧ wide = true then e else e % 2 ^ 32) :: s.d.out)) ∧
      (r.rels = [] → Runs (.rasRelPop p wide) s (fun d => d.ras = r ∧ d.out = .read p (if p = .pcie ∧ wide = true then r.popR else r.popR % 2 ^ 32) :: s.d.out)))) ∧
  (∀ (s : State),
    let r := s.d.ras
    let st := s.d.get rasB .PG_STAT_STATE
    (s.d.bit rasB .RAS_CTRL_EN = true → (st = 1 ∨ st = 2) → r.inFrame = false → r.relock = false → r.applyT = [] →
      (s.d.bit rasB .RAS_A_T_CLK_SRC = true → s.d.bit (vpBase (2 * r.group)) .CLK_VP_STAT_LOCKED = true) →
      Runs .frameStart s (fun d => d.ras.inFrame = true ∧ d.ras.started = true ∧ d.ras.line = 0 ∧ d.ras.t0 = s.d.time ∧ d.get rasB .PG_STAT_STATE = 2 ∧
        d.get rasB .RAS_FRAME_CNT_COUNT = (if r.started then (s.d.get rasB .RAS_FRAME_CNT_COUNT + 1) % 2 ^ 32 else 0) ∧ d.bitN rasB .PG_IRQ_STAT_BITS 0 = true) ∧
      (∀ l, r.pend = [some l, none] → s.d.ras64 (r.flipT.getD 0 0) = true → r.front.length = 2 → Runs .frameStart s (fun d => d.ras.front.getD 0 [] = l ∧
        d.ras.pend = [none, none] ∧ d.ras.flags = 2 ∧ d.bit rasB .RAS_L_FRONT_PENDING = false ∧ d.get rasB .RAS_L_FRONT_TAG = l.getD 3 0 / 2 ^ 16 % 2 ^ 16 ∧
        d.get rasB .RAS_FLIP_TIME_TIME = (s.d.time + lTip) % 2 ^ 64)) ∧
      (∀ l, r.pend = [some l, none] → s.d.ras64 (r.flipT.getD 0 0) = false → Runs .frameStart s (fun d => d.ras.front = r.front ∧ d.ras.pend = r.pend))) ∧
    (s.d.bit rasB .RAS_CTRL_EN = false ∨ st = 0 ∨ st = 4 ∨ r.inFrame = true ∨ r.relock = true → Runs .frameStart s (fun d => d = s.d)) ∧
    (r.relock = true → st ≠ 0 → Runs .rasPllLock s (fun d => d.ras.relock = false ∧ d.get (muxBase 2) .CLK_SW_STAT_CUR = s.d.get (muxBase 2) .CLK_SW_STAT_REQ ∧
      d.get (muxBase 2) .CLK_SW_STAT_STATE = 0 ∧ (s.d.bit rasB .RAS_A_T_CLK_SRC = false → d.bitN clkB .CLK_PLL_LOCK_PLL 6 = true) ∧
      (st = 3 → d.ras.inFrame = true ∧ d.ras.flags = 8) ∧ (st ≠ 3 → d.ras.inFrame = r.inFrame))) ∧
    (r.relock = false → Runs .rasPllLock s (fun d => d = s.d)) ∧
    (∀ lo hi, r.inFrame = true → bitOf r.flags 3 = false → r.line < s.d.get rasB .RAS_A_T_VACT_ACTIVE → s.d.armed 0x0D 0 0 = false → s.d.armed 0x0B 0 0 = false →
      let late := lo.toNat < hi.toNat ∧ lo.toNat < s.d.get rasB .RAS_A_T_HACT_ACTIVE
      Runs (.rasLineFetch lo hi .clean) s (fun d => d.ras.line = r.line + 1 ∧ (¬ late → d.ras.flags = r.flags) ∧
        (late → d.ras.flags = Nat.lor r.flags 4 ∧ d.bitN rasB .PG_IRQ_STAT_BITS 5 = true))) ∧
    (∀ lo hi ecc, r.inFrame = false ∨ bitOf r.flags 3 = true ∨ s.d.get rasB .RAS_A_T_VACT_ACTIVE ≤ r.line → Runs (.rasLineFetch lo hi ecc) s (fun d => d = s.d)) ∧
    (r.inFrame = true → (bitOf r.flags 3 = true ∨ s.d.get rasB .RAS_A_T_VACT_ACTIVE ≤ r.line) → r.rects = [] →
      let e := 2 ^ 63 + r.flags * 2 ^ 59 + s.d.get rasB .RAS_FRAME_CNT_COUNT
      (r.closing = false → Runs .frameEnd s (fun d => d.ras.inFrame = false ∧ d.get rasB .PG_STAT_STATE = st ∧ d.bitN rasB .PG_IRQ_STAT_BITS 3 = true ∧
        (r.frames.length < 16 → d.ras.frames = r.frames ++ [e] ∧ d.get rasB .RAS_LOST_CNT_COUNT = s.d.get rasB .RAS_LOST_CNT_COUNT) ∧
        (16 ≤ r.frames.length → d.ras.frames = r.frames ∧ d.get rasB .RAS_LOST_CNT_COUNT = Nat.min (s.d.get rasB .RAS_LOST_CNT_COUNT + 1) (2 ^ 32 - 1)))) ∧
      (r.closing = true → Runs .frameEnd s (fun d => d.ras.inFrame = false ∧ d.get rasB .PG_STAT_STATE = 0 ∧ d.ras.lanes = [] ∧ d.ras.front = [[], []]))) ∧
    (r.inFrame = true → bitOf r.flags 3 = false → r.line < s.d.get rasB .RAS_A_T_VACT_ACTIVE → Runs .frameEnd s (fun d => d = s.d)))

/-- Ports and alignment of the sync link (R339, R340, R344 to R346, R348 to R351, R363). -/
def Obligations.LinkPorts : Prop :=
  ∀ (s : State) (q : Fin 4),
    let b := portB q
    let x := s.d.lport q
    let st := s.d.portState q
    let trainMsg : Nat := ({ kind := 12, seq := 0, num := 0, time := 0, arg := (if q = 0 then 0 else 256) + (if s.d.get mslB .MSL_CTRL_ROLE = 1 then 512 else 0) } : Msg).word
    (∀ p v, s.d.reaches p (mslB + 0x40) = true → s.d.bit mslB .MSL_CTRL_EN = false → Runs (.mslEnable p v) s (fun d => d.bit mslB .MSL_CTRL_EN = true ∧
      d.get mslB .MSL_CTRL_ROLE = v.toNat % 4 ∧ (v.toNat % 4 = 1 → s.d.portState 0 = 0 → d.bit mslB .MSL_STAT_IS_ROOT = true ∧ d.get mslB .PG_STAT_STATE = 4) ∧
      (v.toNat % 4 = 2 → d.bit mslB .MSL_STAT_IS_ROOT = false ∧ d.get mslB .PG_STAT_STATE = 3) ∧
      (v.toNat % 4 ≠ 1 → v.toNat % 4 ≠ 2 → d.bit mslB .MSL_STAT_IS_ROOT = s.d.bit mslB .MSL_STAT_IS_ROOT ∧ d.get mslB .PG_STAT_STATE = 1))) ∧
    (s.d.bit mslB .MSL_CTRL_EN = true → s.d.bit mslB .MSL_STAT_IS_ROOT = false → s.d.get mslB .MSL_CTRL_ROLE ≠ 1 → s.d.get mslB .MSL_CTRL_ROLE ≠ 2 →
      (s.d.lnk.up0 = false → Runs .autoRootTimeout s (fun d => d.bit mslB .MSL_STAT_IS_ROOT = true ∧ d.get mslB .PG_STAT_STATE = 4)) ∧
      (s.d.lnk.up0 = true → Runs .autoRootTimeout s (fun d => d = s.d))) ∧
    (s.d.bit mslB .MSL_CTRL_EN = true → s.d.bit b .MSL_PORT_CTRL_EN = true → st = 0 → Runs (.portSignal q) s (fun d => d.portState q = 1 ∧ d.out = .link q trainMsg :: s.d.out)) ∧
    (st ≠ 0 → Runs (.portSignal q) s (fun d => d = s.d)) ∧
    (st = 1 → Runs (.trainTimeout q) s (fun d => d.portState q = 0 ∧ d.lnk = s.d.lnk)) ∧
    (st ≠ 1 → Runs (.trainTimeout q) s (fun d => d = s.d)) ∧
    (∀ w, (st = 2 ∨ st = 3) → s.d.get b .MSL_PORT_STAT_CONSEC < 15 → Runs (.syncLoss q w) s (fun d => d.portState q = 4 ∧
      d.get b .MSL_PORT_STAT_CONSEC = s.d.get b .MSL_PORT_STAT_CONSEC + 1 ∧
      d.get b .MSL_PORT_VIOL_CNT_COUNT = Nat.min (s.d.get b .MSL_PORT_VIOL_CNT_COUNT + 1) (2 ^ 32 - 1) ∧ d.bitN mslB .PG_IRQ_STAT_BITS 5 = true ∧
      (s.d.bit b .MSL_PORT_VIOL_FIRST_VALID = false → d.get b .MSL_PORT_VIOL_FIRST_CAUSE = 5))) ∧
    (∀ w, (st = 2 ∨ st = 3) → 15 ≤ s.d.get b .MSL_PORT_STAT_CONSEC → Runs (.syncLoss q w) s (fun d => d.portState q = 5 ∧ d.bitN mslB .PG_FLT_STAT_BITS q = true ∧
      d.bitN mslB .PG_IRQ_STAT_BITS 6 = true)) ∧
    (∀ w, st = 0 ∨ st = 4 ∨ st = 5 → Runs (.syncLoss q w) s (fun d => d = s.d)) ∧
    (∀ moved : Bool, st = 4 → Runs (.retrainDone q moved) s (fun d => d.portState q = (if x.cald = false ∨ (moved = true ∧ q ≠ 0) then 2 else 3) ∧
      (d.portState q = 3 → d.bit b .MSL_PORT_CTRL_RETRAIN = false) ∧
      ∃ l, d.out = l ++ (x.unack.map (fun m => Out.link q m.word)).reverse ++ s.d.out ∧ (q ≠ 0 → l = [] ∧ (d.lport q).unack = x.unack))) ∧
    (∀ moved, st ≠ 4 → Runs (.retrainDone q moved) s (fun d => d = s.d)) ∧
    (∀ p, s.d.reaches p (mslPort q) = true →
      (st = 5 → Runs (.unfence p q) s (fun d => d.portState q = 1 ∧ d.get b .MSL_PORT_STAT_CONSEC = 0 ∧ d.out = .link q trainMsg :: s.d.out)) ∧
      (st = 3 → Runs (.portRetrain p q) s (fun d => d.portState q = 4 ∧ d.bit b .MSL_PORT_CTRL_RETRAIN = true ∧
        d.get b .MSL_PORT_RETRAIN_CNT_COUNT = Nat.min (s.d.get b .MSL_PORT_RETRAIN_CNT_COUNT + 1) (2 ^ 32 - 1)))) ∧
    (st ≠ 0 → st ≠ 5 → Runs (.portDown q) s (fun d => d.portState q = 0 ∧ d.lport q = {} ∧ d.get b .MSL_PORT_SUBTREE_DEVICES = 0 ∧
      (q = 0 → st = 3 → s.d.isRoot = false → d.get mslB .PG_STAT_STATE = 3 ∧ (s.d.get mslB .PG_STAT_STATE = 2 → d.bitN mslB .PG_FLT_STAT_BITS 4 = true)))) ∧
    (st = 0 ∨ st = 5 → Runs (.portDown q) s (fun d => d = s.d)) ∧
    (s.d.bit mslB .MSL_CTRL_EN = true → s.d.bit mslB .MSL_STAT_IS_ROOT = false → s.d.portState 0 = 3 → Runs .calPeriod s (fun d => (d.lport 0).t1 = some s.d.time ∧
      (d.lport 0).xN = 0 ∧ (d.lport 0).xD = 0 ∧ d.out = .link 0 ({ kind := 3, seq := (s.d.lport 0).txSeq, num := 0, time := 0, arg := 0 } : Msg).word :: s.d.out)) ∧
    (s.d.portState 0 ≠ 3 → Runs .calPeriod s (fun d => d = s.d)) ∧
    (∀ ppb : BitVec 32, (s.d.lport 0).xN = 16 → (s.d.lport 0).xD % 32 = 0 → (s.d.lport 0).xE % 16 = 0 → ppb.toInt.natAbs ≤ 100 → s.d.portState 0 = 3 →
      let asym := s.d.sget (portB 0) .MSL_PORT_ASYM_ASYM
      let e := (2 * (s.d.lport 0).xE + (s.d.lport 0).xD) / 32 + asym
      Runs (.delayCalDone ppb) s (fun d => d.get (portB 0) .MSL_PORT_DELAY_D = (((s.d.lport 0).xD / 32 + asym) % 2 ^ 32).toNat ∧
        d.get mslB .MSL_ALIGN_ERR_ERR = (e % 2 ^ 32).toNat ∧ d.get mslB .MSL_FREQ_OFS_PPB = ppb.toNat ∧ (d.lport 0).xN = 0 ∧ d.lnk.slew = e ∧ d.time = s.d.time ∧
        d.get mslB .PG_STAT_STATE = (if e.natAbs ≤ 2 then 2 else 1))) ∧
    (∀ ppb, (s.d.lport 0).xN ≠ 16 → Runs (.delayCalDone ppb) s (fun d => d = s.d)) ∧
    Runs .timeSlew s (fun d => d.regs = s.d.regs ∧ d.time = (if 0 < s.d.lnk.slew then s.d.time + 1025 else if s.d.lnk.slew < 0 then s.d.time + 1023 else s.d.time) ∧
      d.lnk.slew = (if 0 < s.d.lnk.slew then s.d.lnk.slew - 1 else if s.d.lnk.slew < 0 then s.d.lnk.slew + 1 else 0))

/-- The messages of the sync link at a port that is UP (R340 to R343, R345, R346, R349, R353 to R359): each is acknowledged and acts. -/
def Obligations.LinkMessages : Prop :=
  ∀ (s : State) (q : Fin 4) (w : BitVec 128),
    let b := portB q
    let x := s.d.lport q
    let m := readMsg w.toNat
    let good := fun (kind : Nat) => msgCrc w.toNat = w.toNat % 2 ^ 16 ∧ m.kind = kind ∧ (kindSeq kind = true → m.seq = x.rxSeq) ∧ s.d.portState q = 3
    let acked := fun (d : Dev) => (d.lport q).rxSeq = (m.seq + 1) % 256 ∧ d.get b .MSL_PORT_STAT_CONSEC = 0 ∧
      ∃ l, d.out = l ++ .link q ({ kind := 1, seq := 0, num := 0, time := 0, arg := m.seq } : Msg).word :: s.d.out
    (good 0 → Runs (.idle q w) s (fun d => d.get b .MSL_PORT_STAT_CONSEC = 0 ∧ d.lnk = s.d.lnk ∧ d.out = s.d.out ∧ d.portState q = 3)) ∧
    (∀ y ys, good 1 → x.unack = y :: ys → y.seq = m.arg % 256 → Runs (.ack q w) s (fun d => (d.lport q).unack = ys ∧ d.portState q = 3 ∧ d.out = s.d.out)) ∧
    (good 2 → Runs (.nak q w) s (fun d => d.portState q = 4 ∧ d.out = s.d.out ∧
      d.get b .MSL_PORT_RETRAIN_CNT_COUNT = Nat.min (s.d.get b .MSL_PORT_RETRAIN_CNT_COUNT + 1) (2 ^ 32 - 1))) ∧
    (∀ turn, good 3 → q ≠ 0 → Runs (.delayReq q w turn) s (fun d => acked d ∧ (d.lport q).xN = x.xN + 1 ∧
      (∃ l, d.out = .link q ({ kind := 4, seq := x.txSeq, num := 0, time := s.d.time, arg := turn.toNat } : Msg).word :: l))) ∧
    (∀ t1, good 4 → q = 0 → x.t1 = some t1 → x.single = false → Runs (.delayRsp q w) s (fun d => acked d ∧ (d.lport q).xN = x.xN + 1 ∧
      (d.lport q).xD = x.xD + ((s.d.time : Int) - t1 - m.arg) ∧ (d.lport q).t1 = (if x.xN + 1 < 16 then some s.d.time else none))) ∧
    (good 5 → q = 0 → m.time ≤ s.d.time + 2 ^ 31 → Runs (.tick q w) s (fun d => acked d ∧ d.get mslB .MSL_TICK_NUM_NUM = m.arg ∧ d.get mslB .MSL_LAST_TICK_TIME = m.time ∧
      d.lnk.ticks = s.d.lnk.ticks ++ [s.d.linkEv m.arg m.time (decide (m.time ≤ s.d.time))] ∧ d.bitN mslB .PG_IRQ_STAT_BITS 1 = true)) ∧
    (good 6 → m.time ≤ s.d.time + 2 ^ 31 → s.d.lnk.trigs.any (fun e => e.num == m.num && e.eff == m.time) = false → (m.num, m.time) ∉ s.d.lnk.acted → Runs (.trig q w) s (fun d => acked d ∧
      d.lnk.trigs = s.d.lnk.trigs ++ [s.d.linkEv m.num m.time (decide (m.time < s.d.time))])) ∧
    (good 7 → q = 0 → Runs (.touchdown q w) s (fun d => acked d ∧ d.bit calB .CAL_GAP_OPEN = false ∧ d.bitN mslB .PG_IRQ_STAT_BITS 8 = true)) ∧
    (good 8 → q ≠ 0 → m.num < 8 → Runs (.barArrive q w) s (fun d => acked d ∧ bitOf (d.lport q).bars m.num = true)) ∧
    (good 9 → q = 0 → m.num < 8 → m.time ≤ s.d.time + 2 ^ 31 → Runs (.barRelease q w) s (fun d => acked d ∧
      d.lnk.rels = s.d.lnk.rels ++ [{ eff := m.time, num := m.num, partial_ := bitOf m.arg 16 }])) ∧
    (good 10 → q ≠ 0 → Runs (.enumSize q w) s (fun d => acked d ∧ (d.lport q).sized = true ∧ d.get b .MSL_PORT_SUBTREE_DEVICES = m.arg % 2 ^ 15)) ∧
    (good 11 → q = 0 →
      (m.arg / 2 ^ 16 % 16 ≤ 9 → m.arg / 2 ^ 16 % 16 < 9 ∨ s.d.children = [] → Runs (.enumAssign q w) s (fun d => acked d ∧ d.bit mslB .MSL_STAT_ID_VALID = true ∧ d.get mslB .MSL_STAT_ID = m.arg % 2 ^ 14 ∧
        d.get mslB .MSL_STAT_DEPTH = m.arg / 2 ^ 16 % 16 ∧ d.bitN mslB .PG_IRQ_STAT_BITS 7 = true)) ∧
      (9 < m.arg / 2 ^ 16 % 16 ∨ (m.arg / 2 ^ 16 % 16 = 9 ∧ s.d.children ≠ []) → Runs (.enumAssign q w) s (fun d => acked d ∧ d.bit mslB .MSL_STAT_ID_VALID = false))) ∧
    (msgCrc w.toNat = w.toNat % 2 ^ 16 → m.kind = 12 → s.d.portState q = 1 →
      (q ≠ 0 → bitOf m.arg 8 = false → bitOf m.arg 9 = false → Runs (.train q w) s (fun d => d.portState q = 2 ∧ d.get b .MSL_PORT_STAT_CONSEC = 0 ∧ d.lport q = {})) ∧
      (q = 0 → bitOf m.arg 8 = true → s.d.get mslB .MSL_CTRL_ROLE ≠ 1 → Runs (.train q w) s (fun d => d.portState 0 = 2 ∧
        (s.d.isRoot = false → d.get mslB .PG_STAT_STATE = 1) ∧ (d.lport 0).t1 = some s.d.time)) ∧
      (q ≠ 0 → bitOf m.arg 8 = true → s.d.get b .MSL_PORT_STAT_CONSEC < 15 → Runs (.train q w) s (fun d => d.portState q = 0 ∧
        d.get b .MSL_PORT_VIOL_CNT_COUNT = Nat.min (s.d.get b .MSL_PORT_VIOL_CNT_COUNT + 1) (2 ^ 32 - 1)))) ∧
    (msgCrc w.toNat ≠ w.toNat % 2 ^ 16 → s.d.portState q = 3 → s.d.get b .MSL_PORT_STAT_CONSEC < 15 → Runs (.tick q w) s (fun d => d.portState q = 4 ∧
      d.get b .MSL_PORT_VIOL_CNT_COUNT = Nat.min (s.d.get b .MSL_PORT_VIOL_CNT_COUNT + 1) (2 ^ 32 - 1) ∧ (d.lport q).rxSeq = x.rxSeq ∧
      (s.d.bit b .MSL_PORT_VIOL_FIRST_VALID = false → d.get b .MSL_PORT_VIOL_FIRST_CAUSE = 1) ∧ d.lnk.ticks = s.d.lnk.ticks))

/-- Events of the sync link (R16, R353 to R360): ticks, triggers, touchdown, barriers, enumeration, INDEX, trigger outputs. -/
def Obligations.LinkEvents : Prop :=
  ∀ (s : State),
    let idle := ∀ i, i < 8 → s.d.txnState i ≠ 3
    let lead := fun (f : Fld) => Nat.max 0xC80 (s.d.get mslB f) * 1024
    let up := fun (t : Nat) => (t + 1023) / 1024 * 1024
    (s.d.mslOn = true → s.d.isRoot = true → s.d.allSized = true → (∀ q ∈ [0, 1, 2, 3], s.d.bit (portB q) .MSL_PORT_CTRL_EN = true → s.d.portState q = 3 ∨ s.d.portState q = 5) →
      (s.d.subtree ≤ 16384 → Runs .enumeration s (fun d => d.get mslB .MSL_SUBTREE_DEVICES = s.d.subtree ∧ d.bit mslB .MSL_STAT_ID_VALID = true ∧ d.get mslB .MSL_STAT_ID = 0 ∧
        d.get mslB .MSL_STAT_DEPTH = 0 ∧ d.bit mslB .MSL_STAT_ENUM_FAIL = false ∧ d.lnk.tickN = 0)) ∧
      (16384 < s.d.subtree → Runs .enumeration s (fun d => d.bit mslB .MSL_STAT_ENUM_FAIL = true ∧ d.bit mslB .MSL_STAT_ID_VALID = false ∧ d.out.length ≤ s.d.out.length + 1))) ∧
    (s.d.isRoot = false → Runs .enumeration s (fun d => d = s.d)) ∧
    (∀ p, s.d.reaches p (mslB + 0x60) = true →
      (s.d.isRoot = true → Runs (.mslTickReq p) s (fun d => d.get mslB .MSL_TICK_NUM_NUM = s.d.lnk.tickN % 2 ^ 32 ∧
        d.lnk.ticks = s.d.lnk.ticks ++ [{ eff := up s.d.time + lead .MSL_TICK_LEAD_TICKS, num := s.d.lnk.tickN }] ∧ d.lnk.tickN = (s.d.lnk.tickN + 1) % 2 ^ 32)) ∧
      (s.d.isRoot = false → Runs (.mslTickReq p) s (fun d => d.bit mslB .MSL_EVT_TICK_REQ_REFUSED = true ∧ d.lnk = s.d.lnk))) ∧
    (s.d.clkState = 2 → s.d.isRoot = true → s.d.bit mslB .MSL_INDEX_CFG_TICK = true → s.d.bit mslB .MSL_INDEX_CFG_TD = false → Runs .indexAssert s (fun d =>
      d.lnk.ticks = s.d.lnk.ticks ++ [{ eff := up (s.d.time + 39322) + lead .MSL_TICK_LEAD_TICKS, num := s.d.lnk.tickN }] ∧ d.time = up (s.d.time + 39322))) ∧
    (s.d.clkState ≠ 2 → Runs .indexAssert s (fun d => d = s.d)) ∧
    (∀ e, s.d.lnk.ticks = [e] → e.late = false → (∀ i, i < 8 → s.d.txnState i = 3 → (s.d.slot i).writes = [] ∧ (s.d.slot i).waitT = none) →
      Runs .systickEffect s (fun d => d.lnk.ticks = [] ∧ d.time = e.due s.d.time ∧
        d.get mslB .MSL_TICK_LATE_CNT_COUNT = (if e.eff < e.due s.d.time then Nat.min (s.d.get mslB .MSL_TICK_LATE_CNT_COUNT + 1) (2 ^ 32 - 1) else s.d.get mslB .MSL_TICK_LATE_CNT_COUNT) ∧
        ∀ i, i < 8 → s.d.txnState i = 3 → d.txnState i = (if (s.d.slot i).point = 3 ∧ (s.d.slot i).tick = some e.eff then 4 else 3))) ∧
    (s.d.lnk.ticks = [] → Runs .systickEffect s (fun d => d = s.d)) ∧
    (∀ (p : HPort) (v : Word) k, s.d.reaches p (mslB + 0xA0) = true → k < 16 → v.toNat = 2 ^ k →
      let e : LEv := { eff := up s.d.time + lead .MSL_TRIG_LEAD_TICKS, num := k }
      s.d.lnk.trigs.any (fun f => f.num == e.num && f.eff == e.eff) = false → (k, e.eff) ∉ s.d.lnk.acted → Runs (.mslTrigRaise p v) s (fun d => d.lnk.trigs = s.d.lnk.trigs ++ [e])) ∧
    (∀ (t : Fin 16) e, idle → s.d.lnk.trigs = [e] → e.num = t.val → Runs (.mslTrigEffect t) s (fun d => d.lnk.trigs = [] ∧ d.bitN mslB .MSL_TRIG_SEEN_TRIG t = true)) ∧
    (∀ t : Fin 16, (∀ e ∈ s.d.lnk.trigs, e.num ≠ t.val) → Runs (.mslTrigEffect t) s (fun d => d = s.d)) ∧
    (∀ p, s.d.reaches p (mslB + 0x68) = true → Runs (.mslTdReq p) s (fun d => d.bitN mslB .PG_IRQ_STAT_BITS 8 = true ∧ d.bit calB .CAL_GAP_OPEN = false ∧
      d.lnk.tdN = (if s.d.isRoot then (s.d.lnk.tdN + 1) % 2 ^ 32 else s.d.lnk.tdN))) ∧
    (∀ (p : HPort) (v : Word) k, s.d.reaches p (mslB + 0xC4) = true → k < 8 → v.toNat = 2 ^ k →
      (bitOf s.d.lnk.arrived k = false → Runs (.mslBarArrive p v) s (fun d => bitOf d.lnk.arrived k = true ∧ d.bitN mslB .MSL_BAR_STAT_WAITING k = true)) ∧
      (bitOf s.d.lnk.arrived k = true → Runs (.mslBarArrive p v) s (fun d => d.lnk = s.d.lnk ∧ d.regs = s.d.regs)) ∧
      (bitOf s.d.lnk.arrived k = false → bitOf s.d.lnk.sent k = false → s.d.lnk.rels = [] → s.d.isRoot = true → s.d.children = [] → s.d.bitN mslB .MSL_BAR_CFG_TICK k = false →
        Runs (.mslBarArrive p v) s (fun d => d.lnk.rels = [{ eff := up s.d.time + lead .MSL_TICK_LEAD_TICKS, num := k, partial_ := s.d.barPartial }]))) ∧
    (∀ (k : Fin 8) e, s.d.lnk.rels = [e] → e.num = k.val → Runs (.barrierReleaseEffect k) s (fun d => (∀ f ∈ d.lnk.rels, f.num ≠ k.val) ∧ bitOf d.lnk.arrived k = false ∧
      d.barGen k = (s.d.barGen k + 1) % 2 ^ 16 ∧ d.bitN mslB .MSL_BAR_STAT_WAITING k = false ∧ d.bitN mslB .MSL_BAR_STAT_PARTIAL k = e.partial_ ∧
      d.bitN mslB .PG_IRQ_STAT_BITS 4 = true ∧ d.time = Nat.max s.d.time e.eff)) ∧
    (∀ (i : Fin 2) (t u : Nat), s.d.toutSrc i ≠ 0 →
      (s.d.lnk.pulses = [(i.val, t)] → Runs (.trigOutPulseEnd i) s (fun d => d.lnk.pulses = [] ∧ d.time = Nat.max s.d.time t ∧ d.out = .trig i false t :: s.d.out)) ∧
      (s.d.lnk.pulses = [(i.val, t), (i.val, u)] → Runs (.trigOutPulseEnd i) s (fun d => d.lnk.pulses = [(i.val, u)] ∧ d.out = s.d.out)) ∧
      (s.d.lnk.pulses = [] → Runs (.trigOutPulseEnd i) s (fun d => d = s.d)))

/-- Calibration: gaps, requests, ages, slices, the aperture (R365, R369 to R376, R381, R382). A write through the aperture leaves the reserved bits of a byte 0. -/
def Obligations.Calibration : Prop :=
  ∀ (s : State),
    (∀ p, s.d.reaches p (calB + 0x44) = true →
      (s.d.bit calB .CAL_GAP_OPEN = false → Runs (.calGapOpen p) s (fun d => d.bit calB .CAL_GAP_OPEN = true ∧ d.get calB .PG_STAT_STATE = 1 ∧
        d.bitN calB .PG_IRQ_STAT_BITS 0 = true ∧ d.clus = s.d.clus)) ∧
      (s.d.bit calB .CAL_GAP_OPEN = true → Runs (.calGapOpen p) s (fun d => d.regs = s.d.regs ∧ d.clus = s.d.clus) ∧
        Runs (.calGapClose p) s (fun d => d.bit calB .CAL_GAP_OPEN = false ∧ d.get calB .PG_STAT_STATE = 0 ∧ d.bitN calB .PG_IRQ_STAT_BITS 1 = true ∧
          ∀ n, n < 32 → s.d.present n = true → (s.d.clu n).gap = none → (d.clu n).slice = 0)) ∧
      (s.d.bit calB .CAL_GAP_OPEN = false → Runs (.calGapClose p) s (fun d => d.regs = s.d.regs ∧ d.clus = s.d.clus))) ∧
    (s.d.bit calB .CAL_CFG_INDEX_AUTO = true → s.d.bit calB .CAL_GAP_OPEN = false → Runs .indexRelease s (fun d => d.bit calB .CAL_GAP_OPEN = true ∧
      d.get calB .PG_STAT_STATE = 1 ∧ d.bitN calB .PG_IRQ_STAT_BITS 0 = true)) ∧
    (s.d.bit calB .CAL_CFG_INDEX_AUTO = false ∨ s.d.bit calB .CAL_GAP_OPEN = true → Runs .indexRelease s (fun d => d = s.d)) ∧
    (∀ (n : Fin 32),
      let b := calcBase n
      (∀ p v, s.d.reaches p (b + 0x44) = true → Runs (.calClReq p n v) s (fun d => d.get b .CAL_CL_REQ_KIND = Nat.lor (s.d.get b .CAL_CL_REQ_KIND) (v.toNat / 2 % 128) ∧
        d.bitN calB .CAL_DUE_MAP_CLUSTER n = (s.d.get b .CAL_CL_DUE_DUE != 0 || d.get b .CAL_CL_REQ_KIND != 0) ∧ d.get b .CAL_CL_DUE_DUE = s.d.get b .CAL_CL_DUE_DUE)) ∧
      (∀ (k : Fin 8) age, k ≠ 0 → s.d.present n = true →
        let max := s.d.get calB .CAL_MAX_AGE_SECONDS
        let since := match (s.d.clu n).failAt.find? (fun e => e.1 == k.val) with
          | some e => (s.d.time - e.2) / secFine
          | none => age.toNat
        let due := max ≠ 0 ∧ max ≤ since ∧ s.d.bitN b .CAL_CL_CTRL_AUTO (k.val - 1) = true
        Runs (.calAgeExpiry n k age) s (fun d => d.get (b + 0x10 * k) .CAL_K_AGE_SECONDS = age.toNat ∧
          (due → d.bitN b .CAL_CL_DUE_DUE (k.val - 1) = true ∧ d.bitN calB .CAL_DUE_MAP_CLUSTER n = true) ∧
          (¬ due → d.get b .CAL_CL_DUE_DUE = s.d.get b .CAL_CL_DUE_DUE))) ∧
      (∀ k g, s.d.calPlaces < s.d.calMaxPar → s.d.pow.queue = [] → s.d.pow.prog = [] → s.d.present n = true → (∀ m, m < n.val → s.d.calNext m = none) →
        s.d.calNext n = some (k, g) → s.d.clState n ≤ 1 → Runs .calSliceStart s (fun d => (d.clu n).slice = k ∧ (d.clu n).gap = g ∧
          d.get b .CAL_CL_STAT_RUNNING = k % 16 ∧ d.get b .PG_STAT_STATE = 1 ∧ d.bitN calB .CAL_RUN_MAP_CLUSTER n = true ∧
          d.get calB .CAL_SLICE_CNT_COUNT = Nat.min (s.d.get calB .CAL_SLICE_CNT_COUNT + 1) (2 ^ 32 - 1))) ∧
      (∀ o, (s.d.clu n).slice = 0 → Runs (.calSliceEnd n o) s (fun d => d = s.d)) ∧
      (∀ o, (s.d.clu n).slice ≠ 0 → s.d.calPreparing n = true → Runs (.calSliceEnd n o) s (fun d => (d.clu n).calEnd = some o ∧ d.regs = s.d.regs ∧ d.calS = s.d.calS)) ∧
      (∀ o, 1 ≤ (s.d.clu n).slice → (s.d.clu n).slice ≤ 7 → s.d.calPreparing n = false →
        let k := (s.d.clu n).slice
        Runs (.calSliceEnd n o) s (fun d => (d.clu n).slice = 0 ∧ d.get b .CAL_CL_STAT_RUNNING = 0 ∧ d.get b .CAL_CL_STAT_LAST = k ∧
          d.bitN calB .CAL_RUN_MAP_CLUSTER n = false ∧ d.bitN b .PG_IRQ_STAT_BITS 0 = true ∧ d.bit calB .CAL_REF_STAT_PRESENT = o.vrefx ∧
          (d.get b .CAL_CL_STAT_RESULT = 1 ∨ d.get b .CAL_CL_STAT_RESULT = 2 ∨ d.get b .CAL_CL_STAT_RESULT = 3) ∧
          (o.vrefx = true → 500 < o.dev.toInt.natAbs → d.get b .CAL_CL_STAT_RESULT = 3 ∧ d.get b .CAL_CL_STAT_CAUSE = 4 ∧ d.bit calB .CAL_REF_STAT_MISMATCH = true) ∧
          (o.vrefx = false → o.refBad = false → k ≠ 2 → s.d.calBarUnits n k = 0 → o.skip = 0 → o.entries = [] → d.get b .CAL_CL_STAT_RESULT = 1 ∧
            d.get b .CAL_CL_STAT_CAUSE = 0 ∧ d.get (b + 0x10 * k) .CAL_K_TEMP_CENTI_C = o.temp.toNat ∧ d.get (b + 0x10 * k) .CAL_K_AGE_SECONDS = 0)))) ∧
    (s.d.calMaxPar ≤ s.d.calPlaces → Runs .calSliceStart s (fun d => d = s.d)) ∧
    (∀ (p : HPort) (a : BitVec 24) wide v off, s.d.reaches p a.toNat = true → areaOf a.toNat = .calAp off → a.toNat % 8 = 0 →
      let len := if p = .pcie ∧ wide = true then 8 else 4
      Runs (.calApertureWrite p a wide v) s (fun d => d.calA = s.d.calA ∧ ∀ i, d.calByte d.calS i =
        (if off ≤ i ∧ i < off + len ∧ calDefined (i % calSize) = true then Nat.land (v.toNat / 256 ^ (i - off) % 256) (calBits (i % calSize)) else s.d.calByte s.d.calS i)))

/-- Power states of a cluster (R400 to R402, R408): entry into IDLE, NAP and DORMANT, the way back, the retention save, self-refresh, D3hot. -/
def Obligations.PowerStates : Prop :=
  ∀ (s : State) (n : Fin 32), s.d.present n = true →
    let t := s.d.pwrTarget n
    let st := s.d.clState n
    let alone := (∀ w ∈ s.d.pow.queue, w.cl ≠ n.val) ∧ (∀ w ∈ s.d.pow.prog, w.cl ≠ n.val)
    (st = 0 → t ≠ 0 → s.d.clkState = 2 → (s.d.eng n).run = none → (s.d.eng n).queue = [] → Runs (.idleEntry n) s (fun d => d.clState n = 1 ∧ d.pow = s.d.pow)) ∧
    (st ≠ 0 ∨ t = 0 ∨ (s.d.eng n).run ≠ none → Runs (.idleEntry n) s (fun d => d = s.d)) ∧
    (alone → s.d.armHolds n = false →
      (st = 1 → t = 0 → Runs (.idleDwell n) s (fun d => d.clState n = 0)) ∧
      (st = t → Runs (.idleDwell n) s (fun d => d = s.d)) ∧
      (st = 1 → t = 2 → Runs (.idleDwell n) s (fun d => d.clState n = 2 ∧
        ∀ g ∈ clPins n, s.d.pinLive g = true → (d.pin g).drv = drvOfCode (s.d.get (pinBase g) .PIN_CTRL_NAP_STATE))) ∧
      (st = 1 ∨ st = 2 → t = 3 → s.d.pmusOn n = [] → Runs (.idleDwell n) s (fun d => d.clState n = 3 ∧ (d.clu n).saving = true ∧
        ∀ g ∈ clPins n, s.d.pinLive g = true → (d.pin g).drv = .z ∧ (d.tdc g).fifo = [])) ∧
      (st = 1 ∨ st = 2 → t = 3 → s.d.pmusOn n ≠ [] → Runs (.idleDwell n) s (fun d => d.clState n = st ∧ (d.clu n).saving = (s.d.clu n).saving)) ∧
      (st = 2 → t < 2 → Runs (.idleDwell n) s (fun d => d.clState n = 2 ∧ d.bit (pwrCl n) .PWR_CL_STAT_QUEUED = true ∧
        ∃ w, d.pow.queue = s.d.pow.queue ++ [w] ∧ w.cl = n.val ∧ w.promise = none ∧ w.low = true))) ∧
    (Runs (.retentionSaveDone n) s (fun d => (d.clu n).saving = false ∧ d.regs = s.d.regs)) ∧
    ((∀ k ∈ s.d.clusters, s.d.clState k = 3) → (∀ q, q < 16 → s.d.get (patB + 0x40 * q) .PAT_STR_STAT_STATE ≠ 1 ∧ s.d.get (patB + 0x40 * q) .PAT_STR_STAT_STATE ≠ 2) →
      s.d.get rasB .PG_STAT_STATE = 0 → Runs .hbmSelfRefresh s (fun d => d.pow.selfRef = true ∧ d.regs = s.d.regs)) ∧
    (st ≠ 3 → Runs .hbmSelfRefresh s (fun d => d = s.d)) ∧
    Runs (.d3hot false) s (fun d => d = { s.d with hif := { s.d.hif with d3 := false } }) ∧
    ((∀ k ∈ s.d.clusters, s.d.clState k = 0 ∧ (s.d.pwrTarget k = 0 ∨ (s.d.eng k).queue ≠ [])) → Runs (.d3hot true) s (fun d => d = { s.d with hif := { s.d.hif with d3 := true } })) ∧
    (s.d.clusters = [n.val] → s.d.clkState = 2 → s.d.engBusy n = false → alone → s.d.armHolds n = false → st = 0 → t = 2 →
      Runs (.d3hot true) s (fun d => d.hif.d3 = true ∧ d.clState n = 2))

/-- Wake requests and the governor (R401 to R407, R409): GO, WAKE_N, the tolerance, admission, the end of a wake, HIBERNATE. -/
def Obligations.Wakes : Prop :=
  ∀ (s : State) (p : HPort) (n : Fin 32), s.d.present n = true →
    let st := s.d.clState n
    let alone := (∀ w ∈ s.d.pow.queue, w.cl ≠ n.val) ∧ (∀ w ∈ s.d.pow.prog, w.cl ≠ n.val)
    let ready := fun (w : Wake) => bitOf s.d.thm.safe w.cl = false ∧ (s.d.clu w.cl).saving = false ∧ (s.d.clu w.cl).bst = none
    let limit := Nat.max 1 (s.d.get pwrB .WAKE_MAX_CONCURRENT_COUNT)
    (s.d.reaches p (pwrB + 0x10C + 0x10 * n.val) = true →
      (st = 2 ∨ st = 3 → alone → Runs (.pwrClWake p n) s (fun d => d.clState n = st ∧ d.bit (pwrCl n) .PWR_CL_STAT_QUEUED = true ∧ d.pow.queue = s.d.pow.queue ++
        [{ cl := n, dorm := st == 3, t := s.d.time, promise := some (s.d.time + s.d.get (pwrCl n) .PWR_CL_TOL_NS * 16384 / 10), low := false,
           prio := s.d.get (pwrCl n) .PWR_CL_CFG_PRIO }])) ∧
      (st = 2 ∨ st = 3 → ¬ alone → Runs (.pwrClWake p n) s (fun d => d.pow.queue.map (fun w => (w.cl, w.t)) = s.d.pow.queue.map (fun w => (w.cl, w.t)) ∧
        d.pow.prog.map (fun w => (w.cl, w.t)) = s.d.pow.prog.map (fun w => (w.cl, w.t)) ∧ d.regs = s.d.regs)) ∧
      (st = 1 → (s.d.clu n).pmuBack = [] → Runs (.pwrClWake p n) s (fun d => d.clState n = 0 ∧ d.pow = s.d.pow)) ∧
      (st = 0 → Runs (.pwrClWake p n) s (fun d => d.pow = s.d.pow ∧ d.regs = s.d.regs))) ∧
    (s.d.pow.stop = false → s.d.clkState = 2 → Runs .wakeN s (fun d => d.bitN pwrB .PG_IRQ_STAT_BITS 3 = true ∧
      d.get pwrB .PWR_WAKEN_CNT_COUNT = Nat.min (s.d.get pwrB .PWR_WAKEN_CNT_COUNT + 1) (2 ^ 32 - 1) ∧
      (s.d.bit (pwrCl n) .PWR_CL_CFG_WAKEN_EN = true → st = 2 ∨ st = 3 → ∃ w ∈ d.pow.queue ++ d.pow.prog, w.cl = n.val) ∧
      (s.d.bit (pwrCl n) .PWR_CL_CFG_WAKEN_EN = false → alone → ∀ w ∈ d.pow.queue ++ d.pow.prog, w.cl ≠ n.val))) ∧
    (s.d.pow.stop = true → s.d.lcs.adv = none → s.d.get bstB .PG_STAT_STATE ≠ 2 → Runs .wakeN s (fun d => d.word (glbB + 0x4C) = 32 ∧ d.clkState = 0 ∧ d.pow = {} ∧
      d.bit pwrB .PWR_STAT_HIB_WAKE = true ∧ d.ctxs = [] ∧ ∀ a ∈ aonWords, d.word a = s.d.word a)) ∧
    (∀ w ∈ s.d.pow.queue, ready w → (∀ v ∈ s.d.pow.queue, v = w ∨ ¬ ready v ∨ (w.before v = true ∧ v.before w = false)) → s.d.bit pwrB .PWR_DVFS_STAT_BUSY = false →
      s.d.pow.free ≤ s.d.time → s.d.pow.prog.length < limit → Runs .wakeAdmit s (fun d => d.pow.prog = s.d.pow.prog ++ [w] ∧
        d.pow.queue = s.d.pow.queue.filter (fun v => v.cl ≠ w.cl) ∧ d.pow.free = s.d.time + s.d.wakeSpacing w.dorm ∧ d.pow.selfRef = false)) ∧
    (s.d.bit pwrB .PWR_DVFS_STAT_BUSY = true ∨ s.d.time < s.d.pow.free ∨ limit ≤ s.d.pow.prog.length → Runs .wakeAdmit s (fun d => d = s.d)) ∧
    (∀ w, s.d.pow.prog = [w] → w.cl = n.val → w.aim = 0 → (s.d.clu n).tdWait = false →
      (w.promise = none ∨ (∃ t, w.promise = some t ∧ s.d.time ≤ t) → Runs (.wakeComplete n) s (fun d => d.clState n = 0 ∧
        d.bit (pwrCl n) .PWR_CL_STAT_WAKING = false ∧ d.bitN pwrB .PG_IRQ_STAT_BITS 1 = true ∧
        d.get (pwrB + 4 * n) .PWR_CL_MISS_CNT_COUNT = s.d.get (pwrB + 4 * n) .PWR_CL_MISS_CNT_COUNT)) ∧
      (∀ t, w.promise = some t → t < s.d.time → Runs (.wakeComplete n) s (fun d => d.clState n = 0 ∧ d.bitN pwrB .PG_IRQ_STAT_BITS 0 = true ∧
        d.bit pwrB .PWR_LAT_MISS_VALID = true ∧
        d.get (pwrB + 4 * n) .PWR_CL_MISS_CNT_COUNT = Nat.min (s.d.get (pwrB + 4 * n) .PWR_CL_MISS_CNT_COUNT + 1) (2 ^ 32 - 1)))) ∧
    ((∀ w ∈ s.d.pow.prog, w.cl ≠ n.val) → Runs (.wakeComplete n) s (fun d => d = s.d)) ∧
    (∀ v : Word, s.d.reaches p (pwrCl n + 0x100) = true →
      (st < 2 → Runs (.pwrClTolWrite p n v) s (fun d => d.get (pwrCl n) .PWR_CL_TOL_NS = v.toNat ∧ d.pow = s.d.pow)) ∧
      (st = 2 ∨ st = 3 → v.toNat < 16000 → alone → Runs (.pwrClTolWrite p n v) s (fun d => d.get (pwrCl n) .PWR_CL_TOL_NS = v.toNat ∧ d.clState n = st ∧
        ∃ w, d.pow.queue = s.d.pow.queue ++ [w] ∧ w.cl = n.val ∧ w.promise = none ∧ w.low = true))) ∧
    (s.d.reaches p (pwrB + 0x6C) = true →
      (∀ v : BitVec 8, v ≠ 0x5A → Runs (.pwrHib p v) s (fun d => d.regs = s.d.regs ∧ d.pow = s.d.pow)) ∧
      (st ≠ 3 → Runs (.pwrHib p 0x5A) s (fun d => d.bit pwrB .PWR_STAT_HIB_REFUSED = true ∧ d.pow = s.d.pow ∧ d.clState n = st)) ∧
      ((∀ k ∈ s.d.clusters, s.d.clState k = 3 ∧ s.d.dpsState (2 * k) ≤ 1 ∧ s.d.dpsState (2 * k + 1) ≤ 1) →
        Runs (.pwrHib p 0x5A) s (fun d => d.pow.stop = true ∧ d.pow.queue = [] ∧ d.clState n = 4 ∧ d.clkState = 0 ∧ d.bit hifB .HIF_LINK_UP = false ∧
          d.bit clkB .CLK_STAT_MTB_LOCK = false ∧ d.hif.served = false)))

/-- DVFS and the AVSBus (R410 to R412). The slowest of the three points is in force: DEDUCED, notes/assumptions/5.md. The voltage a rise waits for is
the nominal one of the next point: DEDUCED, notes/assumptions/110.md. -/
def Obligations.OperatingPoints : Prop :=
  ∀ (s : State) (mv : BitVec 10),
    let now := s.d.get pwrB .PWR_DVFS_STAT_NOW
    let want := s.d.dvfsWant
    (∀ (p : HPort) (v : BitVec 3), s.d.reaches p (pwrB + 0x5C) = true → s.d.allCtx.any s.d.ctxOwning = false → Runs (.dvfsTargetWrite p v) s (fun d =>
      d.get pwrB .PWR_DVFS_CTRL_TARGET = v.toNat ∧ d.get pwrB .PWR_DVFS_STAT_NOW = now ∧ d.dvfsWant = Nat.max (Nat.min 4 v.toNat) s.d.dvfsCeil ∧
      (d.dvfsWant ≠ now → d.bit pwrB .PWR_DVFS_STAT_BUSY = true))) ∧
    (s.d.pow.prog = [] → now ≠ want → Runs (.dvfsStep mv) s (fun d => d.bit pwrB .PWR_DVFS_STAT_BUSY = true ∧ d.get pwrB .PWR_DVFS_STAT_VCORE_MV = mv.toNat ∧
      (now < want → d.get pwrB .PWR_DVFS_STAT_NOW = now + 1) ∧
      (want < now → ∀ nom ∈ [850, 780, 720, 680, 650][now - 1]?,
        (nom ≤ mv.toNat + 10 ∧ mv.toNat ≤ nom + 10 → d.get pwrB .PWR_DVFS_STAT_NOW = now - 1) ∧
        (mv.toNat + 10 < nom ∨ nom + 10 < mv.toNat → d.get pwrB .PWR_DVFS_STAT_NOW = now)))) ∧
    (s.d.pow.prog ≠ [] ∨ now = want → Runs (.dvfsStep mv) s (fun d => d = s.d)) ∧
    (s.d.bit pwrB .PWR_DVFS_STAT_BUSY = true → now = want → Runs .dvfsDone s (fun d => d.bit pwrB .PWR_DVFS_STAT_BUSY = false ∧ d.bitN pwrB .PG_IRQ_STAT_BITS 2 = true)) ∧
    (now ≠ want → Runs .dvfsDone s (fun d => d = s.d)) ∧
    (∀ low, 650 ≤ s.d.get pwrB .PWR_DVFS_STAT_VCORE_MV → s.d.get pwrB .PWR_DVFS_STAT_VCORE_MV ≤ 900 → Runs (.avsTrim low) s (fun d =>
      d.get pwrB .PWR_DVFS_STAT_VCORE_MV = (if low then Nat.min 900 (s.d.get pwrB .PWR_DVFS_STAT_VCORE_MV + 5) else Nat.max 650 (s.d.get pwrB .PWR_DVFS_STAT_VCORE_MV - 5)))) ∧
    (s.d.armed 0x05 0 0 = false → ∀ frame : BitVec 24,
      Runs (.avsFrame 0 frame mv) s (fun d => d.get pwrB .PWR_DVFS_STAT_VCORE_MV = mv.toNat ∧ d.pow.avsTry = 0 ∧
        d.get pwrB .PWR_AVS_ERR_CNT_COUNT = s.d.get pwrB .PWR_AVS_ERR_CNT_COUNT) ∧
      ∀ cause : Fin 5, cause ≠ 0 →
        Runs (.avsFrame cause frame mv) s (fun d => d.bitN pwrB .PG_IRQ_STAT_BITS 4 = true ∧
          d.get pwrB .PWR_AVS_ERR_CNT_COUNT = Nat.min (s.d.get pwrB .PWR_AVS_ERR_CNT_COUNT + 1) (2 ^ 32 - 1) ∧
          (s.d.bit pwrB .PWR_AVS_STAT_VALID = false → d.bit pwrB .PWR_AVS_STAT_VALID = true ∧ d.get pwrB .PWR_AVS_STAT_CAUSE = cause.val ∧ d.get pwrB .PWR_AVS_STAT_FRAME = frame.toNat)) ∧
        (cause = 4 ∨ 3 ≤ s.d.pow.avsTry → Runs (.avsFrame cause frame mv) s (fun d => d.pow.avsHold = true ∧ d.dvfsCeil = 3 ∧ d.bitN pwrB .PG_FLT_STAT_BITS 0 = true ∧
          s.d.recorded d (srcWord 0x05 0 0))) ∧
        (cause ≠ 4 → s.d.pow.avsTry < 3 → Runs (.avsFrame cause frame mv) s (fun d => d.pow.avsHold = s.d.pow.avsHold ∧ d.pow.avsTry = s.d.pow.avsTry + 1))) ∧
    (s.d.pow.avsHold = false → Runs .avsRetry s (fun d => d = s.d)) ∧
    (s.d.pow.avsHold = true → Runs .avsRetry s (fun d => d = { s.d with pow := { s.d.pow with avsTry := 3 } }))

/-- Sensors and thermal limits (R413, R414, R416 to R418, R420). -/
def Obligations.ThermalLimits : Prop :=
  ∀ (s : State) (t : Fin 48) (cnt : BitVec 24) (c : BitVec 16),
    let b := thmB + 4 * t.val
    let z := sensorZone t
    s.d.armed 0x06 0 0 = false →
    (Runs (.thermalReading t cnt c false) s (fun d => d.get b .THM_TEMP_CENTI_C = c.toNat ∧ d.get b .THM_COUNT_COUNT = cnt.toNat ∧ d.bit b .THM_TEMP_BROKEN = false ∧
      d.bitN thmB .THM_BROKEN_MAP_SENSOR t = false ∧ d.sget b .THM_MAX_CENTI_C = max (s.d.sget b .THM_MAX_CENTI_C) c.toInt ∧
      d.bitN thmB .THM_WARN_MAP_SENSOR t = decide (c.toInt > s.d.sget thmB .THM_WARN_CENTI_C))) ∧
    (c.toInt ≤ s.d.sget thmB .THM_WARN_CENTI_C → c.toInt ≤ s.d.critLimit → c.toInt ≤ 11500 → Runs (.thermalReading t cnt c false) s (fun d => d.thm = s.d.thm)) ∧
    (s.d.masked t = true → ∀ broken, Runs (.thermalReading t cnt c broken) s (fun d => d.thm = s.d.thm)) ∧
    (s.d.masked t = false → c.toInt > s.d.sget thmB .THM_WARN_CENTI_C → Runs (.thermalReading t cnt c false) s (fun d => z ∈ d.thm.warn ∧ 2 ≤ d.get pwrB .PWR_DVFS_STAT_CEIL)) ∧
    (s.d.masked t = false → c.toInt > s.d.critLimit → z ∉ s.d.thm.crit → Runs (.thermalReading t cnt c false) s (fun d => z ∈ d.thm.crit ∧
      d.bitN thmB .THM_CRIT_MAP_SENSOR t = true ∧ d.bitN thmB .PG_IRQ_STAT_BITS 1 = true ∧ d.bitN thmB .PG_FLT_STAT_BITS 0 = true ∧
      (∀ n ∈ s.d.zoneClusters z, bitOf s.d.thm.safe n = false → bitOf d.thm.safe n = true))) ∧
    (s.d.masked t = false → c.toInt > 11500 → s.d.thm.trip = false → Runs (.thermalReading t cnt c false) s (fun d => d.thm.trip = true ∧
      d.bitN thmB .PG_FLT_STAT_BITS 1 = true ∧ d.get pwrB .PWR_DVFS_STAT_CEIL = 3 ∧ d.get thmB .PG_STAT_STATE = 3)) ∧
    (Runs (.thermalReading t cnt c true) s (fun d => d.get b .THM_TEMP_CENTI_C = 0x7FFF ∧ d.bit b .THM_TEMP_BROKEN = true ∧ d.bitN thmB .THM_BROKEN_MAP_SENSOR t = true ∧
      d.get b .THM_MAX_CENTI_C = s.d.get b .THM_MAX_CENTI_C)) ∧
    (s.d.bitN thmB .THM_BROKEN_MAP_SENSOR t = false → Runs (.thermalReading t cnt c true) s (fun d => d.bitN thmB .PG_FLT_STAT_BITS 2 = true ∧ d.bitN thmB .PG_IRQ_STAT_BITS 2 = true)) ∧
    (∀ k : Fin 36,
      let below := fun (lim : Int) => ∀ u, u < 48 → sensorZone u = k.val → s.d.masked u = true ∨ s.d.temp u < lim - s.d.hyst
      (below (s.d.sget thmB .THM_WARN_CENTI_C) → Runs (.thermalRelease k) s (fun d => k.val ∉ d.thm.warn)) ∧
      (¬ below (s.d.sget thmB .THM_WARN_CENTI_C) → Runs (.thermalRelease k) s (fun d => d.thm.warn = s.d.thm.warn)) ∧
      (below s.d.critLimit → Runs (.thermalRelease k) s (fun d => k.val ∉ d.thm.crit)) ∧
      (¬ below s.d.critLimit → Runs (.thermalRelease k) s (fun d => d.thm.crit = s.d.thm.crit)) ∧
      (below s.d.critLimit → k.val < 32 → s.d.thm.trip = false → s.d.thm.crit = [k.val] → bitOf s.d.thm.safe k = true → Runs (.thermalRelease k) s (fun d =>
        d.thm.crit = [] ∧ bitOf d.thm.safe k = false ∧ d.bitN thmB .PG_IRQ_STAT_BITS 3 = true))) ∧
    (∀ (p : HPort) v, s.d.reaches p (thmB + 0x200 + 4 * t.val) = true → Runs (.thmMaxWrite p t v) s (fun d => d.get b .THM_MAX_CENTI_C = 0x8000 ∧
      d.word (thmB + 0x70) = s.d.word (thmB + 0x70)))

/-- Shadows, releases and injections of the fault collector (R427, R432, R435). -/
def Obligations.FaultControls : Prop :=
  ∀ (s : State) (p : HPort),
    (∀ k : Fin 33, (Tab.get (fun _ => []) s.d.flt.waits k).filter s.d.ctxOwning = [] →
      Runs (.shadowEnd k) s (fun d => (k = 32 → d.bit fltB .FLT_STAT_DEV_SHADOW = false) ∧ (k ≠ 32 → d.bitN fltB .FLT_SHADOW_MAP_CLUSTER k = false))) ∧
    (∀ k : Fin 33, (Tab.get (fun _ => []) s.d.flt.waits k).filter s.d.ctxOwning ≠ [] → Runs (.shadowEnd k) s (fun d => d.regs = s.d.regs)) ∧
    (∀ (v : Word) (n : Nat), s.d.reaches p (fltB + 0x74) = true → n < 32 → v.toNat = 2 ^ n →
      (s.d.bitN fltB .FLT_SAFE_MAP_CLUSTER n = true → s.d.flt.active = [] → s.d.bitN fltB .FLT_SHADOW_MAP_CLUSTER n = false → s.d.bit fltB .FLT_STAT_DEV_SHADOW = false →
        s.d.clkState ≠ 3 → s.d.clkState ≠ 4 → Runs (.fltSafeRel p v) s (fun d => d.bitN fltB .FLT_SAFE_MAP_CLUSTER n = false ∧ d.bitN fltB .PG_IRQ_STAT_BITS 4 = true)) ∧
      (s.d.bitN fltB .FLT_SAFE_MAP_CLUSTER n = true → s.d.bitN fltB .FLT_SHADOW_MAP_CLUSTER n = true ∨ s.d.bit fltB .FLT_STAT_DEV_SHADOW = true →
        Runs (.fltSafeRel p v) s (fun d => d.bitN fltB .FLT_SAFE_MAP_CLUSTER n = true ∧ d.bit fltB .FLT_STAT_REL_REFUSED = true)) ∧
      (s.d.bitN fltB .FLT_SAFE_MAP_CLUSTER n = false → Runs (.fltSafeRel p v) s (fun d => d.regs = s.d.regs))) ∧
    (∀ v : Word, s.d.reaches p (fltB + 0x84) = true →
      let src := s.d.get fltB .FLT_INJ_SEL_SOURCE
      (v.toNat / 256 % 256 ≠ 0xA5 → Runs (.faultInject p v) s (fun d => d.regs = s.d.regs)) ∧
      (v.toNat / 256 % 256 = 0xA5 → s.d.lcsState = 4 → Runs (.faultInject p v) s (fun d => d.word (fltB + 0x84) = s.d.word (fltB + 0x84))) ∧
      (v.toNat / 256 % 256 = 0xA5 → s.d.lcsState ≠ 4 → injectable (srcType src) (srcBit src) = true → srcType src ≠ 0x04 → srcType src ≠ 0x28 → srcType src ≠ 0x0A →
        Runs (.faultInject p v) s (fun d => d.bit fltB .FLT_INJ_CTRL_ARM = bitOf v.toNat 0 ∧ d.bit fltB .FLT_INJ_CTRL_CONT = bitOf v.toNat 1)) ∧
      (v.toNat / 256 % 256 = 0xA5 → s.d.lcsState ≠ 4 → bitOf v.toNat 0 = true → injectable (srcType src) (srcBit src) = false → Runs (.faultInject p v) s (fun d =>
        d.bit fltB .FLT_INJ_CTRL_ARM = false ∧ d.bit fltB .FLT_STAT_INJ_REFUSED = true)))

/-- Self-test (R438, R439, R442 to R447): requests, the start and the end of a slice, repairs, fuse programming. -/
def Obligations.SelfTest : Prop :=
  ∀ (s : State) (p : HPort) (n : Fin 32),
    let test := s.d.get bstB .BST_STAT_TEST
    let refused := fun (c : Nat) (d : Dev) => d.get bstB .BST_STAT_REFUSED = c ∧ d.bitN bstB .PG_IRQ_STAT_BITS 2 = true ∧ d.bst = s.d.bst
    (∀ v : BitVec 8, s.d.reaches p (bstB + 0x44) = true →
      let cls := if v = 1 then [32] else s.d.clusters.filter (s.d.bitN bstB .BST_REQ_CL_CLUSTER)
      let good := cls.filter (fun k => (List.range (bstParts v.toNat)).all (s.d.bstPre v.toNat k))
      let free := s.d.bst.todo = [] ∧ s.d.bstRuns = false ∧ s.d.bst.wait = none
      (s.d.bstAllowed = false → Runs (.bstReq p v) s (refused 1)) ∧
      (s.d.bstAllowed = true → s.d.clkState = 3 → Runs (.bstReq p v) s (refused 5)) ∧
      (s.d.bstAllowed = true → s.d.clkState < 3 → bstParts v.toNat = 0 → Runs (.bstReq p v) s (refused 3)) ∧
      (s.d.bstAllowed = true → s.d.clkState < 3 → bstParts v.toNat ≠ 0 → ¬ free → Runs (.bstReq p v) s (refused 4)) ∧
      (s.d.bstAllowed = true → s.d.clkState < 3 → bstParts v.toNat ≠ 0 → free → s.d.get bstB .PG_STAT_STATE = 2 → Runs (.bstReq p v) s (fun d =>
        d.bst = { s.d.bst with wait := some v.toNat } ∧ d.regs = s.d.regs)) ∧
      (s.d.bstAllowed = true → s.d.clkState < 3 → bstParts v.toNat ≠ 0 → free → s.d.get bstB .PG_STAT_STATE ≠ 2 → Runs (.bstReq p v) s (fun d =>
        d.bst.todo = good.flatMap (fun k => (List.range (bstParts v.toNat)).map (fun i => (k, i))) ∧ d.get bstB .PG_STAT_STATE = (if good = [] then 0 else 1) ∧
        (good ≠ [] → d.get bstB .BST_STAT_TEST = v.toNat) ∧ (good.length ≠ cls.length → d.get bstB .BST_STAT_REFUSED = 2 ∧ d.bitN bstB .PG_IRQ_STAT_BITS 2 = true)))) ∧
    (∀ part, s.d.clkState = 2 → (∀ x ∈ s.d.bst.todo, x.1 ≠ 32) → s.d.bst.todo.find? (fun x => x.1 == n.val) = some (n.val, part) → s.d.bstMay n = true →
      (∀ k, k < n.val → s.d.bstMay k = false) → s.d.get bstB .BST_STAT_RUNNING < s.d.bstMaxPar →
      (s.d.clState n = 0 → Runs (.bistSliceStart n) s (fun d => (d.clu n).bst = some { test := test, part := part, t0 := s.d.time } ∧
        d.bst.todo = s.d.bst.todo.erase (n.val, part) ∧ ∀ b ∈ bstPages test n part, d.bit b .PG_STAT_SELFTEST = true)) ∧
      (s.d.clState n = 2 ∨ s.d.clState n = 3 → s.d.present n = true → (∀ w ∈ s.d.pow.queue ++ s.d.pow.prog, w.cl ≠ n.val) → Runs (.bistSliceStart n) s (fun d =>
        d.clus = s.d.clus ∧ d.bst = s.d.bst ∧ ∃ w, d.pow.queue = s.d.pow.queue ++ [w] ∧ w.cl = n.val ∧ w.promise = none ∧ w.low = true))) ∧
    (s.d.clkState = 2 → s.d.bst.todo = [(32, 0)] → s.d.bstPre test 32 0 = true → 34 ∉ s.d.thm.warn → 35 ∉ s.d.thm.warn → s.d.get bstB .BST_STAT_RUNNING < s.d.bstMaxPar → Runs (.bistSliceStart n) s (fun d =>
      d.bst.ref = some { test := test, part := 0, t0 := s.d.time } ∧ d.bst.todo = [] ∧ d.clus = s.d.clus)) ∧
    (s.d.clkState ≠ 2 ∨ s.d.bst.todo = [] ∨ s.d.bstMaxPar ≤ s.d.get bstB .BST_STAT_RUNNING → Runs (.bistSliceStart n) s (fun d => d = s.d)) ∧
    (∀ (b : BSlice) (o : BstOut), s.d.bst.ref = none → (s.d.clu n).bst = some b → (s.d.clu n).rstWait = false → b.test ≤ 8 → b.part < 4 →
      let r := bstCl n
      let sig := bstSigOf (o.words.map (fun w => w.toNat))
      let es := Config.bstSig b.test b.part % 2 ^ 32
      let en := Config.bstSteps b.test b.part % 2 ^ 32
      ∀ c ∈ [Instr.bistSliceEnd n o, Instr.bistSliceTimeout n o],
        Runs c s (fun d => (d.clu n).bst = none ∧ d.get r .BST_CL_SIG_SIG = sig % 2 ^ 32 ∧ d.get r .BST_CL_STEPS_COUNT = o.words.length % 2 ^ 32 ∧ d.get r .BST_CL_RES_TEST = b.test ∧
          d.get r .BST_CL_RES_PART = b.part ∧ d.get r .BST_CL_EXP_SIG_SIG = es ∧ d.get r .BST_CL_EXP_STEPS_COUNT = en ∧
          d.get r .BST_CL_DET_BITS = Nat.lor (s.d.get r .BST_CL_DET_BITS) o.det.toNat ∧ d.bitN bstB .PG_IRQ_STAT_BITS 0 = true ∧
          ∀ a ∈ bstPages b.test n b.part, d.bit a .PG_STAT_SELFTEST = false) ∧
        (b.cut = true ∨ o.words.length < en → Runs c s (fun d => d.get r .BST_CL_RES_RESULT = 2 ∧ d.get r .BST_CL_RES_CAUSE = 2 ∧ d.bitN bstB .PG_IRQ_STAT_BITS 1 = true)) ∧
        (b.cut = false → en ≤ o.words.length → o.rows = [] → o.spares = [] →
          (sig = es ∧ o.words.length = en → Runs c s (fun d => d.get r .BST_CL_RES_RESULT = 1 ∧ d.get r .BST_CL_RES_CAUSE = 0)) ∧
          (¬ (sig = es ∧ o.words.length = en) → Runs c s (fun d => d.get r .BST_CL_RES_RESULT = 2 ∧ d.get r .BST_CL_RES_CAUSE = 1 ∧ d.bitN bstB .PG_IRQ_STAT_BITS 1 = true))) ∧
        (∀ el k row, bstElem b.test = some (el, k) → o.rows = [row] → o.spares = [] → s.d.softAllowed = true →
          (∀ sp, sp < k → s.d.repOf n el sp = none → (∀ j, j < sp → s.d.repOf n el j ≠ none) → Runs c s (fun d => d.get r .BST_CL_RES_REPAIRS = 1 ∧
            d.bst.soft = s.d.bst.soft ++ [{ cl := n, elem := el, spare := sp, row := row.toNat, used := true, fused := false, bad := false }])) ∧
          ((∀ sp, sp < k → s.d.repOf n el sp ≠ none) → b.cut = false → en ≤ o.words.length → Runs c s (fun d => d.bst.soft = s.d.bst.soft ∧
            d.get r .BST_CL_RES_RESULT = 2 ∧ d.get r .BST_CL_RES_CAUSE = 3)))) ∧
    (∀ o, s.d.bst.ref = none → (s.d.clu n).bst = none → Runs (.bistSliceEnd n o) s (fun d => d = s.d) ∧ Runs (.bistSliceTimeout n o) s (fun d => d = s.d)) ∧
    (∀ v : Word, s.d.reaches p (bstB + 0x50) = true →
      let key := v.toNat / 256 % 256 = 0x3C ∧ bitOf v.toNat 0 = true
      (¬ key → Runs (.bstFuseCtrl p v) s (fun d => d.regs = s.d.regs)) ∧
      (key → s.d.fuseAllowed = false → Runs (.bstFuseCtrl p v) s (refused 1)) ∧
      (key → s.d.fuseAllowed = true → (s.d.bstRuns = true ∨ s.d.junctionOk = false) → Runs (.bstFuseCtrl p v) s (refused 2)) ∧
      (key → s.d.fuseAllowed = true → s.d.bstRuns = false → s.d.junctionOk = true → Runs (.bstFuseCtrl p v) s (fun d => d.get bstB .PG_STAT_STATE = 2))) ∧
    (s.d.get bstB .PG_STAT_STATE = 2 → s.d.bst.wait = none →
      let used := s.d.bst.soft.filter (fun (x : Rep) => x.used)
      Runs (.fuseDone []) s (fun d => d.fuse.reps = s.d.fuse.reps ++ used.map Rep.fuse ∧ d.bst.soft = s.d.bst.soft.filter (fun (x : Rep) => !x.used) ∧
        d.get bstB .PG_STAT_STATE ≠ 2 ∧ d.bitN bstB .PG_IRQ_STAT_BITS 3 = true) ∧
      ∀ i : Fin 64, i.val < used.length → Runs (.fuseDone [i]) s (fun d => d.bitN bstB .PG_FLT_STAT_BITS 0 = true ∧ d.bst.soft.length = s.d.bst.soft.length + 1 - used.length ∧
        d.fuse.reps.length = s.d.fuse.reps.length + used.length - 1)) ∧
    (s.d.get bstB .PG_STAT_STATE ≠ 2 → Runs (.fuseDone []) s (fun d => d = s.d))

/-- Performance counters (R463, R466): dumps, the sample buffer, the consumer count. -/
def Obligations.PerformanceDumps : Prop :=
  ∀ (s : State) (p : HPort) (n : Fin 32) (v : Word),
    let prod := s.d.get pmcB .PMC_DUMP_PROD_PROD
    let at_ := s.d.get pmcB .PMC_DUMP_BASE_BASE * 4096 + 4096 * (prod % 2 ^ s.d.dumpLog)
    (s.d.dumpOn = false → Runs .pmcDump s (fun d => d = s.d)) ∧
    (s.d.dumpOn = true → s.d.dumpFull = true → Runs .pmcDump s (fun d => d.dumps = (s.d.dumps + 1) % 2 ^ 32 ∧ d.get pmcB .PMC_DUMP_PROD_PROD = prod ∧
      d.get pmcB .PMC_DUMP_SKIP_COUNT = Nat.min (s.d.get pmcB .PMC_DUMP_SKIP_COUNT + 1) (2 ^ 32 - 1) ∧ d.bitN pmcB .PG_IRQ_STAT_BITS 1 = true)) ∧
    (s.d.dumpOn = true → s.d.dumpFull = false → Runs .pmcDump s (fun d => d.dumps = (s.d.dumps + 1) % 2 ^ 32 ∧ d.get pmcB .PMC_DUMP_PROD_PROD = (prod + 1) % 2 ^ 32 ∧
      d.bitN pmcB .PG_IRQ_STAT_BITS 0 = true ∧ s.d.dumpSlot.length = 528 ∧ ∃ l, d.out = l ++ .hostWr at_ s.d.dumpSlot :: s.d.out)) ∧
    (s.d.reaches p (pmccBase n + 0x7C) = true → Runs (.pmcSmpClr p n) s (fun d => d.get (pmccBase n) .PMC_SMP_STAT_LEVEL = 0 ∧ d.get (pmccBase n) .PMC_SMP_STAT_LOST = 0 ∧
      ∀ a, pmccBase n + 0x400 ≤ a → a < pmccBase n + 0x800 → d.word a = (resetWord a).toNat)) ∧
    (s.d.reaches p (pmcB + 0x5C) = true →
      ((prod + 2 ^ 32 - v.toNat) % 2 ^ 32 ≤ 2 ^ s.d.dumpLog → Runs (.pmcDumpConsWrite p v) s (fun d => d.get pmcB .PMC_DUMP_CONS_CONS = v.toNat)) ∧
      (2 ^ s.d.dumpLog < (prod + 2 ^ 32 - v.toNat) % 2 ^ 32 → Runs (.pmcDumpConsWrite p v) s (fun d => d.regs = s.d.regs)))

/-- The reset of one cluster, and the PCI Express link (R319, R471, R472). -/
def Obligations.ClusterResets : Prop :=
  ∀ (s : State) (p : HPort) (n : Fin 32),
    (∀ v : Word, s.d.reaches p (glbB + 0x50) = true → v.toNat = 2 ^ n.val →
      (s.d.present n = true → s.d.bitN glbB .GLB_CL_RST_BUSY_CLUSTER n = false → s.d.clBusy n = false → (s.d.clu n).bst = none → s.d.forced n = false →
        Runs (.glbClRst p v) s (fun d => d.bitN glbB .GLB_CL_RST_BUSY_CLUSTER n = true ∧ (d.eng n).pram = [] ∧ (d.eng n).run = none ∧ (∀ g ∈ clPins n, d.pin g = {} ∧ d.pmu g = {} ∧ d.tdc g = {}) ∧
          (∀ i : Fin 32, d.cx (32 * n.val + i.val) = (s.d.cx (32 * n.val + i.val)).afterReset) ∧
          d.calA = s.d.calA ∧ d.calS = s.d.calS ∧
          (s.d.calDiff n = [] → d.eng n = {} ∧ ∀ a, clBase n ≤ a → a < clBase n + 0x40000 → (∀ k, 1 ≤ k → k ≤ 7 → a ≠ calcBase n + 0x100 + 0x10 * k) →
            d.word a = (if a ∈ ageWords then s.d.word a else (resetWord a).toNat)))) ∧
      (s.d.present n = true → s.d.bitN glbB .GLB_CL_RST_BUSY_CLUSTER n = false → s.d.clBusy n = true → Runs (.glbClRst p v) s (fun d =>
        d.bitN glbB .GLB_CL_RST_REF_CLUSTER n = true ∧ d.bitN glbB .GLB_CL_RST_BUSY_CLUSTER n = false ∧ d.pins = s.d.pins ∧ d.ctxs = s.d.ctxs)) ∧
      (s.d.present n = true → s.d.bitN glbB .GLB_CL_RST_BUSY_CLUSTER n = false → s.d.clBusy n = false → (s.d.clu n).bst ≠ none → Runs (.glbClRst p v) s (fun d =>
        d.bitN glbB .GLB_CL_RST_BUSY_CLUSTER n = true ∧ (d.clu n).rstWait = true ∧ d.pins = s.d.pins)) ∧
      (s.d.present n = false ∨ s.d.bitN glbB .GLB_CL_RST_BUSY_CLUSTER n = true → Runs (.glbClRst p v) s (fun d => d.regs = s.d.regs ∧ d.pins = s.d.pins))) ∧
    (s.d.bitN glbB .GLB_CL_RST_BUSY_CLUSTER n = true → (s.d.clu n).rstWait = false → s.d.hif.held = [] → Runs (.clusterResetDone n) s (fun d =>
      d.bitN glbB .GLB_CL_RST_BUSY_CLUSTER n = false ∧ d.hif = s.d.hif ∧ ∀ a, a ≠ glbB + 0x54 → d.word a = s.d.word a)) ∧
    (s.d.bitN glbB .GLB_CL_RST_BUSY_CLUSTER n = false → Runs (.clusterResetDone n) s (fun d => d = s.d)) ∧
    (∀ x y, s.d.bit clkB .CLK_STAT_MTB_LOCK = true → s.d.rst.perst = false → s.d.pow.stop = false → s.d.clkState ≤ 2 → Runs (.linkUp x y) s (fun d =>
      d.bit hifB .HIF_LINK_UP = true ∧ d.get hifB .HIF_LINK_SPEED = x.toNat ∧ d.get hifB .HIF_LINK_WIDTH = y.toNat)) ∧
    (∀ x y, s.d.bit clkB .CLK_STAT_MTB_LOCK = false ∨ s.d.rst.perst = true → Runs (.linkUp x y) s (fun d => d = s.d)) ∧
    Runs .pcieLinkDown s (fun d => d.bit hifB .HIF_LINK_UP = false ∧ d.hif = s.d.hif ∧ ∀ a, a ≠ hifB + 0x40 → d.word a = s.d.word a)

/-- The life cycle (R475 to R477, R479): challenge, response, the end of a session, advances and their end; and the JTAG port (R478). -/
def Obligations.LifeCycle : Prop :=
  (∀ (s : State) (p : HPort), s.d.reaches p (lcsB + 0x44) = true → s.d.bit lcsB .LCS_STAT_BUSY = false →
    let st := s.d.lcsState
    let last := fun (c : Nat) (d : Dev) => d.get lcsB .LCS_STAT_LAST = c ∧ d.bitN lcsB .PG_IRQ_STAT_BITS 0 = true
    let idle := fun (d : Dev) => d.lcs = s.d.lcs ∧ d.fuse = s.d.fuse ∧ d.word (lcsB + 0x40) = s.d.word (lcsB + 0x40) ∧ d.word (lcsB + 0x48) = s.d.word (lcsB + 0x48)
    let right := s.d.words8 (lcsB + 0x80) = Config.mac (s.d.words8 (lcsB + 0x60)) s.d.fuse.dsn
    (st = 0 ∨ st = 4 → Runs (.lcsChalReq p) s idle ∧ Runs (.lcsCheck p) s idle) ∧
    (st ≠ 0 → st ≠ 4 →
      (s.d.bit lcsB .LCS_STAT_LOCKOUT = true → Runs (.lcsChalReq p) s (fun d => last 4 d ∧ d.lcs = s.d.lcs ∧ d.bit lcsB .LCS_STAT_CHAL_VALID = s.d.bit lcsB .LCS_STAT_CHAL_VALID)) ∧
      (s.d.bit lcsB .LCS_STAT_LOCKOUT = false → s.d.lcs.failT = none → Runs (.lcsChalReq p) s (fun d => last 1 d ∧ d.bit lcsB .LCS_STAT_CHAL_VALID = true)) ∧
      (∀ t, s.d.bit lcsB .LCS_STAT_LOCKOUT = false → s.d.lcs.failT = some t → s.d.lcs.failOld = false → s.d.bit clkB .CLK_STAT_MTB_LOCK = true →
        (s.d.time < t + 1000000 * usFine → Runs (.lcsChalReq p) s (last 4)) ∧
        (t + 1000000 * usFine ≤ s.d.time → Runs (.lcsChalReq p) s (fun d => last 1 d ∧ d.bit lcsB .LCS_STAT_CHAL_VALID = true))) ∧
      (s.d.bit lcsB .LCS_STAT_CHAL_VALID = false → Runs (.lcsCheck p) s (fun d => last 3 d ∧ d.lcs = s.d.lcs)) ∧
      (s.d.bit lcsB .LCS_STAT_CHAL_VALID = true → right → Runs (.lcsCheck p) s (fun d => last 1 d ∧ d.lcs.session = true ∧ d.lcsState = 3 ∧ d.get lcsB .LCS_STAT_FAILS = 0 ∧
        d.bit lcsB .LCS_STAT_CHAL_VALID = false ∧ d.get lcsB .LCS_UNLOCK_CNT_COUNT = Nat.min (s.d.get lcsB .LCS_UNLOCK_CNT_COUNT + 1) (2 ^ 32 - 1))) ∧
      (s.d.bit lcsB .LCS_STAT_CHAL_VALID = true → ¬ right → Runs (.lcsCheck p) s (fun d => last 2 d ∧ d.lcs.session = s.d.lcs.session ∧ d.lcs.failT = some s.d.time ∧
        d.bit lcsB .LCS_STAT_CHAL_VALID = false ∧ d.get lcsB .LCS_STAT_FAILS = Nat.min (s.d.get lcsB .LCS_STAT_FAILS + 1) 255 ∧
        d.bit lcsB .LCS_STAT_LOCKOUT = (s.d.bit lcsB .LCS_STAT_LOCKOUT || decide (7 ≤ s.d.get lcsB .LCS_STAT_FAILS))))) ∧
    (s.d.lcs.session = true → Runs (.lcsExit p) s (fun d => last 1 d ∧ d.lcs.session = false ∧ d.lcsState = s.d.fuse.life % 16)) ∧
    (s.d.lcs.session = false → Runs (.lcsExit p) s idle) ∧
    (∀ t : BitVec 4,
      (st = 4 → Runs (.advance p t) s idle) ∧
      (st ≠ 4 → s.d.advOk t.toNat = false → Runs (.advance p t) s (fun d => last 5 d ∧ d.lcs = s.d.lcs)) ∧
      (st ≠ 4 → s.d.advOk t.toNat = true → s.d.bstRuns = true ∨ s.d.junctionOk = false ∨ (t = 1 ∧ s.d.fuse.key = false) →
        Runs (.advance p t) s (fun d => last 6 d ∧ d.lcs = s.d.lcs)) ∧
      (st ≠ 4 → s.d.advOk t.toNat = true → s.d.bstRuns = false → s.d.junctionOk = true → (t = 1 → s.d.fuse.key = true) →
        Runs (.advance p t) s (fun d => d.lcs.adv = some t.toNat ∧ d.bit lcsB .LCS_STAT_BUSY = true ∧ d.fuse = s.d.fuse)))) ∧
  (∀ (s : State),
    (∀ t, s.d.lcs.adv = some t → Runs .advanceDone s (fun d => d.lcs.adv = none ∧ d.fuse.life = t ∧ d.bit lcsB .LCS_STAT_BUSY = false ∧ d.get lcsB .LCS_STAT_LAST = 1 ∧
      (t = 4 → d.fuse.key = false ∧ d.lcs.session = false ∧ d.lcsState = 4) ∧ (t ≠ 4 → d.fuse.key = s.d.fuse.key))) ∧
    (s.d.lcs.adv = none → Runs .advanceDone s (fun d => d = s.d)) ∧
    Runs .idcode s (fun d => d = { s.d with out := .jtag (s.d.fuse.step % 16 * 2 ^ 28 + (match s.d.fuse.code with | 0 => 0x004004D7 | 1 => 0x003004D7 | _ => 0x002004D7)) :: s.d.out }) ∧
    (∀ b bs, s.d.jtagUp = true → Runs (.bypass (bs ++ [b])) s (fun d => d = { s.d with out := .jtag (2 * bitsNat bs) :: s.d.out })) ∧
    (∀ bs, s.d.jtagUp = true → Runs (.samplePreload bs) s (fun d => d.rst.scan = bs ∧ d.regs = s.d.regs ∧ d.pins = s.d.pins ∧ ∃ x, d.out = .jtag x :: s.d.out ∧ x < 2 ^ bs.length)) ∧
    (s.d.jtagUp = false → ∀ bs, Runs (.bypass bs) s (fun d => d = s.d) ∧ Runs (.samplePreload bs) s (fun d => d = s.d) ∧ Runs .extest s (fun d => d = s.d)) ∧
    (s.d.jtagUp = true → Runs .extest s (fun d => d.rst.extest = true ∧ ∀ n ∈ s.d.clusters,
      (∀ g ∈ clPins n, (d.pin g).drv = .z ∧ d.bit (pinBase g) .PG_CTRL_EN = false ∧ d.bit (pinBase g) .PIN_STAT_PARKED = true) ∧
      ∀ i : Fin 2, d.bit (dpsBase (2 * n + i.val)) .PG_CTRL_EN = false)) ∧
    (∀ (w : Fin 8) (off : BitVec 12) (v : Word), off.toNat = 0x80 + 4 * w.val → Runs (.lcsAccess true off v) s (fun d =>
      d.word (lcsB + off.toNat) = v.toNat ∧ d.lcs = s.d.lcs ∧ ∀ a, a ≠ lcsB + off.toNat → d.word a = s.d.word a)) ∧
    (∀ v : Word, s.d.bit lcsB .PG_STAT_GATED = false → Runs (.lcsAccess false 0x40 v) s (fun d => d = { s.d with out := .jtag (s.d.word (lcsB + 0x40)) :: s.d.out })) ∧
    (∀ (wr : Bool) (v : Word), Runs (.lcsAccess wr 0xFFC v) s (fun d => d = s.d)))

/-- The management serial port: frames (R450 to R455, R409): NOP, READ, WRITE, WAKE, and their violations; the port as a master, and its configuration (R457 to
R459). -/
def Obligations.SerialPort : Prop :=
  (∀ s : State, s.d.mspSlave = true →
    let op := fun (w : Word) => w.toNat / 2 ^ 28
    let idle := s.d.mspBusy = false ∧ s.d.msp.cmd = none ∧ s.d.msp.master = none ∧ s.d.msp.srst = false
    let frames := Nat.min (s.d.get mspB .MSP_FRAME_CNT_COUNT + 1) (2 ^ 32 - 1)
    let viol := fun (code : Nat) (cmd : Option Nat) (d : Dev) => d.get mspB .MSP_VIOL_CNT_COUNT = Nat.min (s.d.get mspB .MSP_VIOL_CNT_COUNT + 1) (2 ^ 32 - 1) ∧
      bitOf d.msp.flags (code - 1) = true ∧ (s.d.bit mspB .MSP_VIOL_FIRST_VALID = false → d.bit mspB .MSP_VIOL_FIRST_VALID = true ∧ d.get mspB .MSP_VIOL_FIRST_CAUSE = code ∧
        (∀ c, cmd = some c → d.get mspB .MSP_VIOL_CMD_WORD = c) ∧ d.bitN mspB .PG_IRQ_STAT_BITS 1 = true)
    (∀ w : Word, s.d.mspBusy = true → s.d.msp.cmd = none → Runs (.mspNop w false) s (fun d => d = { s.d with out := .mspOut 0xC3C3C3C3 :: s.d.out }) ∧
      Runs (.mspNop w true) s (fun d => viol 3 (some w.toNat) d ∧ d.out = .mspOut 0xC3C3C3C3 :: .mspOut 0xC3C3C3C3 :: s.d.out ∧ d.msp.cmd = none)) ∧
    (∀ w : Word, idle → op w = 0 → Runs (.mspNop w false) s (fun d => d.out = .mspOut s.d.mspStatus :: s.d.out ∧ d.get mspB .MSP_FRAME_CNT_COUNT = frames ∧ d.msp.flags = 0 ∧
      ∀ a, a ≠ mspB + 0x5C → d.word a = s.d.word a)) ∧
    (∀ (w : Word) ovr, idle → 4 ≤ op w → Runs (.mspNop w ovr) s (fun d => bitOf d.msp.flags 1 = true ∧ d.msp.cmd = none ∧
      d.get mspB .MSP_FRAME_CNT_COUNT = s.d.get mspB .MSP_FRAME_CNT_COUNT)) ∧
    (∀ w : Word, idle → 4 ≤ op w → Runs (.mspNop w false) s (viol 2 (some w.toNat))) ∧
    (∀ w : Word, idle → op w = 0 → Runs (.mspNop w true) s (fun d => viol 3 (some w.toNat) d ∧ ∃ l, d.out = l ++ [.mspOut mspBusyWord, .mspOut s.d.mspStatus] ++ s.d.out)) ∧
    (∀ (w : Word) kind base off row, idle → op w = 1 → w.toNat / 2 ^ 24 % 16 = 0 → w.toNat % 4 = 0 → areaOf (w.toNat % 2 ^ 24) = .page kind base off → 0x40 ≤ off →
      rowAt kind base off = some (row, false) → row.wide = false → row.snap = 0 → ¬ (kind = .pin ∧ off = 0x318) → kind ≠ .msp → s.d.clkState = 2 → s.d.pow.stop = false → s.d.pageOpen (w.toNat % 2 ^ 24) = true →
      s.d.heldNow (w.toNat % 2 ^ 24) = false → Runs (.mspRead w (false, [false, false])) s (fun d => d.out = .mspOut (s.d.live kind base off) :: .mspOut 0x5AA50001 :: .mspOut s.d.mspStatus :: s.d.out ∧
        d.get mspB .MSP_FRAME_CNT_COUNT = frames ∧ d.msp.cmd = none ∧ ∀ a, a ≠ mspB + 0x5C → d.word a = s.d.word a) ∧
      Runs (.mspRead w (false, [false])) s (fun d => d.out = .mspOut 0x5AA50001 :: .mspOut s.d.mspStatus :: s.d.out ∧ d.msp.cmd = some w.toNat ∧
        d.msp.rd = [s.d.live kind base off] ∧ d.regs = s.d.regs)) ∧
    (∀ (w : Word) c x xs ovr, s.d.msp.cmd = some c → c / 2 ^ 28 = 1 → s.d.msp.rd = x :: xs → xs ≠ [] → Runs (.mspNop w ovr) s (fun d => d.msp.cmd = some c ∧ d.msp.rd = xs ∧
      d.out = (if ovr then [.mspOut mspBusyWord, .mspOut x] else [.mspOut x]) ++ s.d.out ∧ (ovr = false → d.regs = s.d.regs))) ∧
    (∀ (w : Word) c, s.d.msp.cmd = some c → c / 2 ^ 28 = 1 → s.d.msp.rd = [] → Runs (.mspNop w false) s (fun d => d = { s.d with out := .mspOut mspBusyWord :: s.d.out })) ∧
    (∀ w x : Word, idle → op w = 2 → w.toNat / 2 ^ 24 % 16 = 0 → w.toNat % 2 ^ 24 = pwrB + 0x54 → s.d.clkState = 2 → s.d.pow.stop = false → s.d.pageOpen (pwrB + 0x54) = true →
      s.d.heldNow (pwrB + 0x54) = false →
      Runs (.mspWrite w [(x, false)] false) s (fun d => d.out = .mspOut w.toNat :: .mspOut s.d.mspStatus :: s.d.out ∧ d.get pwrB .PWR_IDLE_DWELL_US = x.toNat % 2 ^ 16 ∧
        d.get mspB .MSP_FRAME_CNT_COUNT = frames ∧ d.msp.cmd = none)) ∧
    (∀ w : Word, idle → op w = 2 → w.toNat / 2 ^ 24 % 16 = 1 → w.toNat % 4 = 0 → w.toNat % 2 ^ 24 < 0xFFFFF0 → s.d.clkState = 2 → s.d.pow.stop = false →
      Runs (.mspWrite w [] false) s (fun d => d.msp.cmd = some w.toNat ∧ d.regs = s.d.regs)) ∧
    (∀ w : Word, idle → op w = 3 → w.toNat % 2 ^ 24 = 0xA55A → s.d.pow.stop = false → Runs (.mspWake w false) s (fun d => d.get mspB .MSP_FRAME_CNT_COUNT = frames ∧ d.pow = s.d.pow)) ∧
    (∀ w : Word, idle → op w = 3 → w.toNat % 2 ^ 24 = 0xA55A → s.d.pow.stop = true → s.d.lcs.adv = none → s.d.get bstB .PG_STAT_STATE ≠ 2 → Runs (.mspWake w false) s (fun d =>
      d.pow = {} ∧ d.word (glbB + 0x4C) = 32 ∧ d.bit pwrB .PWR_STAT_HIB_WAKE = true ∧ d.out = .mspOut s.d.mspStatus :: s.d.out)) ∧
    (s.d.msp.master = none → s.d.msp.srst = false → (∀ c, s.d.msp.cmd = some c → c < 2 ^ 32) → Runs .mspShortWord s (fun d => viol 1 s.d.msp.cmd d ∧ d.msp.cmd = none ∧
      d.get mspB .MSP_FRAME_ERR_COUNT = Nat.min (s.d.get mspB .MSP_FRAME_ERR_COUNT + 1) (2 ^ 32 - 1))) ∧
    (∀ c, s.d.msp.cmd = some c → c < 2 ^ 32 → s.d.msp.master = none → s.d.msp.srst = false → Runs .mspFrameTimeout s (fun d => viol 4 (some c) d ∧ d.msp.cmd = none ∧ d.msp.rd = [])) ∧
    (s.d.msp.cmd = none → Runs .mspFrameTimeout s (fun d => d = s.d))) ∧
  (∀ (s : State) (p : HPort) (v : Word),
    let bits := fun (n : Nat) => if n = 0 ∨ 32 < n then 32 else n
    (s.d.reaches p (mspB + 0x40) = true →
      (p = .pcie → s.d.msp.cmd = none → Runs (.mspCfgWrite p v) s (fun d => d.bit mspB .MSP_CFG_MASTER = bitOf v.toNat 31 ∧ d.get mspB .MSP_CFG_TIMEOUT = v.toNat / 2 ^ 16 % 256 ∧ d.msp = s.d.msp)) ∧
      (p = .msp → s.d.msp.cmd = none → s.d.msp.srst = false → Runs (.mspCfgWrite p v) s (fun d => d.bit mspB .MSP_CFG_MASTER = bitOf v.toNat 31 ∧ d.msp.master = none ∧
        d.get mspB .MSP_CFG_TIMEOUT = v.toNat / 2 ^ 16 % 256)) ∧
      (s.d.msp.cmd ≠ none → Runs (.mspCfgWrite p v) s (fun d => d.bit mspB .MSP_CFG_MASTER = s.d.bit mspB .MSP_CFG_MASTER ∧
        d.msp.master = some (v.toNat / 2 ^ 31) ∧ d.get mspB .MSP_CFG_TIMEOUT = v.toNat / 2 ^ 16 % 256))) ∧
    (s.d.reaches p (mspB + 0x60) = true →
      (s.d.bit mspB .MSP_M_CTRL_BUSY = true → Runs (.mspMasterGo p v) s (fun d => d.bit mspB .MSP_STAT_GO_REFUSED = true ∧ d.bit mspB .MSP_M_CTRL_BUSY = true ∧ d.out = s.d.out)) ∧
      (s.d.bit mspB .MSP_M_CTRL_BUSY = false → s.d.bit mspB .MSP_CFG_MASTER = true → s.d.clkState = 2 → Runs (.mspMasterGo p v) s (fun d => d.bit mspB .MSP_M_CTRL_BUSY = true ∧
        (let n := bits (v.toNat / 2 ^ 16 % 64)
         let cs := v.toNat / 2 ^ 8 % 4
         d.msp.sel = some cs ∧ d.out = .mspM cs n (s.d.word (mspB + 0x64) % 2 ^ n) :: s.d.out))) ∧
      (s.d.bit mspB .MSP_M_CTRL_BUSY = false → s.d.bit mspB .MSP_CFG_MASTER = false → Runs (.mspMasterGo p v) s (fun d => d.bit mspB .MSP_M_CTRL_BUSY = false ∧ d.out = s.d.out)) ∧
      (s.d.bit mspB .MSP_M_CTRL_BUSY = false → s.d.bit mspB .MSP_CFG_MASTER = true → s.d.clkState = 3 → Runs (.mspMasterGo p v) s (fun d => d.bit mspB .MSP_STAT_M_ABORT = true ∧
        d.bit mspB .MSP_M_CTRL_BUSY = false))) ∧
    (s.d.bit mspB .MSP_M_CTRL_BUSY = true → Runs (.mspMasterDone v) s (fun d => d.bit mspB .MSP_M_CTRL_BUSY = false ∧ d.msp.sel = (if s.d.bit mspB .MSP_M_CTRL_HOLD then s.d.msp.sel else none) ∧ d.bitN mspB .PG_IRQ_STAT_BITS 0 = true ∧
      d.word (mspB + 0x68) % 2 ^ s.d.mspBits = v.toNat % 2 ^ s.d.mspBits ∧ d.word (mspB + 0x68) / 2 ^ s.d.mspBits = s.d.word (mspB + 0x68) / 2 ^ s.d.mspBits)) ∧
    (s.d.bit mspB .MSP_M_CTRL_BUSY = false → Runs (.mspMasterDone v) s (fun d => d = s.d)) ∧
    (s.d.bit mspB .MSP_CFG_MASTER = true → s.d.msp.sel ≠ some 0 → Runs .csConflict s (fun d => d.bitN mspB .PG_FLT_STAT_BITS 0 = true ∧ s.d.recorded d (srcWord 0x0E 0 0))) ∧
    (s.d.bit mspB .MSP_CFG_MASTER = false ∨ s.d.msp.sel = some 0 → Runs .csConflict s (fun d => d = s.d)))

/-- The ZH64 window (R480 to R484): with no transaction open and no self-test slice or gated clock in the channel, an access translates into the native
register it stands for. -/
def Obligations.LegacyWindow : Prop :=
  ∀ (s : State) (p : HPort) (off : BitVec 16) (v : Word) (ch : Fin 16), s.d.reaches p (z64B + off.toNat) = true → s.d.present 0 = true → s.d.txnOpen = false →
    let g := 16 * s.d.z64.bank + ch.val
    let b := pinBase g
    let ready := g < 128 ∧ s.d.bit b .PG_STAT_SELFTEST = false ∧ s.d.bit b .PG_STAT_GATED = false ∧ s.d.bit b .PG_CTRL_SRST = false ∧
      s.d.bitN glbB .GLB_CL_RST_BUSY_CLUSTER (g / 32) = false
    let base := 0x1000 + 0x100 * ch.val
    let low := fun (k : Nat) => off.toNat = base + 8 * k
    let high := fun (k : Nat) => off.toNat = base + 8 * k + 4
    (∀ k, k < 5 → low k → Runs (.z64LoWrite p off v) s (fun d => d.z64Lo g k = v.toNat % 2 ^ 16 ∧ d.regs = s.d.regs ∧ d.z64.hi = s.d.z64.hi)) ∧
    (low 5 → Runs (.z64LoWrite p off v) s (fun d => d.z64 = s.d.z64 ∧ d.regs = s.d.regs)) ∧
    (∀ k, k < 5 → high k → ready → s.d.z64Lo g k < 2 ^ 16 → Runs (.z64HiWrite p off v) s (fun d => d.word (b + z64Off k) % 2 ^ 20 = v.toNat % 16 * 2 ^ 16 + s.d.z64Lo g k ∧ d.z64 = s.d.z64)) ∧
    (high 5 → ready → Runs (.z64HiWrite p off v) s (fun d => d.regs = s.d.regs ∧ d.z64 = s.d.z64)) ∧
    (∀ k, k < 6 → low k → ready → Runs (.z64LoRead p off) s (fun d => d.out = .read p (s.d.word (b + z64Off k) % 2 ^ 16) :: s.d.out ∧ d.regs = s.d.regs ∧
      d.z64Hi g k = s.d.word (b + z64Off k) / 2 ^ 16 % 16)) ∧
    (∀ k, k < 6 → high k → Runs (.z64HiRead p off) s (fun d => d.out = .read p (s.d.z64Hi g k) :: s.d.out ∧ d.regs = s.d.regs ∧ d.z64 = s.d.z64)) ∧
    (∀ j, j < 3 → off.toNat = base + 0x30 + 4 * j → ready →
      (v.toNat % 2 ^ 16 ≤ 255 → Runs (.z64TimeWrite p off v) s (fun d => d.word (b + 0x400 + 4 * j) % 2 ^ 20 = v.toNat % 2 ^ 16 * 4096 ∧ d.z64 = s.d.z64)) ∧
      (255 < v.toNat % 2 ^ 16 → Runs (.z64TimeWrite p off v) s (fun d => d.word (b + 0x400 + 4 * j) % 2 ^ 20 = 0xFFFFF ∧ d.z64.tsat = true))) ∧
    (off = 0xC → (bitOf v.toNat 0 = false → Runs (.z64Strobe p v) s (fun d => d.regs = s.d.regs ∧ d.clus = s.d.clus)) ∧
      (bitOf v.toNat 0 = true → (∀ n, n < 2 → s.d.bit (wfgBase n) .PG_STAT_SELFTEST = false ∧ bitOf (s.d.word (wfgBase n + 0xF00)) 1 = true ∧ s.d.stbHolds n = false ∧ s.d.stbJoin n 2 [] = none ∧ s.d.stbDue n s.d.time = []) →
        (∀ t : Fin 8, s.d.txnWaits t 1 = false) → s.d.present 1 = true → Runs (.z64Strobe p v) s (fun d => ∀ n, n < 2 →
          d.get (wfgBase n) .WFG_STB_CNT_COUNT = Nat.min (s.d.get (wfgBase n) .WFG_STB_CNT_COUNT + 1) (2 ^ 32 - 1) ∧ d.get (wfgBase n) .WFG_STB_SRC_SRC = 2))) ∧
    (off = 0x10 → s.d.bit clkB .PG_STAT_SELFTEST = false →
      (1 ≤ v.toNat % 16 → v.toNat % 16 ≤ 8 → s.d.bit clkB .PG_STAT_GATED = false → s.d.vpBusy 0 = false → Runs (.z64Period p v) s (fun d =>
        d.get clkB .CLK_VP_PERIOD_PERIOD = v.toNat % 16 * 4096 ∧ d.z64 = s.d.z64)) ∧
      (v.toNat % 16 = 0 ∨ 8 < v.toNat % 16 → Runs (.z64Period p v) s (fun d => d.z64 = { s.d.z64 with tsat := true } ∧ d.regs = s.d.regs))) ∧
    (off = 0x14 → s.d.bitN glbB .GLB_CL_RST_BUSY_CLUSTER (v.toNat % 64 / 32) = false →
      (s.d.ctxState (v.toNat % 64) = 2 → Runs (.z64Start p v) s (fun d => ∃ r ∈ (d.eng (v.toNat % 64 / 32)).queue, r.slot = 0x22 ∧ r.ctx = v.toNat % 64)) ∧
      (s.d.ctxState (v.toNat % 64) = 7 → s.d.bit hifB .HIF_ERR_FIRST_VALID = false → Runs (.z64Start p v) s (fun d => d.engs = s.d.engs ∧ d.bit hifB .HIF_ERR_FIRST_VALID = true ∧
        d.get hifB .HIF_ERR_FIRST_CAUSE = 8)) ∧
      (s.d.ctxState (v.toNat % 64) ≠ 2 → s.d.ctxState (v.toNat % 64) ≠ 7 → Runs (.z64Start p v) s (fun d => d.regs = s.d.regs ∧ d.engs = s.d.engs))) ∧
    (off.toNat = base + 0x3C → ready → s.d.bit b .PG_CTRL_EN = bitOf v.toNat 0 → Runs (.z64CtrlWrite p ch v) s (fun d => d.get b .PMU_CTRL_MEAS = v.toNat / 8 % 2 ∧
      d.get b .PMU_CTRL_MODE % 4 = v.toNat / 2 % 4 ∧ d.bit b .PG_CTRL_EN = bitOf v.toNat 0)) ∧
    (off.toNat = base + 0x3C → ready → s.d.bit b .PG_CTRL_EN = false → bitOf v.toNat 0 = true → (s.d.pin g).safe = false → Runs (.z64CtrlWrite p ch v) s (fun d => d.bit b .PG_CTRL_EN = true))

/-- While any transaction slot is OPEN, PREPARING or PENDING, every conforming read of the window returns 0, every write is discarded, holders and latches stay, and
each access is logged with cause Z64_BLOCKED (R482). -/
def Obligations.LegacyWindowBlocked : Prop :=
  ∀ (s : State) (p : HPort) (a : BitVec 24) (x : BitVec 64), 0x10000 ≤ a.toNat → a.toNat < 0x20000 → a.toNat % 4 = 0 → s.d.reaches p a.toNat = true → s.d.present 0 = true →
    s.d.txnOpen = true →
    let logged := fun (wr : Bool) (d : Dev) => d.z64 = s.d.z64 ∧ d.pins = s.d.pins ∧ d.engs = s.d.engs ∧ d.ctxs = s.d.ctxs ∧
      (∀ b, b ∉ [hifB + 0x44, hifB + 0x48, hifB + 0x4C, mspB + 0x58] → d.word b = s.d.word b) ∧
      d.get hifB .HIF_ERR_WR_CNT_COUNT = (if wr then Nat.min (s.d.get hifB .HIF_ERR_WR_CNT_COUNT + 1) (2 ^ 32 - 1) else s.d.get hifB .HIF_ERR_WR_CNT_COUNT) ∧
      d.get hifB .HIF_ERR_RD_CNT_COUNT = (if wr then s.d.get hifB .HIF_ERR_RD_CNT_COUNT else Nat.min (s.d.get hifB .HIF_ERR_RD_CNT_COUNT + 1) (2 ^ 32 - 1)) ∧
      (s.d.bit hifB .HIF_ERR_FIRST_VALID = false → d.bit hifB .HIF_ERR_FIRST_VALID = true ∧ d.get hifB .HIF_ERR_FIRST_CAUSE = 7 ∧ d.get hifB .HIF_ERR_FIRST_ADDR = a.toNat)
    Runs (.registerRead p a (.bar0 false)) s (fun d => logged false d ∧ d.out = .read p 0 :: s.d.out) ∧
    Runs (.registerWrite p a (.bar0 false) x) s (fun d => logged true d ∧ d.out = s.d.out) ∧
    (a.toNat = 0x10014 → Runs (.z64Start p (BitVec.ofNat 32 x.toNat)) s (logged true))

/-- Cold resets (R469, R470, R431), outside fuse programming and an advance; and warm resets (R469, R470, R498). -/
def Obligations.Resets : Prop :=
  (∀ s : State, s.d.get bstB .PG_STAT_STATE ≠ 2 → s.d.lcs.adv = none →
    let after := fun (cause first : Nat) (d : Dev) =>
      d.word (glbB + 0x4C) = cause ∧ d.word (fltB + 0x5C) = first ∧ d.clkState = 0 ∧
      (∀ a, a ∉ [glbB + 0x4C, fltB + 0x5C, lcsB + 0xC, lcsB + 0x40] → d.word a = (resetWord a).toNat) ∧
      d.get lcsB .LCS_STATE_STATE = s.d.fuse.life % 16 ∧
      d.ctxs = [] ∧ d.engs = [] ∧ d.pins = [] ∧ d.dpss = [] ∧ d.calA = [] ∧ d.hif.served = false ∧ d.time = 0 ∧ d.fuse = s.d.fuse
    Runs .porN s (fun d => after (if s.d.rst.supply then 3 else 1) (s.d.word (fltB + 0x40)) d ∧ d.rst.por = true) ∧
    (s.d.pow.stop = false → Runs .supply s (fun d => after (if s.d.rst.por then 3 else 2) (s.d.word (fltB + 0x40)) d ∧ d.rst.supply = true)) ∧
    Runs .vaonLoss s (fun d => after (if s.d.rst.supply then 3 else 1) 0 d ∧ d.rst.por = true) ∧
    Runs .porNRelease s (fun d => d = { s.d with rst := { s.d.rst with por := false } }) ∧
    Runs .supplyReturn s (fun d => d = { s.d with rst := { s.d.rst with supply := false } }) ∧
    Runs .perstNRelease s (fun d => d = { s.d with rst := { s.d.rst with perst := false } })) ∧
  (∀ s : State,
    let after := fun (cause busy : Nat) (d : Dev) =>
      d.word (glbB + 0x4C) = setBits (s.d.word (glbB + 0x4C)) cause 1 1 ∧ d.rst.busy = some busy ∧ d.hif.served = false ∧ d.hif.enable = false ∧
      d.ctxs = [] ∧ d.engs = [] ∧ d.pins = [] ∧ d.pmus = [] ∧ d.dpss = [] ∧ d.tdcs = [] ∧ d.txn = [] ∧
      d.fuse = s.d.fuse ∧ d.calS = s.d.calS ∧ d.calA = s.d.calA ∧ d.calI = s.d.calI ∧ d.bst.soft = s.d.bst.soft ∧
      ∀ a ∈ aonWords, d.word a = s.d.word a
    (s.d.pow.stop = false → s.d.rst.perst = false → s.d.coldHeld = false → Runs .perst s (fun d => after 2 0 d ∧ d.rst.perst = true)) ∧
    (s.d.bit hifB .HIF_LINK_UP = true → Runs .flr s (fun d => after 4 1 d ∧ d.word (hifB + 0x40) = s.d.word (hifB + 0x40))) ∧
    (∀ (p : HPort) (v : Word), s.d.reaches p (glbB + 0x48) = true → v.toNat / 256 % 256 = 0xC7 → v.toNat % 2 = 1 →
      Runs (.glbRstCtrl p v) s (after 3 0)) ∧
    (s.d.rst.busy ≠ none → s.d.rst.perst = false → Runs .warmResetDone s (fun d =>
      d = { s.d with rst := { s.d.rst with busy := none }, hif := { s.d.hif with served := s.d.clkState == 2 } })))


/-- Commands that complete with their own effect: a write of a register that has txn fields, while capture is on, joins its slot (R43); a commit that waited for
a slice applies, late (R50); a HOST measurement starts, and a conversion joins it or ends it (R199); a detected PMU fault sets its bits (R215). -/
def Obligations.StagedAndMeasured : Prop :=
  (∀ (s : State) (a : BitVec 24) (v : BitVec 64) (k : Nat) (kind : PageKind) (base off : Nat) (row : RegRow),
    s.d.pcieOk = true → s.d.heldNow a.toNat = false → s.d.capSlot = some k → (s.d.slot k).writes.length < 4096 → (addrCluster a.toNat).any (fun n => !s.d.present n) = false →
    areaOf a.toNat = .page kind base off → s.d.bit base .PG_STAT_SELFTEST = false → s.d.bit base .PG_STAT_GATED = false → a.toNat % 8 = 0 →
    rowAt kind base off = some (row, false) → row.txn ≠ 0 → Nat.land (andNot (fullMask row.wide) row.txn) row.acc = 0 →
    ∃ t, exec (.txnStageWrite a row.wide v) s = .next t ∧ t.pending = s.pending ∧ t.store = s.store ∧ t.d.word a.toNat = s.d.word a.toNat ∧
      (t.d.slot k).writes = (s.d.slot k).writes ++ [(a.toNat, row.txn, v.toNat % 2 ^ (if row.wide then 64 else 32))]) ∧
  (∀ (s : State) (k : Fin 8) (late : Nat), s.d.txnState k = 3 → (s.d.slot k).waitT = some late → s.d.txnBlocked k = false →
    ((s.d.slot k).writes = [] →
      ∃ t, exec (.txnLateApply k) s = .next t ∧ t.pending = s.pending ∧ t.d.txnState k = 4 ∧ t.d.bit (txnReg k) .TXN_STAT_LATE = true ∧
        t.d.get (txnReg k) .TXN_LATE_TICKS_TICKS = Nat.min ((s.d.time - late) / 1024) (2 ^ 32 - 1)) ∧
    (∀ (a mask v : Nat) (kind : PageKind) (base off : Nat) (row : RegRow), (s.d.slot k).writes = [(a, mask, v)] → areaOf a = .page kind base off → base + off = a →
      kind ∈ [PageKind.seq, .acq, .tdc] → 0x40 ≤ off → rowAt kind base off = some (row, false) → row.wide = false → row.w1c = 0 → row.w1s = 0 →
      ∃ t, exec (.txnLateApply k) s = .next t ∧ t.pending = s.pending ∧ t.d.txnState k = 4 ∧ t.d.bit (txnReg k) .TXN_STAT_LATE = true ∧
        ∀ i, i < 32 → (t.d.word a).testBit i = (if mask.testBit i && row.rw.testBit i then v.testBit i else (s.d.word a).testBit i))) ∧
  (∀ (s : State) (g : Fin 1024),
    let b := pinBase g
    (∀ p, s.d.reaches p (b + 0x230) = true → s.d.get b .PMU_ADC_CFG_MODE = 1 →
      ∃ t, exec (.pmuAdcGo p g) s = .next t ∧ t.pending = s.pending ∧ t.d.bit b .PMU_ADC_RSTAT_BUSY = true ∧ t.d.bit b .PMU_ADC_RSTAT_DONE = false ∧
        (t.d.pmu g).host = {} ∧ (t.d.pmu g).hostLog = s.d.get b .PMU_ADC_CFG_AVG) ∧
    (∀ raw overlap, s.d.clState (g / 32) ≤ 2 → s.d.bit b .PMU_ADC_RSTAT_BUSY = true → s.d.get b .PMU_STAT_MODE_NOW ≠ 0 → (s.d.pmu g).measSw = false →
      (s.d.pmu g).seq ≠ .range →
      ∃ t, exec (.pmuConversion g raw overlap) s = .next t ∧ t.pending = s.pending ∧
        (t.d.bit b .PMU_ADC_RSTAT_BUSY = decide ((s.d.pmu g).host.n + 1 < 2 ^ (s.d.pmu g).hostLog)) ∧
        (2 ^ (s.d.pmu g).hostLog ≤ (s.d.pmu g).host.n + 1 → t.d.bit b .PMU_ADC_RSTAT_DONE = true)) ∧
    (∀ sw : Bool, s.d.srcSlice (srcWord 0x28 g (if sw then 17 else 16)) = none →
      ∃ t, exec (.pmuFaultDetect g sw) s = .next t ∧ t.pending = s.pending ∧ t.d.bit b (if sw then .PMU_FLT_SW_MISMATCH else .PMU_FLT_PMU_OC) = true ∧
        t.d.bitN (wfgBase (g / 32)) .PG_FLT_STAT_BITS 31 = true ∧ t.d.bitN (wfgBase (g / 32)) .WFG_PMU_FLT_CH (g % 32) = true))
end

