-- ==== Sys2Proof/Laws/Tab.lean ====
section
/-! SUPPORT. Sparse tables: what a read gives after a write, and that a write keeps the canonical form. -/

namespace Sys2Proof

variable {α : Type}

@[simp] theorem Tab.get_nil (dflt : Nat → α) (k : Nat) : Tab.get dflt [] k = dflt k := rfl

theorem Tab.get_cons (dflt : Nat → α) (a : Nat) (v : α) (t : Tab α) (k : Nat) :
    Tab.get dflt ((a, v) :: t) k = if a = k then v else Tab.get dflt t k := rfl

theorem Tab.get_erase_same (dflt : Nat → α) (t : Tab α) (k : Nat) : Tab.get dflt (Tab.erase t k) k = dflt k := by
  induction t with
  | nil => rfl
  | cons e t ih => obtain ⟨a, v⟩ := e; simp only [Tab.erase]; split <;> simp_all [Tab.get]

theorem Tab.get_erase_ne (dflt : Nat → α) (t : Tab α) {k j : Nat} (h : j ≠ k) :
    Tab.get dflt (Tab.erase t k) j = Tab.get dflt t j := by
  induction t with
  | nil => rfl
  | cons e t ih =>
    obtain ⟨a, v⟩ := e
    simp only [Tab.erase]
    split
    · next hk => subst hk; simp [Tab.get, ih, Ne.symm h]
    · simp [Tab.get, ih]

theorem Tab.get_insert_same (dflt : Nat → α) (t : Tab α) (k : Nat) (v : α) : Tab.get dflt (Tab.insert t k v) k = v := by
  induction t with
  | nil => simp [Tab.insert, Tab.get]
  | cons e t ih =>
    obtain ⟨a, w⟩ := e
    simp only [Tab.insert]
    split
    · next h => simp [Tab.get, ih, Nat.ne_of_lt h]
    · split <;> simp [Tab.get]

theorem Tab.get_insert_ne (dflt : Nat → α) (t : Tab α) {k j : Nat} (v : α) (h : j ≠ k) :
    Tab.get dflt (Tab.insert t k v) j = Tab.get dflt t j := by
  induction t with
  | nil => simp [Tab.insert, Tab.get, Ne.symm h]
  | cons e t ih =>
    obtain ⟨a, w⟩ := e
    simp only [Tab.insert]
    split
    · simp [Tab.get, ih]
    · split
      · next _ hk => subst hk; simp [Tab.get, Ne.symm h]
      · simp [Tab.get, Ne.symm h]

section
variable [DecidableEq α]

@[simp] theorem Tab.get_set_same (dflt : Nat → α) (t : Tab α) (k : Nat) (v : α) : Tab.get dflt (Tab.set dflt t k v) k = v := by
  unfold Tab.set
  split
  · next h => rw [Tab.get_erase_same, h]
  · exact Tab.get_insert_same ..

theorem Tab.get_set_ne (dflt : Nat → α) (t : Tab α) {k j : Nat} (v : α) (h : j ≠ k) :
    Tab.get dflt (Tab.set dflt t k v) j = Tab.get dflt t j := by
  unfold Tab.set
  split
  · exact Tab.get_erase_ne dflt t h
  · exact Tab.get_insert_ne dflt t v h

theorem Tab.get_set (dflt : Nat → α) (t : Tab α) (k j : Nat) (v : α) :
    Tab.get dflt (Tab.set dflt t k v) j = if j = k then v else Tab.get dflt t j := by
  split
  · next h => subst h; exact Tab.get_set_same ..
  · next h => exact Tab.get_set_ne _ _ _ h

end

/-! ### The canonical form -/

/-- Every key of a table lies above a bound. -/
def Tab.above (t : Tab α) (a : Nat) : Bool := t.all (fun e => decide (a < e.1))

theorem Tab.sorted_cons (a : Nat) (v : α) (t : Tab α) : Tab.sorted ((a, v) :: t) = true ↔ Tab.above t a = true ∧ Tab.sorted t = true := by
  induction t generalizing a v with
  | nil => simp [Tab.sorted, Tab.above]
  | cons e t ih =>
    obtain ⟨b, w⟩ := e
    simp only [Tab.sorted, Tab.above, List.all_cons, Bool.and_eq_true, decide_eq_true_eq]
    constructor
    · rintro ⟨hab, hs⟩
      refine ⟨⟨hab, ?_⟩, hs⟩
      have := ((ih b w).1 hs).1
      simp only [Tab.above, List.all_eq_true, decide_eq_true_eq] at this ⊢
      exact fun x hx => Nat.lt_trans hab (this x hx)
    · rintro ⟨⟨hab, _⟩, hs⟩
      exact ⟨hab, hs⟩

theorem Tab.above_insert (t : Tab α) (a k : Nat) (v : α) (h : Tab.above t a = true) (hk : a < k) : Tab.above (Tab.insert t k v) a = true := by
  induction t with
  | nil => simpa [Tab.insert, Tab.above] using hk
  | cons e t ih =>
    obtain ⟨b, w⟩ := e
    simp only [Tab.above, List.all_cons, Bool.and_eq_true, decide_eq_true_eq] at h ih ⊢
    simp only [Tab.insert]
    split
    · simpa using ⟨h.1, by simpa using ih h.2⟩
    · split
      · simpa using ⟨hk, by simpa using h.2⟩
      · simpa using ⟨hk, h.1, by simpa using h.2⟩

theorem Tab.above_erase (t : Tab α) (a k : Nat) (h : Tab.above t a = true) : Tab.above (Tab.erase t k) a = true := by
  induction t with
  | nil => rfl
  | cons e t ih =>
    obtain ⟨b, w⟩ := e
    simp only [Tab.above, List.all_cons, Bool.and_eq_true, decide_eq_true_eq] at h ih ⊢
    simp only [Tab.erase]
    split
    · exact ih h.2
    · simpa using ⟨h.1, by simpa using ih h.2⟩

theorem Tab.sorted_insert (t : Tab α) (k : Nat) (v : α) (h : Tab.sorted t = true) : Tab.sorted (Tab.insert t k v) = true := by
  induction t with
  | nil => rfl
  | cons e t ih =>
    obtain ⟨b, w⟩ := e
    rw [Tab.sorted_cons] at h
    simp only [Tab.insert]
    split
    · next hb => exact (Tab.sorted_cons ..).2 ⟨Tab.above_insert t b k v h.1 hb, ih h.2⟩
    · split
      · next hb => subst hb; exact (Tab.sorted_cons ..).2 h
      · next hb hb' =>
        have hk : k < b := by omega
        refine (Tab.sorted_cons ..).2 ⟨?_, (Tab.sorted_cons ..).2 h⟩
        have h1 := h.1
        simp only [Tab.above, List.all_eq_true, decide_eq_true_eq, List.all_cons, Bool.and_eq_true] at h1 ⊢
        exact ⟨hk, fun x hx => Nat.lt_trans hk (h1 x hx)⟩

theorem Tab.sorted_erase (t : Tab α) (k : Nat) (h : Tab.sorted t = true) : Tab.sorted (Tab.erase t k) = true := by
  induction t with
  | nil => rfl
  | cons e t ih =>
    obtain ⟨b, w⟩ := e
    rw [Tab.sorted_cons] at h
    simp only [Tab.erase]
    split
    · exact ih h.2
    · exact (Tab.sorted_cons ..).2 ⟨Tab.above_erase t b k h.1, ih h.2⟩

theorem Tab.mem_erase (t : Tab α) (k : Nat) (e : Nat × α) (h : e ∈ Tab.erase t k) : e ∈ t := by
  induction t with
  | nil => exact h
  | cons x t ih =>
    obtain ⟨b, w⟩ := x
    simp only [Tab.erase] at h
    split at h
    · exact List.mem_cons_of_mem _ (ih h)
    · rcases List.mem_cons.1 h with h | h
      · exact h ▸ List.mem_cons_self
      · exact List.mem_cons_of_mem _ (ih h)

theorem Tab.mem_insert (t : Tab α) (k : Nat) (v : α) (e : Nat × α) (h : e ∈ Tab.insert t k v) : e = (k, v) ∨ e ∈ t := by
  induction t with
  | nil => simpa [Tab.insert] using h
  | cons x t ih =>
    obtain ⟨b, w⟩ := x
    simp only [Tab.insert] at h
    split at h
    · rcases List.mem_cons.1 h with h | h
      · exact .inr (h ▸ List.mem_cons_self)
      · exact (ih h).imp id (List.mem_cons_of_mem _)
    · split at h
      · rcases List.mem_cons.1 h with h | h
        · exact .inl h
        · exact .inr (List.mem_cons_of_mem _ h)
      · rcases List.mem_cons.1 h with h | h
        · exact .inl h
        · exact .inr h

section
variable [DecidableEq α]

/-- What a table holds after a write is the pair written or was there before. -/
theorem Tab.mem_set (dflt : Nat → α) (t : Tab α) (k : Nat) (v : α) (e : Nat × α) (h : e ∈ Tab.set dflt t k v) : e = (k, v) ∨ e ∈ t := by
  unfold Tab.set at h
  split at h
  · exact .inr (Tab.mem_erase t k e h)
  · exact Tab.mem_insert t k v e h

theorem Tab.wf_iff (dflt : Nat → α) (t : Tab α) :
    Tab.wf dflt t = true ↔ Tab.sorted t = true ∧ ∀ e ∈ t, e.2 ≠ dflt e.1 := by
  simp [Tab.wf]

/-- A write keeps the canonical form. -/
theorem Tab.wf_set (dflt : Nat → α) (t : Tab α) (k : Nat) (v : α) (h : Tab.wf dflt t = true) : Tab.wf dflt (Tab.set dflt t k v) = true := by
  rw [Tab.wf_iff] at h ⊢
  unfold Tab.set
  split
  · exact ⟨Tab.sorted_erase t k h.1, fun e he => h.2 e (Tab.mem_erase t k e he)⟩
  · next hv =>
    refine ⟨Tab.sorted_insert t k v h.1, fun e he => ?_⟩
    rcases Tab.mem_insert t k v e he with rfl | he
    · exact hv
    · exact h.2 e he

end

end Sys2Proof
end

