-- ==== Sys2Proof/Laws/State.lean ====
section
/-! SUPPORT. What each update of the block leaves in each field, and what each named read gives after each named write: no proof has to
unfold a record update. -/

namespace Sys2Proof.Machine

variable (d : Dev)

/-! ### Register words: every other field stays -/

/-- What no register word changes, a write of a field does not change. -/
theorem Dev.put_frame {β : Type} (P : Dev → β) (h : ∀ (d : Dev) (a v : Nat), P (d.setWord a v) = P d) (b : Nat) (f : Fld) (v : Nat) :
    P (d.put b f v) = P d := by
  unfold Dev.put
  split
  · exact h ..
  · exact (h ..).trans (h ..)

@[simp] theorem Dev.setWord_snap (a v : Nat) : (d.setWord a v).snap = d.snap := rfl
@[simp] theorem Dev.setWord_snapHi (a v : Nat) : (d.setWord a v).snapHi = d.snapHi := rfl
@[simp] theorem Dev.setWord_fuse (a v : Nat) : (d.setWord a v).fuse = d.fuse := rfl
@[simp] theorem Dev.setWord_hif (a v : Nat) : (d.setWord a v).hif = d.hif := rfl
@[simp] theorem Dev.setWord_txn (a v : Nat) : (d.setWord a v).txn = d.txn := rfl
@[simp] theorem Dev.setWord_time (a v : Nat) : (d.setWord a v).time = d.time := rfl
@[simp] theorem Dev.setWord_pins (a v : Nat) : (d.setWord a v).pins = d.pins := rfl
@[simp] theorem Dev.setWord_pmus (a v : Nat) : (d.setWord a v).pmus = d.pmus := rfl
@[simp] theorem Dev.setWord_dpss (a v : Nat) : (d.setWord a v).dpss = d.dpss := rfl
@[simp] theorem Dev.setWord_tdcs (a v : Nat) : (d.setWord a v).tdcs = d.tdcs := rfl
@[simp] theorem Dev.setWord_gens (a v : Nat) : (d.setWord a v).gens = d.gens := rfl
@[simp] theorem Dev.setWord_ctxs (a v : Nat) : (d.setWord a v).ctxs = d.ctxs := rfl
@[simp] theorem Dev.setWord_engs (a v : Nat) : (d.setWord a v).engs = d.engs := rfl
@[simp] theorem Dev.setWord_clus (a v : Nat) : (d.setWord a v).clus = d.clus := rfl
@[simp] theorem Dev.setWord_blankArm (a v : Nat) : (d.setWord a v).blankArm = d.blankArm := rfl
@[simp] theorem Dev.setWord_startQ (a v : Nat) : (d.setWord a v).startQ = d.startQ := rfl
@[simp] theorem Dev.setWord_blankOpen (a v : Nat) : (d.setWord a v).blankOpen = d.blankOpen := rfl
@[simp] theorem Dev.setWord_cache (a v : Nat) : (d.setWord a v).cache = d.cache := rfl
@[simp] theorem Dev.setWord_fills (a v : Nat) : (d.setWord a v).fills = d.fills := rfl
@[simp] theorem Dev.setWord_strms (a v : Nat) : (d.setWord a v).strms = d.strms := rfl
@[simp] theorem Dev.setWord_bufs (a v : Nat) : (d.setWord a v).bufs = d.bufs := rfl
@[simp] theorem Dev.setWord_mbs (a v : Nat) : (d.setWord a v).mbs = d.mbs := rfl
@[simp] theorem Dev.setWord_coal (a v : Nat) : (d.setWord a v).coal = d.coal := rfl
@[simp] theorem Dev.setWord_calS (a v : Nat) : (d.setWord a v).calS = d.calS := rfl
@[simp] theorem Dev.setWord_calA (a v : Nat) : (d.setWord a v).calA = d.calA := rfl
@[simp] theorem Dev.setWord_calI (a v : Nat) : (d.setWord a v).calI = d.calI := rfl
@[simp] theorem Dev.setWord_hist (a v : Nat) : (d.setWord a v).hist = d.hist := rfl
@[simp] theorem Dev.setWord_lnk (a v : Nat) : (d.setWord a v).lnk = d.lnk := rfl
@[simp] theorem Dev.setWord_ras (a v : Nat) : (d.setWord a v).ras = d.ras := rfl
@[simp] theorem Dev.setWord_pow (a v : Nat) : (d.setWord a v).pow = d.pow := rfl
@[simp] theorem Dev.setWord_thm (a v : Nat) : (d.setWord a v).thm = d.thm := rfl
@[simp] theorem Dev.setWord_flt (a v : Nat) : (d.setWord a v).flt = d.flt := rfl
@[simp] theorem Dev.setWord_bst (a v : Nat) : (d.setWord a v).bst = d.bst := rfl
@[simp] theorem Dev.setWord_lcs (a v : Nat) : (d.setWord a v).lcs = d.lcs := rfl
@[simp] theorem Dev.setWord_rst (a v : Nat) : (d.setWord a v).rst = d.rst := rfl
@[simp] theorem Dev.setWord_msp (a v : Nat) : (d.setWord a v).msp = d.msp := rfl
@[simp] theorem Dev.setWord_z64 (a v : Nat) : (d.setWord a v).z64 = d.z64 := rfl
@[simp] theorem Dev.setWord_dumps (a v : Nat) : (d.setWord a v).dumps = d.dumps := rfl
@[simp] theorem Dev.setWord_out (a v : Nat) : (d.setWord a v).out = d.out := rfl
@[simp] theorem Dev.setWord_free (a v : Nat) : (d.setWord a v).free = d.free := rfl
@[simp] theorem Dev.setWord_pin (a v : Nat) (g' : Nat) : (d.setWord a v).pin g' = d.pin g' := rfl
@[simp] theorem Dev.setWord_pmu (a v : Nat) (g' : Nat) : (d.setWord a v).pmu g' = d.pmu g' := rfl
@[simp] theorem Dev.setWord_dp (a v : Nat) (k' : Nat) : (d.setWord a v).dp k' = d.dp k' := rfl
@[simp] theorem Dev.setWord_tdc (a v : Nat) (g' : Nat) : (d.setWord a v).tdc g' = d.tdc g' := rfl
@[simp] theorem Dev.setWord_gen (a v : Nat) (w' : Nat) : (d.setWord a v).gen w' = d.gen w' := rfl
@[simp] theorem Dev.setWord_cx (a v : Nat) (c' : Nat) : (d.setWord a v).cx c' = d.cx c' := rfl
@[simp] theorem Dev.setWord_eng (a v : Nat) (n' : Nat) : (d.setWord a v).eng n' = d.eng n' := rfl
@[simp] theorem Dev.setWord_clu (a v : Nat) (n' : Nat) : (d.setWord a v).clu n' = d.clu n' := rfl
@[simp] theorem Dev.setWord_slot (a v : Nat) (s' : Nat) : (d.setWord a v).slot s' = d.slot s' := rfl
@[simp] theorem Dev.setWord_strm (a v : Nat) (q' : Nat) : (d.setWord a v).strm q' = d.strm q' := rfl
@[simp] theorem Dev.setWord_mb (a v : Nat) (m' : Nat) : (d.setWord a v).mb m' = d.mb m' := rfl
@[simp] theorem Dev.setWord_present (a v : Nat) (n' : Nat) : (d.setWord a v).present n' = d.present n' := rfl

@[simp] theorem Dev.put_snap (b : Nat) (f : Fld) (v : Nat) : (d.put b f v).snap = d.snap := Dev.put_frame d (fun e => e.snap) (fun _ _ _ => rfl) ..
@[simp] theorem Dev.put_snapHi (b : Nat) (f : Fld) (v : Nat) : (d.put b f v).snapHi = d.snapHi := Dev.put_frame d (fun e => e.snapHi) (fun _ _ _ => rfl) ..
@[simp] theorem Dev.put_fuse (b : Nat) (f : Fld) (v : Nat) : (d.put b f v).fuse = d.fuse := Dev.put_frame d (fun e => e.fuse) (fun _ _ _ => rfl) ..
@[simp] theorem Dev.put_hif (b : Nat) (f : Fld) (v : Nat) : (d.put b f v).hif = d.hif := Dev.put_frame d (fun e => e.hif) (fun _ _ _ => rfl) ..
@[simp] theorem Dev.put_txn (b : Nat) (f : Fld) (v : Nat) : (d.put b f v).txn = d.txn := Dev.put_frame d (fun e => e.txn) (fun _ _ _ => rfl) ..
@[simp] theorem Dev.put_time (b : Nat) (f : Fld) (v : Nat) : (d.put b f v).time = d.time := Dev.put_frame d (fun e => e.time) (fun _ _ _ => rfl) ..
@[simp] theorem Dev.put_pins (b : Nat) (f : Fld) (v : Nat) : (d.put b f v).pins = d.pins := Dev.put_frame d (fun e => e.pins) (fun _ _ _ => rfl) ..
@[simp] theorem Dev.put_pmus (b : Nat) (f : Fld) (v : Nat) : (d.put b f v).pmus = d.pmus := Dev.put_frame d (fun e => e.pmus) (fun _ _ _ => rfl) ..
@[simp] theorem Dev.put_dpss (b : Nat) (f : Fld) (v : Nat) : (d.put b f v).dpss = d.dpss := Dev.put_frame d (fun e => e.dpss) (fun _ _ _ => rfl) ..
@[simp] theorem Dev.put_tdcs (b : Nat) (f : Fld) (v : Nat) : (d.put b f v).tdcs = d.tdcs := Dev.put_frame d (fun e => e.tdcs) (fun _ _ _ => rfl) ..
@[simp] theorem Dev.put_gens (b : Nat) (f : Fld) (v : Nat) : (d.put b f v).gens = d.gens := Dev.put_frame d (fun e => e.gens) (fun _ _ _ => rfl) ..
@[simp] theorem Dev.put_ctxs (b : Nat) (f : Fld) (v : Nat) : (d.put b f v).ctxs = d.ctxs := Dev.put_frame d (fun e => e.ctxs) (fun _ _ _ => rfl) ..
@[simp] theorem Dev.put_engs (b : Nat) (f : Fld) (v : Nat) : (d.put b f v).engs = d.engs := Dev.put_frame d (fun e => e.engs) (fun _ _ _ => rfl) ..
@[simp] theorem Dev.put_clus (b : Nat) (f : Fld) (v : Nat) : (d.put b f v).clus = d.clus := Dev.put_frame d (fun e => e.clus) (fun _ _ _ => rfl) ..
@[simp] theorem Dev.put_blankArm (b : Nat) (f : Fld) (v : Nat) : (d.put b f v).blankArm = d.blankArm := Dev.put_frame d (fun e => e.blankArm) (fun _ _ _ => rfl) ..
@[simp] theorem Dev.put_startQ (b : Nat) (f : Fld) (v : Nat) : (d.put b f v).startQ = d.startQ := Dev.put_frame d (fun e => e.startQ) (fun _ _ _ => rfl) ..
@[simp] theorem Dev.put_blankOpen (b : Nat) (f : Fld) (v : Nat) : (d.put b f v).blankOpen = d.blankOpen := Dev.put_frame d (fun e => e.blankOpen) (fun _ _ _ => rfl) ..
@[simp] theorem Dev.put_cache (b : Nat) (f : Fld) (v : Nat) : (d.put b f v).cache = d.cache := Dev.put_frame d (fun e => e.cache) (fun _ _ _ => rfl) ..
@[simp] theorem Dev.put_fills (b : Nat) (f : Fld) (v : Nat) : (d.put b f v).fills = d.fills := Dev.put_frame d (fun e => e.fills) (fun _ _ _ => rfl) ..
@[simp] theorem Dev.put_strms (b : Nat) (f : Fld) (v : Nat) : (d.put b f v).strms = d.strms := Dev.put_frame d (fun e => e.strms) (fun _ _ _ => rfl) ..
@[simp] theorem Dev.put_bufs (b : Nat) (f : Fld) (v : Nat) : (d.put b f v).bufs = d.bufs := Dev.put_frame d (fun e => e.bufs) (fun _ _ _ => rfl) ..
@[simp] theorem Dev.put_mbs (b : Nat) (f : Fld) (v : Nat) : (d.put b f v).mbs = d.mbs := Dev.put_frame d (fun e => e.mbs) (fun _ _ _ => rfl) ..
@[simp] theorem Dev.put_coal (b : Nat) (f : Fld) (v : Nat) : (d.put b f v).coal = d.coal := Dev.put_frame d (fun e => e.coal) (fun _ _ _ => rfl) ..
@[simp] theorem Dev.put_calS (b : Nat) (f : Fld) (v : Nat) : (d.put b f v).calS = d.calS := Dev.put_frame d (fun e => e.calS) (fun _ _ _ => rfl) ..
@[simp] theorem Dev.put_calA (b : Nat) (f : Fld) (v : Nat) : (d.put b f v).calA = d.calA := Dev.put_frame d (fun e => e.calA) (fun _ _ _ => rfl) ..
@[simp] theorem Dev.put_calI (b : Nat) (f : Fld) (v : Nat) : (d.put b f v).calI = d.calI := Dev.put_frame d (fun e => e.calI) (fun _ _ _ => rfl) ..
@[simp] theorem Dev.put_hist (b : Nat) (f : Fld) (v : Nat) : (d.put b f v).hist = d.hist := Dev.put_frame d (fun e => e.hist) (fun _ _ _ => rfl) ..
@[simp] theorem Dev.put_lnk (b : Nat) (f : Fld) (v : Nat) : (d.put b f v).lnk = d.lnk := Dev.put_frame d (fun e => e.lnk) (fun _ _ _ => rfl) ..
@[simp] theorem Dev.put_ras (b : Nat) (f : Fld) (v : Nat) : (d.put b f v).ras = d.ras := Dev.put_frame d (fun e => e.ras) (fun _ _ _ => rfl) ..
@[simp] theorem Dev.put_pow (b : Nat) (f : Fld) (v : Nat) : (d.put b f v).pow = d.pow := Dev.put_frame d (fun e => e.pow) (fun _ _ _ => rfl) ..
@[simp] theorem Dev.put_thm (b : Nat) (f : Fld) (v : Nat) : (d.put b f v).thm = d.thm := Dev.put_frame d (fun e => e.thm) (fun _ _ _ => rfl) ..
@[simp] theorem Dev.put_flt (b : Nat) (f : Fld) (v : Nat) : (d.put b f v).flt = d.flt := Dev.put_frame d (fun e => e.flt) (fun _ _ _ => rfl) ..
@[simp] theorem Dev.put_bst (b : Nat) (f : Fld) (v : Nat) : (d.put b f v).bst = d.bst := Dev.put_frame d (fun e => e.bst) (fun _ _ _ => rfl) ..
@[simp] theorem Dev.put_lcs (b : Nat) (f : Fld) (v : Nat) : (d.put b f v).lcs = d.lcs := Dev.put_frame d (fun e => e.lcs) (fun _ _ _ => rfl) ..
@[simp] theorem Dev.put_rst (b : Nat) (f : Fld) (v : Nat) : (d.put b f v).rst = d.rst := Dev.put_frame d (fun e => e.rst) (fun _ _ _ => rfl) ..
@[simp] theorem Dev.put_msp (b : Nat) (f : Fld) (v : Nat) : (d.put b f v).msp = d.msp := Dev.put_frame d (fun e => e.msp) (fun _ _ _ => rfl) ..
@[simp] theorem Dev.put_z64 (b : Nat) (f : Fld) (v : Nat) : (d.put b f v).z64 = d.z64 := Dev.put_frame d (fun e => e.z64) (fun _ _ _ => rfl) ..
@[simp] theorem Dev.put_dumps (b : Nat) (f : Fld) (v : Nat) : (d.put b f v).dumps = d.dumps := Dev.put_frame d (fun e => e.dumps) (fun _ _ _ => rfl) ..
@[simp] theorem Dev.put_out (b : Nat) (f : Fld) (v : Nat) : (d.put b f v).out = d.out := Dev.put_frame d (fun e => e.out) (fun _ _ _ => rfl) ..
@[simp] theorem Dev.put_free (b : Nat) (f : Fld) (v : Nat) : (d.put b f v).free = d.free := Dev.put_frame d (fun e => e.free) (fun _ _ _ => rfl) ..
@[simp] theorem Dev.put_pin (b : Nat) (f : Fld) (v : Nat) (g' : Nat) : (d.put b f v).pin g' = d.pin g' := Dev.put_frame d (fun e => e.pin g') (fun _ _ _ => rfl) ..
@[simp] theorem Dev.put_pmu (b : Nat) (f : Fld) (v : Nat) (g' : Nat) : (d.put b f v).pmu g' = d.pmu g' := Dev.put_frame d (fun e => e.pmu g') (fun _ _ _ => rfl) ..
@[simp] theorem Dev.put_dp (b : Nat) (f : Fld) (v : Nat) (k' : Nat) : (d.put b f v).dp k' = d.dp k' := Dev.put_frame d (fun e => e.dp k') (fun _ _ _ => rfl) ..
@[simp] theorem Dev.put_tdc (b : Nat) (f : Fld) (v : Nat) (g' : Nat) : (d.put b f v).tdc g' = d.tdc g' := Dev.put_frame d (fun e => e.tdc g') (fun _ _ _ => rfl) ..
@[simp] theorem Dev.put_gen (b : Nat) (f : Fld) (v : Nat) (w' : Nat) : (d.put b f v).gen w' = d.gen w' := Dev.put_frame d (fun e => e.gen w') (fun _ _ _ => rfl) ..
@[simp] theorem Dev.put_cx (b : Nat) (f : Fld) (v : Nat) (c' : Nat) : (d.put b f v).cx c' = d.cx c' := Dev.put_frame d (fun e => e.cx c') (fun _ _ _ => rfl) ..
@[simp] theorem Dev.put_eng (b : Nat) (f : Fld) (v : Nat) (n' : Nat) : (d.put b f v).eng n' = d.eng n' := Dev.put_frame d (fun e => e.eng n') (fun _ _ _ => rfl) ..
@[simp] theorem Dev.put_clu (b : Nat) (f : Fld) (v : Nat) (n' : Nat) : (d.put b f v).clu n' = d.clu n' := Dev.put_frame d (fun e => e.clu n') (fun _ _ _ => rfl) ..
@[simp] theorem Dev.put_slot (b : Nat) (f : Fld) (v : Nat) (s' : Nat) : (d.put b f v).slot s' = d.slot s' := Dev.put_frame d (fun e => e.slot s') (fun _ _ _ => rfl) ..
@[simp] theorem Dev.put_strm (b : Nat) (f : Fld) (v : Nat) (q' : Nat) : (d.put b f v).strm q' = d.strm q' := Dev.put_frame d (fun e => e.strm q') (fun _ _ _ => rfl) ..
@[simp] theorem Dev.put_mb (b : Nat) (f : Fld) (v : Nat) (m' : Nat) : (d.put b f v).mb m' = d.mb m' := Dev.put_frame d (fun e => e.mb m') (fun _ _ _ => rfl) ..
@[simp] theorem Dev.put_present (b : Nat) (f : Fld) (v : Nat) (n' : Nat) : (d.put b f v).present n' = d.present n' := Dev.put_frame d (fun e => e.present n') (fun _ _ _ => rfl) ..

@[simp] theorem Dev.setb_snap (b : Nat) (f : Fld) (v : Bool) : (d.setb b f v).snap = d.snap := Dev.put_frame d (fun e => e.snap) (fun _ _ _ => rfl) ..
@[simp] theorem Dev.setb_snapHi (b : Nat) (f : Fld) (v : Bool) : (d.setb b f v).snapHi = d.snapHi := Dev.put_frame d (fun e => e.snapHi) (fun _ _ _ => rfl) ..
@[simp] theorem Dev.setb_fuse (b : Nat) (f : Fld) (v : Bool) : (d.setb b f v).fuse = d.fuse := Dev.put_frame d (fun e => e.fuse) (fun _ _ _ => rfl) ..
@[simp] theorem Dev.setb_hif (b : Nat) (f : Fld) (v : Bool) : (d.setb b f v).hif = d.hif := Dev.put_frame d (fun e => e.hif) (fun _ _ _ => rfl) ..
@[simp] theorem Dev.setb_txn (b : Nat) (f : Fld) (v : Bool) : (d.setb b f v).txn = d.txn := Dev.put_frame d (fun e => e.txn) (fun _ _ _ => rfl) ..
@[simp] theorem Dev.setb_time (b : Nat) (f : Fld) (v : Bool) : (d.setb b f v).time = d.time := Dev.put_frame d (fun e => e.time) (fun _ _ _ => rfl) ..
@[simp] theorem Dev.setb_pins (b : Nat) (f : Fld) (v : Bool) : (d.setb b f v).pins = d.pins := Dev.put_frame d (fun e => e.pins) (fun _ _ _ => rfl) ..
@[simp] theorem Dev.setb_pmus (b : Nat) (f : Fld) (v : Bool) : (d.setb b f v).pmus = d.pmus := Dev.put_frame d (fun e => e.pmus) (fun _ _ _ => rfl) ..
@[simp] theorem Dev.setb_dpss (b : Nat) (f : Fld) (v : Bool) : (d.setb b f v).dpss = d.dpss := Dev.put_frame d (fun e => e.dpss) (fun _ _ _ => rfl) ..
@[simp] theorem Dev.setb_tdcs (b : Nat) (f : Fld) (v : Bool) : (d.setb b f v).tdcs = d.tdcs := Dev.put_frame d (fun e => e.tdcs) (fun _ _ _ => rfl) ..
@[simp] theorem Dev.setb_gens (b : Nat) (f : Fld) (v : Bool) : (d.setb b f v).gens = d.gens := Dev.put_frame d (fun e => e.gens) (fun _ _ _ => rfl) ..
@[simp] theorem Dev.setb_ctxs (b : Nat) (f : Fld) (v : Bool) : (d.setb b f v).ctxs = d.ctxs := Dev.put_frame d (fun e => e.ctxs) (fun _ _ _ => rfl) ..
@[simp] theorem Dev.setb_engs (b : Nat) (f : Fld) (v : Bool) : (d.setb b f v).engs = d.engs := Dev.put_frame d (fun e => e.engs) (fun _ _ _ => rfl) ..
@[simp] theorem Dev.setb_clus (b : Nat) (f : Fld) (v : Bool) : (d.setb b f v).clus = d.clus := Dev.put_frame d (fun e => e.clus) (fun _ _ _ => rfl) ..
@[simp] theorem Dev.setb_blankArm (b : Nat) (f : Fld) (v : Bool) : (d.setb b f v).blankArm = d.blankArm := Dev.put_frame d (fun e => e.blankArm) (fun _ _ _ => rfl) ..
@[simp] theorem Dev.setb_startQ (b : Nat) (f : Fld) (v : Bool) : (d.setb b f v).startQ = d.startQ := Dev.put_frame d (fun e => e.startQ) (fun _ _ _ => rfl) ..
@[simp] theorem Dev.setb_blankOpen (b : Nat) (f : Fld) (v : Bool) : (d.setb b f v).blankOpen = d.blankOpen := Dev.put_frame d (fun e => e.blankOpen) (fun _ _ _ => rfl) ..
@[simp] theorem Dev.setb_cache (b : Nat) (f : Fld) (v : Bool) : (d.setb b f v).cache = d.cache := Dev.put_frame d (fun e => e.cache) (fun _ _ _ => rfl) ..
@[simp] theorem Dev.setb_fills (b : Nat) (f : Fld) (v : Bool) : (d.setb b f v).fills = d.fills := Dev.put_frame d (fun e => e.fills) (fun _ _ _ => rfl) ..
@[simp] theorem Dev.setb_strms (b : Nat) (f : Fld) (v : Bool) : (d.setb b f v).strms = d.strms := Dev.put_frame d (fun e => e.strms) (fun _ _ _ => rfl) ..
@[simp] theorem Dev.setb_bufs (b : Nat) (f : Fld) (v : Bool) : (d.setb b f v).bufs = d.bufs := Dev.put_frame d (fun e => e.bufs) (fun _ _ _ => rfl) ..
@[simp] theorem Dev.setb_mbs (b : Nat) (f : Fld) (v : Bool) : (d.setb b f v).mbs = d.mbs := Dev.put_frame d (fun e => e.mbs) (fun _ _ _ => rfl) ..
@[simp] theorem Dev.setb_coal (b : Nat) (f : Fld) (v : Bool) : (d.setb b f v).coal = d.coal := Dev.put_frame d (fun e => e.coal) (fun _ _ _ => rfl) ..
@[simp] theorem Dev.setb_calS (b : Nat) (f : Fld) (v : Bool) : (d.setb b f v).calS = d.calS := Dev.put_frame d (fun e => e.calS) (fun _ _ _ => rfl) ..
@[simp] theorem Dev.setb_calA (b : Nat) (f : Fld) (v : Bool) : (d.setb b f v).calA = d.calA := Dev.put_frame d (fun e => e.calA) (fun _ _ _ => rfl) ..
@[simp] theorem Dev.setb_calI (b : Nat) (f : Fld) (v : Bool) : (d.setb b f v).calI = d.calI := Dev.put_frame d (fun e => e.calI) (fun _ _ _ => rfl) ..
@[simp] theorem Dev.setb_hist (b : Nat) (f : Fld) (v : Bool) : (d.setb b f v).hist = d.hist := Dev.put_frame d (fun e => e.hist) (fun _ _ _ => rfl) ..
@[simp] theorem Dev.setb_lnk (b : Nat) (f : Fld) (v : Bool) : (d.setb b f v).lnk = d.lnk := Dev.put_frame d (fun e => e.lnk) (fun _ _ _ => rfl) ..
@[simp] theorem Dev.setb_ras (b : Nat) (f : Fld) (v : Bool) : (d.setb b f v).ras = d.ras := Dev.put_frame d (fun e => e.ras) (fun _ _ _ => rfl) ..
@[simp] theorem Dev.setb_pow (b : Nat) (f : Fld) (v : Bool) : (d.setb b f v).pow = d.pow := Dev.put_frame d (fun e => e.pow) (fun _ _ _ => rfl) ..
@[simp] theorem Dev.setb_thm (b : Nat) (f : Fld) (v : Bool) : (d.setb b f v).thm = d.thm := Dev.put_frame d (fun e => e.thm) (fun _ _ _ => rfl) ..
@[simp] theorem Dev.setb_flt (b : Nat) (f : Fld) (v : Bool) : (d.setb b f v).flt = d.flt := Dev.put_frame d (fun e => e.flt) (fun _ _ _ => rfl) ..
@[simp] theorem Dev.setb_bst (b : Nat) (f : Fld) (v : Bool) : (d.setb b f v).bst = d.bst := Dev.put_frame d (fun e => e.bst) (fun _ _ _ => rfl) ..
@[simp] theorem Dev.setb_lcs (b : Nat) (f : Fld) (v : Bool) : (d.setb b f v).lcs = d.lcs := Dev.put_frame d (fun e => e.lcs) (fun _ _ _ => rfl) ..
@[simp] theorem Dev.setb_rst (b : Nat) (f : Fld) (v : Bool) : (d.setb b f v).rst = d.rst := Dev.put_frame d (fun e => e.rst) (fun _ _ _ => rfl) ..
@[simp] theorem Dev.setb_msp (b : Nat) (f : Fld) (v : Bool) : (d.setb b f v).msp = d.msp := Dev.put_frame d (fun e => e.msp) (fun _ _ _ => rfl) ..
@[simp] theorem Dev.setb_z64 (b : Nat) (f : Fld) (v : Bool) : (d.setb b f v).z64 = d.z64 := Dev.put_frame d (fun e => e.z64) (fun _ _ _ => rfl) ..
@[simp] theorem Dev.setb_dumps (b : Nat) (f : Fld) (v : Bool) : (d.setb b f v).dumps = d.dumps := Dev.put_frame d (fun e => e.dumps) (fun _ _ _ => rfl) ..
@[simp] theorem Dev.setb_out (b : Nat) (f : Fld) (v : Bool) : (d.setb b f v).out = d.out := Dev.put_frame d (fun e => e.out) (fun _ _ _ => rfl) ..
@[simp] theorem Dev.setb_free (b : Nat) (f : Fld) (v : Bool) : (d.setb b f v).free = d.free := Dev.put_frame d (fun e => e.free) (fun _ _ _ => rfl) ..
@[simp] theorem Dev.setb_pin (b : Nat) (f : Fld) (v : Bool) (g' : Nat) : (d.setb b f v).pin g' = d.pin g' := Dev.put_frame d (fun e => e.pin g') (fun _ _ _ => rfl) ..
@[simp] theorem Dev.setb_pmu (b : Nat) (f : Fld) (v : Bool) (g' : Nat) : (d.setb b f v).pmu g' = d.pmu g' := Dev.put_frame d (fun e => e.pmu g') (fun _ _ _ => rfl) ..
@[simp] theorem Dev.setb_dp (b : Nat) (f : Fld) (v : Bool) (k' : Nat) : (d.setb b f v).dp k' = d.dp k' := Dev.put_frame d (fun e => e.dp k') (fun _ _ _ => rfl) ..
@[simp] theorem Dev.setb_tdc (b : Nat) (f : Fld) (v : Bool) (g' : Nat) : (d.setb b f v).tdc g' = d.tdc g' := Dev.put_frame d (fun e => e.tdc g') (fun _ _ _ => rfl) ..
@[simp] theorem Dev.setb_gen (b : Nat) (f : Fld) (v : Bool) (w' : Nat) : (d.setb b f v).gen w' = d.gen w' := Dev.put_frame d (fun e => e.gen w') (fun _ _ _ => rfl) ..
@[simp] theorem Dev.setb_cx (b : Nat) (f : Fld) (v : Bool) (c' : Nat) : (d.setb b f v).cx c' = d.cx c' := Dev.put_frame d (fun e => e.cx c') (fun _ _ _ => rfl) ..
@[simp] theorem Dev.setb_eng (b : Nat) (f : Fld) (v : Bool) (n' : Nat) : (d.setb b f v).eng n' = d.eng n' := Dev.put_frame d (fun e => e.eng n') (fun _ _ _ => rfl) ..
@[simp] theorem Dev.setb_clu (b : Nat) (f : Fld) (v : Bool) (n' : Nat) : (d.setb b f v).clu n' = d.clu n' := Dev.put_frame d (fun e => e.clu n') (fun _ _ _ => rfl) ..
@[simp] theorem Dev.setb_slot (b : Nat) (f : Fld) (v : Bool) (s' : Nat) : (d.setb b f v).slot s' = d.slot s' := Dev.put_frame d (fun e => e.slot s') (fun _ _ _ => rfl) ..
@[simp] theorem Dev.setb_strm (b : Nat) (f : Fld) (v : Bool) (q' : Nat) : (d.setb b f v).strm q' = d.strm q' := Dev.put_frame d (fun e => e.strm q') (fun _ _ _ => rfl) ..
@[simp] theorem Dev.setb_mb (b : Nat) (f : Fld) (v : Bool) (m' : Nat) : (d.setb b f v).mb m' = d.mb m' := Dev.put_frame d (fun e => e.mb m') (fun _ _ _ => rfl) ..
@[simp] theorem Dev.setb_present (b : Nat) (f : Fld) (v : Bool) (n' : Nat) : (d.setb b f v).present n' = d.present n' := Dev.put_frame d (fun e => e.present n') (fun _ _ _ => rfl) ..

@[simp] theorem Dev.satAdd_snap (b : Nat) (f : Fld) (k : Nat) : (d.satAdd b f k).snap = d.snap := Dev.put_frame d (fun e => e.snap) (fun _ _ _ => rfl) ..
@[simp] theorem Dev.satAdd_snapHi (b : Nat) (f : Fld) (k : Nat) : (d.satAdd b f k).snapHi = d.snapHi := Dev.put_frame d (fun e => e.snapHi) (fun _ _ _ => rfl) ..
@[simp] theorem Dev.satAdd_fuse (b : Nat) (f : Fld) (k : Nat) : (d.satAdd b f k).fuse = d.fuse := Dev.put_frame d (fun e => e.fuse) (fun _ _ _ => rfl) ..
@[simp] theorem Dev.satAdd_hif (b : Nat) (f : Fld) (k : Nat) : (d.satAdd b f k).hif = d.hif := Dev.put_frame d (fun e => e.hif) (fun _ _ _ => rfl) ..
@[simp] theorem Dev.satAdd_txn (b : Nat) (f : Fld) (k : Nat) : (d.satAdd b f k).txn = d.txn := Dev.put_frame d (fun e => e.txn) (fun _ _ _ => rfl) ..
@[simp] theorem Dev.satAdd_time (b : Nat) (f : Fld) (k : Nat) : (d.satAdd b f k).time = d.time := Dev.put_frame d (fun e => e.time) (fun _ _ _ => rfl) ..
@[simp] theorem Dev.satAdd_pins (b : Nat) (f : Fld) (k : Nat) : (d.satAdd b f k).pins = d.pins := Dev.put_frame d (fun e => e.pins) (fun _ _ _ => rfl) ..
@[simp] theorem Dev.satAdd_pmus (b : Nat) (f : Fld) (k : Nat) : (d.satAdd b f k).pmus = d.pmus := Dev.put_frame d (fun e => e.pmus) (fun _ _ _ => rfl) ..
@[simp] theorem Dev.satAdd_dpss (b : Nat) (f : Fld) (k : Nat) : (d.satAdd b f k).dpss = d.dpss := Dev.put_frame d (fun e => e.dpss) (fun _ _ _ => rfl) ..
@[simp] theorem Dev.satAdd_tdcs (b : Nat) (f : Fld) (k : Nat) : (d.satAdd b f k).tdcs = d.tdcs := Dev.put_frame d (fun e => e.tdcs) (fun _ _ _ => rfl) ..
@[simp] theorem Dev.satAdd_gens (b : Nat) (f : Fld) (k : Nat) : (d.satAdd b f k).gens = d.gens := Dev.put_frame d (fun e => e.gens) (fun _ _ _ => rfl) ..
@[simp] theorem Dev.satAdd_ctxs (b : Nat) (f : Fld) (k : Nat) : (d.satAdd b f k).ctxs = d.ctxs := Dev.put_frame d (fun e => e.ctxs) (fun _ _ _ => rfl) ..
@[simp] theorem Dev.satAdd_engs (b : Nat) (f : Fld) (k : Nat) : (d.satAdd b f k).engs = d.engs := Dev.put_frame d (fun e => e.engs) (fun _ _ _ => rfl) ..
@[simp] theorem Dev.satAdd_clus (b : Nat) (f : Fld) (k : Nat) : (d.satAdd b f k).clus = d.clus := Dev.put_frame d (fun e => e.clus) (fun _ _ _ => rfl) ..
@[simp] theorem Dev.satAdd_blankArm (b : Nat) (f : Fld) (k : Nat) : (d.satAdd b f k).blankArm = d.blankArm := Dev.put_frame d (fun e => e.blankArm) (fun _ _ _ => rfl) ..
@[simp] theorem Dev.satAdd_startQ (b : Nat) (f : Fld) (k : Nat) : (d.satAdd b f k).startQ = d.startQ := Dev.put_frame d (fun e => e.startQ) (fun _ _ _ => rfl) ..
@[simp] theorem Dev.satAdd_blankOpen (b : Nat) (f : Fld) (k : Nat) : (d.satAdd b f k).blankOpen = d.blankOpen := Dev.put_frame d (fun e => e.blankOpen) (fun _ _ _ => rfl) ..
@[simp] theorem Dev.satAdd_cache (b : Nat) (f : Fld) (k : Nat) : (d.satAdd b f k).cache = d.cache := Dev.put_frame d (fun e => e.cache) (fun _ _ _ => rfl) ..
@[simp] theorem Dev.satAdd_fills (b : Nat) (f : Fld) (k : Nat) : (d.satAdd b f k).fills = d.fills := Dev.put_frame d (fun e => e.fills) (fun _ _ _ => rfl) ..
@[simp] theorem Dev.satAdd_strms (b : Nat) (f : Fld) (k : Nat) : (d.satAdd b f k).strms = d.strms := Dev.put_frame d (fun e => e.strms) (fun _ _ _ => rfl) ..
@[simp] theorem Dev.satAdd_bufs (b : Nat) (f : Fld) (k : Nat) : (d.satAdd b f k).bufs = d.bufs := Dev.put_frame d (fun e => e.bufs) (fun _ _ _ => rfl) ..
@[simp] theorem Dev.satAdd_mbs (b : Nat) (f : Fld) (k : Nat) : (d.satAdd b f k).mbs = d.mbs := Dev.put_frame d (fun e => e.mbs) (fun _ _ _ => rfl) ..
@[simp] theorem Dev.satAdd_coal (b : Nat) (f : Fld) (k : Nat) : (d.satAdd b f k).coal = d.coal := Dev.put_frame d (fun e => e.coal) (fun _ _ _ => rfl) ..
@[simp] theorem Dev.satAdd_calS (b : Nat) (f : Fld) (k : Nat) : (d.satAdd b f k).calS = d.calS := Dev.put_frame d (fun e => e.calS) (fun _ _ _ => rfl) ..
@[simp] theorem Dev.satAdd_calA (b : Nat) (f : Fld) (k : Nat) : (d.satAdd b f k).calA = d.calA := Dev.put_frame d (fun e => e.calA) (fun _ _ _ => rfl) ..
@[simp] theorem Dev.satAdd_calI (b : Nat) (f : Fld) (k : Nat) : (d.satAdd b f k).calI = d.calI := Dev.put_frame d (fun e => e.calI) (fun _ _ _ => rfl) ..
@[simp] theorem Dev.satAdd_hist (b : Nat) (f : Fld) (k : Nat) : (d.satAdd b f k).hist = d.hist := Dev.put_frame d (fun e => e.hist) (fun _ _ _ => rfl) ..
@[simp] theorem Dev.satAdd_lnk (b : Nat) (f : Fld) (k : Nat) : (d.satAdd b f k).lnk = d.lnk := Dev.put_frame d (fun e => e.lnk) (fun _ _ _ => rfl) ..
@[simp] theorem Dev.satAdd_ras (b : Nat) (f : Fld) (k : Nat) : (d.satAdd b f k).ras = d.ras := Dev.put_frame d (fun e => e.ras) (fun _ _ _ => rfl) ..
@[simp] theorem Dev.satAdd_pow (b : Nat) (f : Fld) (k : Nat) : (d.satAdd b f k).pow = d.pow := Dev.put_frame d (fun e => e.pow) (fun _ _ _ => rfl) ..
@[simp] theorem Dev.satAdd_thm (b : Nat) (f : Fld) (k : Nat) : (d.satAdd b f k).thm = d.thm := Dev.put_frame d (fun e => e.thm) (fun _ _ _ => rfl) ..
@[simp] theorem Dev.satAdd_flt (b : Nat) (f : Fld) (k : Nat) : (d.satAdd b f k).flt = d.flt := Dev.put_frame d (fun e => e.flt) (fun _ _ _ => rfl) ..
@[simp] theorem Dev.satAdd_bst (b : Nat) (f : Fld) (k : Nat) : (d.satAdd b f k).bst = d.bst := Dev.put_frame d (fun e => e.bst) (fun _ _ _ => rfl) ..
@[simp] theorem Dev.satAdd_lcs (b : Nat) (f : Fld) (k : Nat) : (d.satAdd b f k).lcs = d.lcs := Dev.put_frame d (fun e => e.lcs) (fun _ _ _ => rfl) ..
@[simp] theorem Dev.satAdd_rst (b : Nat) (f : Fld) (k : Nat) : (d.satAdd b f k).rst = d.rst := Dev.put_frame d (fun e => e.rst) (fun _ _ _ => rfl) ..
@[simp] theorem Dev.satAdd_msp (b : Nat) (f : Fld) (k : Nat) : (d.satAdd b f k).msp = d.msp := Dev.put_frame d (fun e => e.msp) (fun _ _ _ => rfl) ..
@[simp] theorem Dev.satAdd_z64 (b : Nat) (f : Fld) (k : Nat) : (d.satAdd b f k).z64 = d.z64 := Dev.put_frame d (fun e => e.z64) (fun _ _ _ => rfl) ..
@[simp] theorem Dev.satAdd_dumps (b : Nat) (f : Fld) (k : Nat) : (d.satAdd b f k).dumps = d.dumps := Dev.put_frame d (fun e => e.dumps) (fun _ _ _ => rfl) ..
@[simp] theorem Dev.satAdd_out (b : Nat) (f : Fld) (k : Nat) : (d.satAdd b f k).out = d.out := Dev.put_frame d (fun e => e.out) (fun _ _ _ => rfl) ..
@[simp] theorem Dev.satAdd_free (b : Nat) (f : Fld) (k : Nat) : (d.satAdd b f k).free = d.free := Dev.put_frame d (fun e => e.free) (fun _ _ _ => rfl) ..
@[simp] theorem Dev.satAdd_pin (b : Nat) (f : Fld) (k : Nat) (g' : Nat) : (d.satAdd b f k).pin g' = d.pin g' := Dev.put_frame d (fun e => e.pin g') (fun _ _ _ => rfl) ..
@[simp] theorem Dev.satAdd_pmu (b : Nat) (f : Fld) (k : Nat) (g' : Nat) : (d.satAdd b f k).pmu g' = d.pmu g' := Dev.put_frame d (fun e => e.pmu g') (fun _ _ _ => rfl) ..
@[simp] theorem Dev.satAdd_dp (b : Nat) (f : Fld) (k : Nat) (k' : Nat) : (d.satAdd b f k).dp k' = d.dp k' := Dev.put_frame d (fun e => e.dp k') (fun _ _ _ => rfl) ..
@[simp] theorem Dev.satAdd_tdc (b : Nat) (f : Fld) (k : Nat) (g' : Nat) : (d.satAdd b f k).tdc g' = d.tdc g' := Dev.put_frame d (fun e => e.tdc g') (fun _ _ _ => rfl) ..
@[simp] theorem Dev.satAdd_gen (b : Nat) (f : Fld) (k : Nat) (w' : Nat) : (d.satAdd b f k).gen w' = d.gen w' := Dev.put_frame d (fun e => e.gen w') (fun _ _ _ => rfl) ..
@[simp] theorem Dev.satAdd_cx (b : Nat) (f : Fld) (k : Nat) (c' : Nat) : (d.satAdd b f k).cx c' = d.cx c' := Dev.put_frame d (fun e => e.cx c') (fun _ _ _ => rfl) ..
@[simp] theorem Dev.satAdd_eng (b : Nat) (f : Fld) (k : Nat) (n' : Nat) : (d.satAdd b f k).eng n' = d.eng n' := Dev.put_frame d (fun e => e.eng n') (fun _ _ _ => rfl) ..
@[simp] theorem Dev.satAdd_clu (b : Nat) (f : Fld) (k : Nat) (n' : Nat) : (d.satAdd b f k).clu n' = d.clu n' := Dev.put_frame d (fun e => e.clu n') (fun _ _ _ => rfl) ..
@[simp] theorem Dev.satAdd_slot (b : Nat) (f : Fld) (k : Nat) (s' : Nat) : (d.satAdd b f k).slot s' = d.slot s' := Dev.put_frame d (fun e => e.slot s') (fun _ _ _ => rfl) ..
@[simp] theorem Dev.satAdd_strm (b : Nat) (f : Fld) (k : Nat) (q' : Nat) : (d.satAdd b f k).strm q' = d.strm q' := Dev.put_frame d (fun e => e.strm q') (fun _ _ _ => rfl) ..
@[simp] theorem Dev.satAdd_mb (b : Nat) (f : Fld) (k : Nat) (m' : Nat) : (d.satAdd b f k).mb m' = d.mb m' := Dev.put_frame d (fun e => e.mb m') (fun _ _ _ => rfl) ..
@[simp] theorem Dev.satAdd_present (b : Nat) (f : Fld) (k : Nat) (n' : Nat) : (d.satAdd b f k).present n' = d.present n' := Dev.put_frame d (fun e => e.present n') (fun _ _ _ => rfl) ..

@[simp] theorem Dev.satInc_snap (b : Nat) (f : Fld) : (d.satInc b f).snap = d.snap := Dev.put_frame d (fun e => e.snap) (fun _ _ _ => rfl) ..
@[simp] theorem Dev.satInc_snapHi (b : Nat) (f : Fld) : (d.satInc b f).snapHi = d.snapHi := Dev.put_frame d (fun e => e.snapHi) (fun _ _ _ => rfl) ..
@[simp] theorem Dev.satInc_fuse (b : Nat) (f : Fld) : (d.satInc b f).fuse = d.fuse := Dev.put_frame d (fun e => e.fuse) (fun _ _ _ => rfl) ..
@[simp] theorem Dev.satInc_hif (b : Nat) (f : Fld) : (d.satInc b f).hif = d.hif := Dev.put_frame d (fun e => e.hif) (fun _ _ _ => rfl) ..
@[simp] theorem Dev.satInc_txn (b : Nat) (f : Fld) : (d.satInc b f).txn = d.txn := Dev.put_frame d (fun e => e.txn) (fun _ _ _ => rfl) ..
@[simp] theorem Dev.satInc_time (b : Nat) (f : Fld) : (d.satInc b f).time = d.time := Dev.put_frame d (fun e => e.time) (fun _ _ _ => rfl) ..
@[simp] theorem Dev.satInc_pins (b : Nat) (f : Fld) : (d.satInc b f).pins = d.pins := Dev.put_frame d (fun e => e.pins) (fun _ _ _ => rfl) ..
@[simp] theorem Dev.satInc_pmus (b : Nat) (f : Fld) : (d.satInc b f).pmus = d.pmus := Dev.put_frame d (fun e => e.pmus) (fun _ _ _ => rfl) ..
@[simp] theorem Dev.satInc_dpss (b : Nat) (f : Fld) : (d.satInc b f).dpss = d.dpss := Dev.put_frame d (fun e => e.dpss) (fun _ _ _ => rfl) ..
@[simp] theorem Dev.satInc_tdcs (b : Nat) (f : Fld) : (d.satInc b f).tdcs = d.tdcs := Dev.put_frame d (fun e => e.tdcs) (fun _ _ _ => rfl) ..
@[simp] theorem Dev.satInc_gens (b : Nat) (f : Fld) : (d.satInc b f).gens = d.gens := Dev.put_frame d (fun e => e.gens) (fun _ _ _ => rfl) ..
@[simp] theorem Dev.satInc_ctxs (b : Nat) (f : Fld) : (d.satInc b f).ctxs = d.ctxs := Dev.put_frame d (fun e => e.ctxs) (fun _ _ _ => rfl) ..
@[simp] theorem Dev.satInc_engs (b : Nat) (f : Fld) : (d.satInc b f).engs = d.engs := Dev.put_frame d (fun e => e.engs) (fun _ _ _ => rfl) ..
@[simp] theorem Dev.satInc_clus (b : Nat) (f : Fld) : (d.satInc b f).clus = d.clus := Dev.put_frame d (fun e => e.clus) (fun _ _ _ => rfl) ..
@[simp] theorem Dev.satInc_blankArm (b : Nat) (f : Fld) : (d.satInc b f).blankArm = d.blankArm := Dev.put_frame d (fun e => e.blankArm) (fun _ _ _ => rfl) ..
@[simp] theorem Dev.satInc_startQ (b : Nat) (f : Fld) : (d.satInc b f).startQ = d.startQ := Dev.put_frame d (fun e => e.startQ) (fun _ _ _ => rfl) ..
@[simp] theorem Dev.satInc_blankOpen (b : Nat) (f : Fld) : (d.satInc b f).blankOpen = d.blankOpen := Dev.put_frame d (fun e => e.blankOpen) (fun _ _ _ => rfl) ..
@[simp] theorem Dev.satInc_cache (b : Nat) (f : Fld) : (d.satInc b f).cache = d.cache := Dev.put_frame d (fun e => e.cache) (fun _ _ _ => rfl) ..
@[simp] theorem Dev.satInc_fills (b : Nat) (f : Fld) : (d.satInc b f).fills = d.fills := Dev.put_frame d (fun e => e.fills) (fun _ _ _ => rfl) ..
@[simp] theorem Dev.satInc_strms (b : Nat) (f : Fld) : (d.satInc b f).strms = d.strms := Dev.put_frame d (fun e => e.strms) (fun _ _ _ => rfl) ..
@[simp] theorem Dev.satInc_bufs (b : Nat) (f : Fld) : (d.satInc b f).bufs = d.bufs := Dev.put_frame d (fun e => e.bufs) (fun _ _ _ => rfl) ..
@[simp] theorem Dev.satInc_mbs (b : Nat) (f : Fld) : (d.satInc b f).mbs = d.mbs := Dev.put_frame d (fun e => e.mbs) (fun _ _ _ => rfl) ..
@[simp] theorem Dev.satInc_coal (b : Nat) (f : Fld) : (d.satInc b f).coal = d.coal := Dev.put_frame d (fun e => e.coal) (fun _ _ _ => rfl) ..
@[simp] theorem Dev.satInc_calS (b : Nat) (f : Fld) : (d.satInc b f).calS = d.calS := Dev.put_frame d (fun e => e.calS) (fun _ _ _ => rfl) ..
@[simp] theorem Dev.satInc_calA (b : Nat) (f : Fld) : (d.satInc b f).calA = d.calA := Dev.put_frame d (fun e => e.calA) (fun _ _ _ => rfl) ..
@[simp] theorem Dev.satInc_calI (b : Nat) (f : Fld) : (d.satInc b f).calI = d.calI := Dev.put_frame d (fun e => e.calI) (fun _ _ _ => rfl) ..
@[simp] theorem Dev.satInc_hist (b : Nat) (f : Fld) : (d.satInc b f).hist = d.hist := Dev.put_frame d (fun e => e.hist) (fun _ _ _ => rfl) ..
@[simp] theorem Dev.satInc_lnk (b : Nat) (f : Fld) : (d.satInc b f).lnk = d.lnk := Dev.put_frame d (fun e => e.lnk) (fun _ _ _ => rfl) ..
@[simp] theorem Dev.satInc_ras (b : Nat) (f : Fld) : (d.satInc b f).ras = d.ras := Dev.put_frame d (fun e => e.ras) (fun _ _ _ => rfl) ..
@[simp] theorem Dev.satInc_pow (b : Nat) (f : Fld) : (d.satInc b f).pow = d.pow := Dev.put_frame d (fun e => e.pow) (fun _ _ _ => rfl) ..
@[simp] theorem Dev.satInc_thm (b : Nat) (f : Fld) : (d.satInc b f).thm = d.thm := Dev.put_frame d (fun e => e.thm) (fun _ _ _ => rfl) ..
@[simp] theorem Dev.satInc_flt (b : Nat) (f : Fld) : (d.satInc b f).flt = d.flt := Dev.put_frame d (fun e => e.flt) (fun _ _ _ => rfl) ..
@[simp] theorem Dev.satInc_bst (b : Nat) (f : Fld) : (d.satInc b f).bst = d.bst := Dev.put_frame d (fun e => e.bst) (fun _ _ _ => rfl) ..
@[simp] theorem Dev.satInc_lcs (b : Nat) (f : Fld) : (d.satInc b f).lcs = d.lcs := Dev.put_frame d (fun e => e.lcs) (fun _ _ _ => rfl) ..
@[simp] theorem Dev.satInc_rst (b : Nat) (f : Fld) : (d.satInc b f).rst = d.rst := Dev.put_frame d (fun e => e.rst) (fun _ _ _ => rfl) ..
@[simp] theorem Dev.satInc_msp (b : Nat) (f : Fld) : (d.satInc b f).msp = d.msp := Dev.put_frame d (fun e => e.msp) (fun _ _ _ => rfl) ..
@[simp] theorem Dev.satInc_z64 (b : Nat) (f : Fld) : (d.satInc b f).z64 = d.z64 := Dev.put_frame d (fun e => e.z64) (fun _ _ _ => rfl) ..
@[simp] theorem Dev.satInc_dumps (b : Nat) (f : Fld) : (d.satInc b f).dumps = d.dumps := Dev.put_frame d (fun e => e.dumps) (fun _ _ _ => rfl) ..
@[simp] theorem Dev.satInc_out (b : Nat) (f : Fld) : (d.satInc b f).out = d.out := Dev.put_frame d (fun e => e.out) (fun _ _ _ => rfl) ..
@[simp] theorem Dev.satInc_free (b : Nat) (f : Fld) : (d.satInc b f).free = d.free := Dev.put_frame d (fun e => e.free) (fun _ _ _ => rfl) ..
@[simp] theorem Dev.satInc_pin (b : Nat) (f : Fld) (g' : Nat) : (d.satInc b f).pin g' = d.pin g' := Dev.put_frame d (fun e => e.pin g') (fun _ _ _ => rfl) ..
@[simp] theorem Dev.satInc_pmu (b : Nat) (f : Fld) (g' : Nat) : (d.satInc b f).pmu g' = d.pmu g' := Dev.put_frame d (fun e => e.pmu g') (fun _ _ _ => rfl) ..
@[simp] theorem Dev.satInc_dp (b : Nat) (f : Fld) (k' : Nat) : (d.satInc b f).dp k' = d.dp k' := Dev.put_frame d (fun e => e.dp k') (fun _ _ _ => rfl) ..
@[simp] theorem Dev.satInc_tdc (b : Nat) (f : Fld) (g' : Nat) : (d.satInc b f).tdc g' = d.tdc g' := Dev.put_frame d (fun e => e.tdc g') (fun _ _ _ => rfl) ..
@[simp] theorem Dev.satInc_gen (b : Nat) (f : Fld) (w' : Nat) : (d.satInc b f).gen w' = d.gen w' := Dev.put_frame d (fun e => e.gen w') (fun _ _ _ => rfl) ..
@[simp] theorem Dev.satInc_cx (b : Nat) (f : Fld) (c' : Nat) : (d.satInc b f).cx c' = d.cx c' := Dev.put_frame d (fun e => e.cx c') (fun _ _ _ => rfl) ..
@[simp] theorem Dev.satInc_eng (b : Nat) (f : Fld) (n' : Nat) : (d.satInc b f).eng n' = d.eng n' := Dev.put_frame d (fun e => e.eng n') (fun _ _ _ => rfl) ..
@[simp] theorem Dev.satInc_clu (b : Nat) (f : Fld) (n' : Nat) : (d.satInc b f).clu n' = d.clu n' := Dev.put_frame d (fun e => e.clu n') (fun _ _ _ => rfl) ..
@[simp] theorem Dev.satInc_slot (b : Nat) (f : Fld) (s' : Nat) : (d.satInc b f).slot s' = d.slot s' := Dev.put_frame d (fun e => e.slot s') (fun _ _ _ => rfl) ..
@[simp] theorem Dev.satInc_strm (b : Nat) (f : Fld) (q' : Nat) : (d.satInc b f).strm q' = d.strm q' := Dev.put_frame d (fun e => e.strm q') (fun _ _ _ => rfl) ..
@[simp] theorem Dev.satInc_mb (b : Nat) (f : Fld) (m' : Nat) : (d.satInc b f).mb m' = d.mb m' := Dev.put_frame d (fun e => e.mb m') (fun _ _ _ => rfl) ..
@[simp] theorem Dev.satInc_present (b : Nat) (f : Fld) (n' : Nat) : (d.satInc b f).present n' = d.present n' := Dev.put_frame d (fun e => e.present n') (fun _ _ _ => rfl) ..

@[simp] theorem Dev.setBitN_snap (b : Nat) (f : Fld) (i : Nat) (v : Bool) : (d.setBitN b f i v).snap = d.snap := Dev.put_frame d (fun e => e.snap) (fun _ _ _ => rfl) ..
@[simp] theorem Dev.setBitN_snapHi (b : Nat) (f : Fld) (i : Nat) (v : Bool) : (d.setBitN b f i v).snapHi = d.snapHi := Dev.put_frame d (fun e => e.snapHi) (fun _ _ _ => rfl) ..
@[simp] theorem Dev.setBitN_fuse (b : Nat) (f : Fld) (i : Nat) (v : Bool) : (d.setBitN b f i v).fuse = d.fuse := Dev.put_frame d (fun e => e.fuse) (fun _ _ _ => rfl) ..
@[simp] theorem Dev.setBitN_hif (b : Nat) (f : Fld) (i : Nat) (v : Bool) : (d.setBitN b f i v).hif = d.hif := Dev.put_frame d (fun e => e.hif) (fun _ _ _ => rfl) ..
@[simp] theorem Dev.setBitN_txn (b : Nat) (f : Fld) (i : Nat) (v : Bool) : (d.setBitN b f i v).txn = d.txn := Dev.put_frame d (fun e => e.txn) (fun _ _ _ => rfl) ..
@[simp] theorem Dev.setBitN_time (b : Nat) (f : Fld) (i : Nat) (v : Bool) : (d.setBitN b f i v).time = d.time := Dev.put_frame d (fun e => e.time) (fun _ _ _ => rfl) ..
@[simp] theorem Dev.setBitN_pins (b : Nat) (f : Fld) (i : Nat) (v : Bool) : (d.setBitN b f i v).pins = d.pins := Dev.put_frame d (fun e => e.pins) (fun _ _ _ => rfl) ..
@[simp] theorem Dev.setBitN_pmus (b : Nat) (f : Fld) (i : Nat) (v : Bool) : (d.setBitN b f i v).pmus = d.pmus := Dev.put_frame d (fun e => e.pmus) (fun _ _ _ => rfl) ..
@[simp] theorem Dev.setBitN_dpss (b : Nat) (f : Fld) (i : Nat) (v : Bool) : (d.setBitN b f i v).dpss = d.dpss := Dev.put_frame d (fun e => e.dpss) (fun _ _ _ => rfl) ..
@[simp] theorem Dev.setBitN_tdcs (b : Nat) (f : Fld) (i : Nat) (v : Bool) : (d.setBitN b f i v).tdcs = d.tdcs := Dev.put_frame d (fun e => e.tdcs) (fun _ _ _ => rfl) ..
@[simp] theorem Dev.setBitN_gens (b : Nat) (f : Fld) (i : Nat) (v : Bool) : (d.setBitN b f i v).gens = d.gens := Dev.put_frame d (fun e => e.gens) (fun _ _ _ => rfl) ..
@[simp] theorem Dev.setBitN_ctxs (b : Nat) (f : Fld) (i : Nat) (v : Bool) : (d.setBitN b f i v).ctxs = d.ctxs := Dev.put_frame d (fun e => e.ctxs) (fun _ _ _ => rfl) ..
@[simp] theorem Dev.setBitN_engs (b : Nat) (f : Fld) (i : Nat) (v : Bool) : (d.setBitN b f i v).engs = d.engs := Dev.put_frame d (fun e => e.engs) (fun _ _ _ => rfl) ..
@[simp] theorem Dev.setBitN_clus (b : Nat) (f : Fld) (i : Nat) (v : Bool) : (d.setBitN b f i v).clus = d.clus := Dev.put_frame d (fun e => e.clus) (fun _ _ _ => rfl) ..
@[simp] theorem Dev.setBitN_blankArm (b : Nat) (f : Fld) (i : Nat) (v : Bool) : (d.setBitN b f i v).blankArm = d.blankArm := Dev.put_frame d (fun e => e.blankArm) (fun _ _ _ => rfl) ..
@[simp] theorem Dev.setBitN_startQ (b : Nat) (f : Fld) (i : Nat) (v : Bool) : (d.setBitN b f i v).startQ = d.startQ := Dev.put_frame d (fun e => e.startQ) (fun _ _ _ => rfl) ..
@[simp] theorem Dev.setBitN_blankOpen (b : Nat) (f : Fld) (i : Nat) (v : Bool) : (d.setBitN b f i v).blankOpen = d.blankOpen := Dev.put_frame d (fun e => e.blankOpen) (fun _ _ _ => rfl) ..
@[simp] theorem Dev.setBitN_cache (b : Nat) (f : Fld) (i : Nat) (v : Bool) : (d.setBitN b f i v).cache = d.cache := Dev.put_frame d (fun e => e.cache) (fun _ _ _ => rfl) ..
@[simp] theorem Dev.setBitN_fills (b : Nat) (f : Fld) (i : Nat) (v : Bool) : (d.setBitN b f i v).fills = d.fills := Dev.put_frame d (fun e => e.fills) (fun _ _ _ => rfl) ..
@[simp] theorem Dev.setBitN_strms (b : Nat) (f : Fld) (i : Nat) (v : Bool) : (d.setBitN b f i v).strms = d.strms := Dev.put_frame d (fun e => e.strms) (fun _ _ _ => rfl) ..
@[simp] theorem Dev.setBitN_bufs (b : Nat) (f : Fld) (i : Nat) (v : Bool) : (d.setBitN b f i v).bufs = d.bufs := Dev.put_frame d (fun e => e.bufs) (fun _ _ _ => rfl) ..
@[simp] theorem Dev.setBitN_mbs (b : Nat) (f : Fld) (i : Nat) (v : Bool) : (d.setBitN b f i v).mbs = d.mbs := Dev.put_frame d (fun e => e.mbs) (fun _ _ _ => rfl) ..
@[simp] theorem Dev.setBitN_coal (b : Nat) (f : Fld) (i : Nat) (v : Bool) : (d.setBitN b f i v).coal = d.coal := Dev.put_frame d (fun e => e.coal) (fun _ _ _ => rfl) ..
@[simp] theorem Dev.setBitN_calS (b : Nat) (f : Fld) (i : Nat) (v : Bool) : (d.setBitN b f i v).calS = d.calS := Dev.put_frame d (fun e => e.calS) (fun _ _ _ => rfl) ..
@[simp] theorem Dev.setBitN_calA (b : Nat) (f : Fld) (i : Nat) (v : Bool) : (d.setBitN b f i v).calA = d.calA := Dev.put_frame d (fun e => e.calA) (fun _ _ _ => rfl) ..
@[simp] theorem Dev.setBitN_calI (b : Nat) (f : Fld) (i : Nat) (v : Bool) : (d.setBitN b f i v).calI = d.calI := Dev.put_frame d (fun e => e.calI) (fun _ _ _ => rfl) ..
@[simp] theorem Dev.setBitN_hist (b : Nat) (f : Fld) (i : Nat) (v : Bool) : (d.setBitN b f i v).hist = d.hist := Dev.put_frame d (fun e => e.hist) (fun _ _ _ => rfl) ..
@[simp] theorem Dev.setBitN_lnk (b : Nat) (f : Fld) (i : Nat) (v : Bool) : (d.setBitN b f i v).lnk = d.lnk := Dev.put_frame d (fun e => e.lnk) (fun _ _ _ => rfl) ..
@[simp] theorem Dev.setBitN_ras (b : Nat) (f : Fld) (i : Nat) (v : Bool) : (d.setBitN b f i v).ras = d.ras := Dev.put_frame d (fun e => e.ras) (fun _ _ _ => rfl) ..
@[simp] theorem Dev.setBitN_pow (b : Nat) (f : Fld) (i : Nat) (v : Bool) : (d.setBitN b f i v).pow = d.pow := Dev.put_frame d (fun e => e.pow) (fun _ _ _ => rfl) ..
@[simp] theorem Dev.setBitN_thm (b : Nat) (f : Fld) (i : Nat) (v : Bool) : (d.setBitN b f i v).thm = d.thm := Dev.put_frame d (fun e => e.thm) (fun _ _ _ => rfl) ..
@[simp] theorem Dev.setBitN_flt (b : Nat) (f : Fld) (i : Nat) (v : Bool) : (d.setBitN b f i v).flt = d.flt := Dev.put_frame d (fun e => e.flt) (fun _ _ _ => rfl) ..
@[simp] theorem Dev.setBitN_bst (b : Nat) (f : Fld) (i : Nat) (v : Bool) : (d.setBitN b f i v).bst = d.bst := Dev.put_frame d (fun e => e.bst) (fun _ _ _ => rfl) ..
@[simp] theorem Dev.setBitN_lcs (b : Nat) (f : Fld) (i : Nat) (v : Bool) : (d.setBitN b f i v).lcs = d.lcs := Dev.put_frame d (fun e => e.lcs) (fun _ _ _ => rfl) ..
@[simp] theorem Dev.setBitN_rst (b : Nat) (f : Fld) (i : Nat) (v : Bool) : (d.setBitN b f i v).rst = d.rst := Dev.put_frame d (fun e => e.rst) (fun _ _ _ => rfl) ..
@[simp] theorem Dev.setBitN_msp (b : Nat) (f : Fld) (i : Nat) (v : Bool) : (d.setBitN b f i v).msp = d.msp := Dev.put_frame d (fun e => e.msp) (fun _ _ _ => rfl) ..
@[simp] theorem Dev.setBitN_z64 (b : Nat) (f : Fld) (i : Nat) (v : Bool) : (d.setBitN b f i v).z64 = d.z64 := Dev.put_frame d (fun e => e.z64) (fun _ _ _ => rfl) ..
@[simp] theorem Dev.setBitN_dumps (b : Nat) (f : Fld) (i : Nat) (v : Bool) : (d.setBitN b f i v).dumps = d.dumps := Dev.put_frame d (fun e => e.dumps) (fun _ _ _ => rfl) ..
@[simp] theorem Dev.setBitN_out (b : Nat) (f : Fld) (i : Nat) (v : Bool) : (d.setBitN b f i v).out = d.out := Dev.put_frame d (fun e => e.out) (fun _ _ _ => rfl) ..
@[simp] theorem Dev.setBitN_free (b : Nat) (f : Fld) (i : Nat) (v : Bool) : (d.setBitN b f i v).free = d.free := Dev.put_frame d (fun e => e.free) (fun _ _ _ => rfl) ..
@[simp] theorem Dev.setBitN_pin (b : Nat) (f : Fld) (i : Nat) (v : Bool) (g' : Nat) : (d.setBitN b f i v).pin g' = d.pin g' := Dev.put_frame d (fun e => e.pin g') (fun _ _ _ => rfl) ..
@[simp] theorem Dev.setBitN_pmu (b : Nat) (f : Fld) (i : Nat) (v : Bool) (g' : Nat) : (d.setBitN b f i v).pmu g' = d.pmu g' := Dev.put_frame d (fun e => e.pmu g') (fun _ _ _ => rfl) ..
@[simp] theorem Dev.setBitN_dp (b : Nat) (f : Fld) (i : Nat) (v : Bool) (k' : Nat) : (d.setBitN b f i v).dp k' = d.dp k' := Dev.put_frame d (fun e => e.dp k') (fun _ _ _ => rfl) ..
@[simp] theorem Dev.setBitN_tdc (b : Nat) (f : Fld) (i : Nat) (v : Bool) (g' : Nat) : (d.setBitN b f i v).tdc g' = d.tdc g' := Dev.put_frame d (fun e => e.tdc g') (fun _ _ _ => rfl) ..
@[simp] theorem Dev.setBitN_gen (b : Nat) (f : Fld) (i : Nat) (v : Bool) (w' : Nat) : (d.setBitN b f i v).gen w' = d.gen w' := Dev.put_frame d (fun e => e.gen w') (fun _ _ _ => rfl) ..
@[simp] theorem Dev.setBitN_cx (b : Nat) (f : Fld) (i : Nat) (v : Bool) (c' : Nat) : (d.setBitN b f i v).cx c' = d.cx c' := Dev.put_frame d (fun e => e.cx c') (fun _ _ _ => rfl) ..
@[simp] theorem Dev.setBitN_eng (b : Nat) (f : Fld) (i : Nat) (v : Bool) (n' : Nat) : (d.setBitN b f i v).eng n' = d.eng n' := Dev.put_frame d (fun e => e.eng n') (fun _ _ _ => rfl) ..
@[simp] theorem Dev.setBitN_clu (b : Nat) (f : Fld) (i : Nat) (v : Bool) (n' : Nat) : (d.setBitN b f i v).clu n' = d.clu n' := Dev.put_frame d (fun e => e.clu n') (fun _ _ _ => rfl) ..
@[simp] theorem Dev.setBitN_slot (b : Nat) (f : Fld) (i : Nat) (v : Bool) (s' : Nat) : (d.setBitN b f i v).slot s' = d.slot s' := Dev.put_frame d (fun e => e.slot s') (fun _ _ _ => rfl) ..
@[simp] theorem Dev.setBitN_strm (b : Nat) (f : Fld) (i : Nat) (v : Bool) (q' : Nat) : (d.setBitN b f i v).strm q' = d.strm q' := Dev.put_frame d (fun e => e.strm q') (fun _ _ _ => rfl) ..
@[simp] theorem Dev.setBitN_mb (b : Nat) (f : Fld) (i : Nat) (v : Bool) (m' : Nat) : (d.setBitN b f i v).mb m' = d.mb m' := Dev.put_frame d (fun e => e.mb m') (fun _ _ _ => rfl) ..
@[simp] theorem Dev.setBitN_present (b : Nat) (f : Fld) (i : Nat) (v : Bool) (n' : Nat) : (d.setBitN b f i v).present n' = d.present n' := Dev.put_frame d (fun e => e.present n') (fun _ _ _ => rfl) ..

@[simp] theorem Dev.fltBit_snap (b i : Nat) : (d.fltBit b i).snap = d.snap := Dev.put_frame d (fun e => e.snap) (fun _ _ _ => rfl) ..
@[simp] theorem Dev.fltBit_snapHi (b i : Nat) : (d.fltBit b i).snapHi = d.snapHi := Dev.put_frame d (fun e => e.snapHi) (fun _ _ _ => rfl) ..
@[simp] theorem Dev.fltBit_fuse (b i : Nat) : (d.fltBit b i).fuse = d.fuse := Dev.put_frame d (fun e => e.fuse) (fun _ _ _ => rfl) ..
@[simp] theorem Dev.fltBit_hif (b i : Nat) : (d.fltBit b i).hif = d.hif := Dev.put_frame d (fun e => e.hif) (fun _ _ _ => rfl) ..
@[simp] theorem Dev.fltBit_txn (b i : Nat) : (d.fltBit b i).txn = d.txn := Dev.put_frame d (fun e => e.txn) (fun _ _ _ => rfl) ..
@[simp] theorem Dev.fltBit_time (b i : Nat) : (d.fltBit b i).time = d.time := Dev.put_frame d (fun e => e.time) (fun _ _ _ => rfl) ..
@[simp] theorem Dev.fltBit_pins (b i : Nat) : (d.fltBit b i).pins = d.pins := Dev.put_frame d (fun e => e.pins) (fun _ _ _ => rfl) ..
@[simp] theorem Dev.fltBit_pmus (b i : Nat) : (d.fltBit b i).pmus = d.pmus := Dev.put_frame d (fun e => e.pmus) (fun _ _ _ => rfl) ..
@[simp] theorem Dev.fltBit_dpss (b i : Nat) : (d.fltBit b i).dpss = d.dpss := Dev.put_frame d (fun e => e.dpss) (fun _ _ _ => rfl) ..
@[simp] theorem Dev.fltBit_tdcs (b i : Nat) : (d.fltBit b i).tdcs = d.tdcs := Dev.put_frame d (fun e => e.tdcs) (fun _ _ _ => rfl) ..
@[simp] theorem Dev.fltBit_gens (b i : Nat) : (d.fltBit b i).gens = d.gens := Dev.put_frame d (fun e => e.gens) (fun _ _ _ => rfl) ..
@[simp] theorem Dev.fltBit_ctxs (b i : Nat) : (d.fltBit b i).ctxs = d.ctxs := Dev.put_frame d (fun e => e.ctxs) (fun _ _ _ => rfl) ..
@[simp] theorem Dev.fltBit_engs (b i : Nat) : (d.fltBit b i).engs = d.engs := Dev.put_frame d (fun e => e.engs) (fun _ _ _ => rfl) ..
@[simp] theorem Dev.fltBit_clus (b i : Nat) : (d.fltBit b i).clus = d.clus := Dev.put_frame d (fun e => e.clus) (fun _ _ _ => rfl) ..
@[simp] theorem Dev.fltBit_blankArm (b i : Nat) : (d.fltBit b i).blankArm = d.blankArm := Dev.put_frame d (fun e => e.blankArm) (fun _ _ _ => rfl) ..
@[simp] theorem Dev.fltBit_startQ (b i : Nat) : (d.fltBit b i).startQ = d.startQ := Dev.put_frame d (fun e => e.startQ) (fun _ _ _ => rfl) ..
@[simp] theorem Dev.fltBit_blankOpen (b i : Nat) : (d.fltBit b i).blankOpen = d.blankOpen := Dev.put_frame d (fun e => e.blankOpen) (fun _ _ _ => rfl) ..
@[simp] theorem Dev.fltBit_cache (b i : Nat) : (d.fltBit b i).cache = d.cache := Dev.put_frame d (fun e => e.cache) (fun _ _ _ => rfl) ..
@[simp] theorem Dev.fltBit_fills (b i : Nat) : (d.fltBit b i).fills = d.fills := Dev.put_frame d (fun e => e.fills) (fun _ _ _ => rfl) ..
@[simp] theorem Dev.fltBit_strms (b i : Nat) : (d.fltBit b i).strms = d.strms := Dev.put_frame d (fun e => e.strms) (fun _ _ _ => rfl) ..
@[simp] theorem Dev.fltBit_bufs (b i : Nat) : (d.fltBit b i).bufs = d.bufs := Dev.put_frame d (fun e => e.bufs) (fun _ _ _ => rfl) ..
@[simp] theorem Dev.fltBit_mbs (b i : Nat) : (d.fltBit b i).mbs = d.mbs := Dev.put_frame d (fun e => e.mbs) (fun _ _ _ => rfl) ..
@[simp] theorem Dev.fltBit_coal (b i : Nat) : (d.fltBit b i).coal = d.coal := Dev.put_frame d (fun e => e.coal) (fun _ _ _ => rfl) ..
@[simp] theorem Dev.fltBit_calS (b i : Nat) : (d.fltBit b i).calS = d.calS := Dev.put_frame d (fun e => e.calS) (fun _ _ _ => rfl) ..
@[simp] theorem Dev.fltBit_calA (b i : Nat) : (d.fltBit b i).calA = d.calA := Dev.put_frame d (fun e => e.calA) (fun _ _ _ => rfl) ..
@[simp] theorem Dev.fltBit_calI (b i : Nat) : (d.fltBit b i).calI = d.calI := Dev.put_frame d (fun e => e.calI) (fun _ _ _ => rfl) ..
@[simp] theorem Dev.fltBit_hist (b i : Nat) : (d.fltBit b i).hist = d.hist := Dev.put_frame d (fun e => e.hist) (fun _ _ _ => rfl) ..
@[simp] theorem Dev.fltBit_lnk (b i : Nat) : (d.fltBit b i).lnk = d.lnk := Dev.put_frame d (fun e => e.lnk) (fun _ _ _ => rfl) ..
@[simp] theorem Dev.fltBit_ras (b i : Nat) : (d.fltBit b i).ras = d.ras := Dev.put_frame d (fun e => e.ras) (fun _ _ _ => rfl) ..
@[simp] theorem Dev.fltBit_pow (b i : Nat) : (d.fltBit b i).pow = d.pow := Dev.put_frame d (fun e => e.pow) (fun _ _ _ => rfl) ..
@[simp] theorem Dev.fltBit_thm (b i : Nat) : (d.fltBit b i).thm = d.thm := Dev.put_frame d (fun e => e.thm) (fun _ _ _ => rfl) ..
@[simp] theorem Dev.fltBit_flt (b i : Nat) : (d.fltBit b i).flt = d.flt := Dev.put_frame d (fun e => e.flt) (fun _ _ _ => rfl) ..
@[simp] theorem Dev.fltBit_bst (b i : Nat) : (d.fltBit b i).bst = d.bst := Dev.put_frame d (fun e => e.bst) (fun _ _ _ => rfl) ..
@[simp] theorem Dev.fltBit_lcs (b i : Nat) : (d.fltBit b i).lcs = d.lcs := Dev.put_frame d (fun e => e.lcs) (fun _ _ _ => rfl) ..
@[simp] theorem Dev.fltBit_rst (b i : Nat) : (d.fltBit b i).rst = d.rst := Dev.put_frame d (fun e => e.rst) (fun _ _ _ => rfl) ..
@[simp] theorem Dev.fltBit_msp (b i : Nat) : (d.fltBit b i).msp = d.msp := Dev.put_frame d (fun e => e.msp) (fun _ _ _ => rfl) ..
@[simp] theorem Dev.fltBit_z64 (b i : Nat) : (d.fltBit b i).z64 = d.z64 := Dev.put_frame d (fun e => e.z64) (fun _ _ _ => rfl) ..
@[simp] theorem Dev.fltBit_dumps (b i : Nat) : (d.fltBit b i).dumps = d.dumps := Dev.put_frame d (fun e => e.dumps) (fun _ _ _ => rfl) ..
@[simp] theorem Dev.fltBit_out (b i : Nat) : (d.fltBit b i).out = d.out := Dev.put_frame d (fun e => e.out) (fun _ _ _ => rfl) ..
@[simp] theorem Dev.fltBit_free (b i : Nat) : (d.fltBit b i).free = d.free := Dev.put_frame d (fun e => e.free) (fun _ _ _ => rfl) ..
@[simp] theorem Dev.fltBit_pin (b i : Nat) (g' : Nat) : (d.fltBit b i).pin g' = d.pin g' := Dev.put_frame d (fun e => e.pin g') (fun _ _ _ => rfl) ..
@[simp] theorem Dev.fltBit_pmu (b i : Nat) (g' : Nat) : (d.fltBit b i).pmu g' = d.pmu g' := Dev.put_frame d (fun e => e.pmu g') (fun _ _ _ => rfl) ..
@[simp] theorem Dev.fltBit_dp (b i : Nat) (k' : Nat) : (d.fltBit b i).dp k' = d.dp k' := Dev.put_frame d (fun e => e.dp k') (fun _ _ _ => rfl) ..
@[simp] theorem Dev.fltBit_tdc (b i : Nat) (g' : Nat) : (d.fltBit b i).tdc g' = d.tdc g' := Dev.put_frame d (fun e => e.tdc g') (fun _ _ _ => rfl) ..
@[simp] theorem Dev.fltBit_gen (b i : Nat) (w' : Nat) : (d.fltBit b i).gen w' = d.gen w' := Dev.put_frame d (fun e => e.gen w') (fun _ _ _ => rfl) ..
@[simp] theorem Dev.fltBit_cx (b i : Nat) (c' : Nat) : (d.fltBit b i).cx c' = d.cx c' := Dev.put_frame d (fun e => e.cx c') (fun _ _ _ => rfl) ..
@[simp] theorem Dev.fltBit_eng (b i : Nat) (n' : Nat) : (d.fltBit b i).eng n' = d.eng n' := Dev.put_frame d (fun e => e.eng n') (fun _ _ _ => rfl) ..
@[simp] theorem Dev.fltBit_clu (b i : Nat) (n' : Nat) : (d.fltBit b i).clu n' = d.clu n' := Dev.put_frame d (fun e => e.clu n') (fun _ _ _ => rfl) ..
@[simp] theorem Dev.fltBit_slot (b i : Nat) (s' : Nat) : (d.fltBit b i).slot s' = d.slot s' := Dev.put_frame d (fun e => e.slot s') (fun _ _ _ => rfl) ..
@[simp] theorem Dev.fltBit_strm (b i : Nat) (q' : Nat) : (d.fltBit b i).strm q' = d.strm q' := Dev.put_frame d (fun e => e.strm q') (fun _ _ _ => rfl) ..
@[simp] theorem Dev.fltBit_mb (b i : Nat) (m' : Nat) : (d.fltBit b i).mb m' = d.mb m' := Dev.put_frame d (fun e => e.mb m') (fun _ _ _ => rfl) ..
@[simp] theorem Dev.fltBit_present (b i : Nat) (n' : Nat) : (d.fltBit b i).present n' = d.present n' := Dev.put_frame d (fun e => e.present n') (fun _ _ _ => rfl) ..

@[simp] theorem Dev.dropWords_snap (lo hi : Nat) : (d.dropWords lo hi).snap = d.snap := rfl
@[simp] theorem Dev.dropWords_snapHi (lo hi : Nat) : (d.dropWords lo hi).snapHi = d.snapHi := rfl
@[simp] theorem Dev.dropWords_fuse (lo hi : Nat) : (d.dropWords lo hi).fuse = d.fuse := rfl
@[simp] theorem Dev.dropWords_hif (lo hi : Nat) : (d.dropWords lo hi).hif = d.hif := rfl
@[simp] theorem Dev.dropWords_txn (lo hi : Nat) : (d.dropWords lo hi).txn = d.txn := rfl
@[simp] theorem Dev.dropWords_time (lo hi : Nat) : (d.dropWords lo hi).time = d.time := rfl
@[simp] theorem Dev.dropWords_pins (lo hi : Nat) : (d.dropWords lo hi).pins = d.pins := rfl
@[simp] theorem Dev.dropWords_pmus (lo hi : Nat) : (d.dropWords lo hi).pmus = d.pmus := rfl
@[simp] theorem Dev.dropWords_dpss (lo hi : Nat) : (d.dropWords lo hi).dpss = d.dpss := rfl
@[simp] theorem Dev.dropWords_tdcs (lo hi : Nat) : (d.dropWords lo hi).tdcs = d.tdcs := rfl
@[simp] theorem Dev.dropWords_gens (lo hi : Nat) : (d.dropWords lo hi).gens = d.gens := rfl
@[simp] theorem Dev.dropWords_ctxs (lo hi : Nat) : (d.dropWords lo hi).ctxs = d.ctxs := rfl
@[simp] theorem Dev.dropWords_engs (lo hi : Nat) : (d.dropWords lo hi).engs = d.engs := rfl
@[simp] theorem Dev.dropWords_clus (lo hi : Nat) : (d.dropWords lo hi).clus = d.clus := rfl
@[simp] theorem Dev.dropWords_blankArm (lo hi : Nat) : (d.dropWords lo hi).blankArm = d.blankArm := rfl
@[simp] theorem Dev.dropWords_startQ (lo hi : Nat) : (d.dropWords lo hi).startQ = d.startQ := rfl
@[simp] theorem Dev.dropWords_blankOpen (lo hi : Nat) : (d.dropWords lo hi).blankOpen = d.blankOpen := rfl
@[simp] theorem Dev.dropWords_cache (lo hi : Nat) : (d.dropWords lo hi).cache = d.cache := rfl
@[simp] theorem Dev.dropWords_fills (lo hi : Nat) : (d.dropWords lo hi).fills = d.fills := rfl
@[simp] theorem Dev.dropWords_strms (lo hi : Nat) : (d.dropWords lo hi).strms = d.strms := rfl
@[simp] theorem Dev.dropWords_bufs (lo hi : Nat) : (d.dropWords lo hi).bufs = d.bufs := rfl
@[simp] theorem Dev.dropWords_mbs (lo hi : Nat) : (d.dropWords lo hi).mbs = d.mbs := rfl
@[simp] theorem Dev.dropWords_coal (lo hi : Nat) : (d.dropWords lo hi).coal = d.coal := rfl
@[simp] theorem Dev.dropWords_calS (lo hi : Nat) : (d.dropWords lo hi).calS = d.calS := rfl
@[simp] theorem Dev.dropWords_calA (lo hi : Nat) : (d.dropWords lo hi).calA = d.calA := rfl
@[simp] theorem Dev.dropWords_calI (lo hi : Nat) : (d.dropWords lo hi).calI = d.calI := rfl
@[simp] theorem Dev.dropWords_hist (lo hi : Nat) : (d.dropWords lo hi).hist = d.hist := rfl
@[simp] theorem Dev.dropWords_lnk (lo hi : Nat) : (d.dropWords lo hi).lnk = d.lnk := rfl
@[simp] theorem Dev.dropWords_ras (lo hi : Nat) : (d.dropWords lo hi).ras = d.ras := rfl
@[simp] theorem Dev.dropWords_pow (lo hi : Nat) : (d.dropWords lo hi).pow = d.pow := rfl
@[simp] theorem Dev.dropWords_thm (lo hi : Nat) : (d.dropWords lo hi).thm = d.thm := rfl
@[simp] theorem Dev.dropWords_flt (lo hi : Nat) : (d.dropWords lo hi).flt = d.flt := rfl
@[simp] theorem Dev.dropWords_bst (lo hi : Nat) : (d.dropWords lo hi).bst = d.bst := rfl
@[simp] theorem Dev.dropWords_lcs (lo hi : Nat) : (d.dropWords lo hi).lcs = d.lcs := rfl
@[simp] theorem Dev.dropWords_rst (lo hi : Nat) : (d.dropWords lo hi).rst = d.rst := rfl
@[simp] theorem Dev.dropWords_msp (lo hi : Nat) : (d.dropWords lo hi).msp = d.msp := rfl
@[simp] theorem Dev.dropWords_z64 (lo hi : Nat) : (d.dropWords lo hi).z64 = d.z64 := rfl
@[simp] theorem Dev.dropWords_dumps (lo hi : Nat) : (d.dropWords lo hi).dumps = d.dumps := rfl
@[simp] theorem Dev.dropWords_out (lo hi : Nat) : (d.dropWords lo hi).out = d.out := rfl
@[simp] theorem Dev.dropWords_free (lo hi : Nat) : (d.dropWords lo hi).free = d.free := rfl
@[simp] theorem Dev.dropWords_pin (lo hi : Nat) (g' : Nat) : (d.dropWords lo hi).pin g' = d.pin g' := rfl
@[simp] theorem Dev.dropWords_pmu (lo hi : Nat) (g' : Nat) : (d.dropWords lo hi).pmu g' = d.pmu g' := rfl
@[simp] theorem Dev.dropWords_dp (lo hi : Nat) (k' : Nat) : (d.dropWords lo hi).dp k' = d.dp k' := rfl
@[simp] theorem Dev.dropWords_tdc (lo hi : Nat) (g' : Nat) : (d.dropWords lo hi).tdc g' = d.tdc g' := rfl
@[simp] theorem Dev.dropWords_gen (lo hi : Nat) (w' : Nat) : (d.dropWords lo hi).gen w' = d.gen w' := rfl
@[simp] theorem Dev.dropWords_cx (lo hi : Nat) (c' : Nat) : (d.dropWords lo hi).cx c' = d.cx c' := rfl
@[simp] theorem Dev.dropWords_eng (lo hi : Nat) (n' : Nat) : (d.dropWords lo hi).eng n' = d.eng n' := rfl
@[simp] theorem Dev.dropWords_clu (lo hi : Nat) (n' : Nat) : (d.dropWords lo hi).clu n' = d.clu n' := rfl
@[simp] theorem Dev.dropWords_slot (lo hi : Nat) (s' : Nat) : (d.dropWords lo hi).slot s' = d.slot s' := rfl
@[simp] theorem Dev.dropWords_strm (lo hi : Nat) (q' : Nat) : (d.dropWords lo hi).strm q' = d.strm q' := rfl
@[simp] theorem Dev.dropWords_mb (lo hi : Nat) (m' : Nat) : (d.dropWords lo hi).mb m' = d.mb m' := rfl
@[simp] theorem Dev.dropWords_present (lo hi : Nat) (n' : Nat) : (d.dropWords lo hi).present n' = d.present n' := rfl

/-! ### Typed records: every other field stays -/

@[simp] theorem Dev.setPin_regs (g : Nat) (y : Pin) : (d.setPin g y).regs = d.regs := rfl
@[simp] theorem Dev.setPin_snap (g : Nat) (y : Pin) : (d.setPin g y).snap = d.snap := rfl
@[simp] theorem Dev.setPin_snapHi (g : Nat) (y : Pin) : (d.setPin g y).snapHi = d.snapHi := rfl
@[simp] theorem Dev.setPin_fuse (g : Nat) (y : Pin) : (d.setPin g y).fuse = d.fuse := rfl
@[simp] theorem Dev.setPin_hif (g : Nat) (y : Pin) : (d.setPin g y).hif = d.hif := rfl
@[simp] theorem Dev.setPin_txn (g : Nat) (y : Pin) : (d.setPin g y).txn = d.txn := rfl
@[simp] theorem Dev.setPin_time (g : Nat) (y : Pin) : (d.setPin g y).time = d.time := rfl
@[simp] theorem Dev.setPin_pmus (g : Nat) (y : Pin) : (d.setPin g y).pmus = d.pmus := rfl
@[simp] theorem Dev.setPin_dpss (g : Nat) (y : Pin) : (d.setPin g y).dpss = d.dpss := rfl
@[simp] theorem Dev.setPin_tdcs (g : Nat) (y : Pin) : (d.setPin g y).tdcs = d.tdcs := rfl
@[simp] theorem Dev.setPin_gens (g : Nat) (y : Pin) : (d.setPin g y).gens = d.gens := rfl
@[simp] theorem Dev.setPin_ctxs (g : Nat) (y : Pin) : (d.setPin g y).ctxs = d.ctxs := rfl
@[simp] theorem Dev.setPin_engs (g : Nat) (y : Pin) : (d.setPin g y).engs = d.engs := rfl
@[simp] theorem Dev.setPin_clus (g : Nat) (y : Pin) : (d.setPin g y).clus = d.clus := rfl
@[simp] theorem Dev.setPin_blankArm (g : Nat) (y : Pin) : (d.setPin g y).blankArm = d.blankArm := rfl
@[simp] theorem Dev.setPin_startQ (g : Nat) (y : Pin) : (d.setPin g y).startQ = d.startQ := rfl
@[simp] theorem Dev.setPin_blankOpen (g : Nat) (y : Pin) : (d.setPin g y).blankOpen = d.blankOpen := rfl
@[simp] theorem Dev.setPin_cache (g : Nat) (y : Pin) : (d.setPin g y).cache = d.cache := rfl
@[simp] theorem Dev.setPin_fills (g : Nat) (y : Pin) : (d.setPin g y).fills = d.fills := rfl
@[simp] theorem Dev.setPin_strms (g : Nat) (y : Pin) : (d.setPin g y).strms = d.strms := rfl
@[simp] theorem Dev.setPin_bufs (g : Nat) (y : Pin) : (d.setPin g y).bufs = d.bufs := rfl
@[simp] theorem Dev.setPin_mbs (g : Nat) (y : Pin) : (d.setPin g y).mbs = d.mbs := rfl
@[simp] theorem Dev.setPin_coal (g : Nat) (y : Pin) : (d.setPin g y).coal = d.coal := rfl
@[simp] theorem Dev.setPin_calS (g : Nat) (y : Pin) : (d.setPin g y).calS = d.calS := rfl
@[simp] theorem Dev.setPin_calA (g : Nat) (y : Pin) : (d.setPin g y).calA = d.calA := rfl
@[simp] theorem Dev.setPin_calI (g : Nat) (y : Pin) : (d.setPin g y).calI = d.calI := rfl
@[simp] theorem Dev.setPin_hist (g : Nat) (y : Pin) : (d.setPin g y).hist = d.hist := rfl
@[simp] theorem Dev.setPin_lnk (g : Nat) (y : Pin) : (d.setPin g y).lnk = d.lnk := rfl
@[simp] theorem Dev.setPin_ras (g : Nat) (y : Pin) : (d.setPin g y).ras = d.ras := rfl
@[simp] theorem Dev.setPin_pow (g : Nat) (y : Pin) : (d.setPin g y).pow = d.pow := rfl
@[simp] theorem Dev.setPin_thm (g : Nat) (y : Pin) : (d.setPin g y).thm = d.thm := rfl
@[simp] theorem Dev.setPin_flt (g : Nat) (y : Pin) : (d.setPin g y).flt = d.flt := rfl
@[simp] theorem Dev.setPin_bst (g : Nat) (y : Pin) : (d.setPin g y).bst = d.bst := rfl
@[simp] theorem Dev.setPin_lcs (g : Nat) (y : Pin) : (d.setPin g y).lcs = d.lcs := rfl
@[simp] theorem Dev.setPin_rst (g : Nat) (y : Pin) : (d.setPin g y).rst = d.rst := rfl
@[simp] theorem Dev.setPin_msp (g : Nat) (y : Pin) : (d.setPin g y).msp = d.msp := rfl
@[simp] theorem Dev.setPin_z64 (g : Nat) (y : Pin) : (d.setPin g y).z64 = d.z64 := rfl
@[simp] theorem Dev.setPin_dumps (g : Nat) (y : Pin) : (d.setPin g y).dumps = d.dumps := rfl
@[simp] theorem Dev.setPin_out (g : Nat) (y : Pin) : (d.setPin g y).out = d.out := rfl
@[simp] theorem Dev.setPin_free (g : Nat) (y : Pin) : (d.setPin g y).free = d.free := rfl
@[simp] theorem Dev.setPin_word (g : Nat) (y : Pin) (a : Nat) : (d.setPin g y).word a = d.word a := rfl
@[simp] theorem Dev.setPin_get (g : Nat) (y : Pin) (b : Nat) (f : Fld) : (d.setPin g y).get b f = d.get b f := rfl
@[simp] theorem Dev.setPin_bit (g : Nat) (y : Pin) (b : Nat) (f : Fld) : (d.setPin g y).bit b f = d.bit b f := rfl
@[simp] theorem Dev.setPin_bitN (g : Nat) (y : Pin) (b : Nat) (f : Fld) (i : Nat) : (d.setPin g y).bitN b f i = d.bitN b f i := rfl
@[simp] theorem Dev.setPin_present (g : Nat) (y : Pin) (n' : Nat) : (d.setPin g y).present n' = d.present n' := rfl
@[simp] theorem Dev.setPin_pmu (g : Nat) (y : Pin) (g' : Nat) : (d.setPin g y).pmu g' = d.pmu g' := rfl
@[simp] theorem Dev.setPin_dp (g : Nat) (y : Pin) (k' : Nat) : (d.setPin g y).dp k' = d.dp k' := rfl
@[simp] theorem Dev.setPin_tdc (g : Nat) (y : Pin) (g' : Nat) : (d.setPin g y).tdc g' = d.tdc g' := rfl
@[simp] theorem Dev.setPin_gen (g : Nat) (y : Pin) (w' : Nat) : (d.setPin g y).gen w' = d.gen w' := rfl
@[simp] theorem Dev.setPin_cx (g : Nat) (y : Pin) (c' : Nat) : (d.setPin g y).cx c' = d.cx c' := rfl
@[simp] theorem Dev.setPin_eng (g : Nat) (y : Pin) (n' : Nat) : (d.setPin g y).eng n' = d.eng n' := rfl
@[simp] theorem Dev.setPin_clu (g : Nat) (y : Pin) (n' : Nat) : (d.setPin g y).clu n' = d.clu n' := rfl
@[simp] theorem Dev.setPin_slot (g : Nat) (y : Pin) (s' : Nat) : (d.setPin g y).slot s' = d.slot s' := rfl
@[simp] theorem Dev.setPin_strm (g : Nat) (y : Pin) (q' : Nat) : (d.setPin g y).strm q' = d.strm q' := rfl
@[simp] theorem Dev.setPin_mb (g : Nat) (y : Pin) (m' : Nat) : (d.setPin g y).mb m' = d.mb m' := rfl
@[simp] theorem Dev.setPin_pin (g : Nat) (y : Pin) : (d.setPin g y).pin g = y := Tab.get_set_same ..
theorem Dev.setPin_pin_ne {g g' : Nat} (y : Pin) (h : g' ≠ g) : (d.setPin g y).pin g' = d.pin g' := Tab.get_set_ne _ _ _ h

@[simp] theorem Dev.setPmu_regs (g : Nat) (y : Pmu) : (d.setPmu g y).regs = d.regs := rfl
@[simp] theorem Dev.setPmu_snap (g : Nat) (y : Pmu) : (d.setPmu g y).snap = d.snap := rfl
@[simp] theorem Dev.setPmu_snapHi (g : Nat) (y : Pmu) : (d.setPmu g y).snapHi = d.snapHi := rfl
@[simp] theorem Dev.setPmu_fuse (g : Nat) (y : Pmu) : (d.setPmu g y).fuse = d.fuse := rfl
@[simp] theorem Dev.setPmu_hif (g : Nat) (y : Pmu) : (d.setPmu g y).hif = d.hif := rfl
@[simp] theorem Dev.setPmu_txn (g : Nat) (y : Pmu) : (d.setPmu g y).txn = d.txn := rfl
@[simp] theorem Dev.setPmu_time (g : Nat) (y : Pmu) : (d.setPmu g y).time = d.time := rfl
@[simp] theorem Dev.setPmu_pins (g : Nat) (y : Pmu) : (d.setPmu g y).pins = d.pins := rfl
@[simp] theorem Dev.setPmu_dpss (g : Nat) (y : Pmu) : (d.setPmu g y).dpss = d.dpss := rfl
@[simp] theorem Dev.setPmu_tdcs (g : Nat) (y : Pmu) : (d.setPmu g y).tdcs = d.tdcs := rfl
@[simp] theorem Dev.setPmu_gens (g : Nat) (y : Pmu) : (d.setPmu g y).gens = d.gens := rfl
@[simp] theorem Dev.setPmu_ctxs (g : Nat) (y : Pmu) : (d.setPmu g y).ctxs = d.ctxs := rfl
@[simp] theorem Dev.setPmu_engs (g : Nat) (y : Pmu) : (d.setPmu g y).engs = d.engs := rfl
@[simp] theorem Dev.setPmu_clus (g : Nat) (y : Pmu) : (d.setPmu g y).clus = d.clus := rfl
@[simp] theorem Dev.setPmu_blankArm (g : Nat) (y : Pmu) : (d.setPmu g y).blankArm = d.blankArm := rfl
@[simp] theorem Dev.setPmu_startQ (g : Nat) (y : Pmu) : (d.setPmu g y).startQ = d.startQ := rfl
@[simp] theorem Dev.setPmu_blankOpen (g : Nat) (y : Pmu) : (d.setPmu g y).blankOpen = d.blankOpen := rfl
@[simp] theorem Dev.setPmu_cache (g : Nat) (y : Pmu) : (d.setPmu g y).cache = d.cache := rfl
@[simp] theorem Dev.setPmu_fills (g : Nat) (y : Pmu) : (d.setPmu g y).fills = d.fills := rfl
@[simp] theorem Dev.setPmu_strms (g : Nat) (y : Pmu) : (d.setPmu g y).strms = d.strms := rfl
@[simp] theorem Dev.setPmu_bufs (g : Nat) (y : Pmu) : (d.setPmu g y).bufs = d.bufs := rfl
@[simp] theorem Dev.setPmu_mbs (g : Nat) (y : Pmu) : (d.setPmu g y).mbs = d.mbs := rfl
@[simp] theorem Dev.setPmu_coal (g : Nat) (y : Pmu) : (d.setPmu g y).coal = d.coal := rfl
@[simp] theorem Dev.setPmu_calS (g : Nat) (y : Pmu) : (d.setPmu g y).calS = d.calS := rfl
@[simp] theorem Dev.setPmu_calA (g : Nat) (y : Pmu) : (d.setPmu g y).calA = d.calA := rfl
@[simp] theorem Dev.setPmu_calI (g : Nat) (y : Pmu) : (d.setPmu g y).calI = d.calI := rfl
@[simp] theorem Dev.setPmu_hist (g : Nat) (y : Pmu) : (d.setPmu g y).hist = d.hist := rfl
@[simp] theorem Dev.setPmu_lnk (g : Nat) (y : Pmu) : (d.setPmu g y).lnk = d.lnk := rfl
@[simp] theorem Dev.setPmu_ras (g : Nat) (y : Pmu) : (d.setPmu g y).ras = d.ras := rfl
@[simp] theorem Dev.setPmu_pow (g : Nat) (y : Pmu) : (d.setPmu g y).pow = d.pow := rfl
@[simp] theorem Dev.setPmu_thm (g : Nat) (y : Pmu) : (d.setPmu g y).thm = d.thm := rfl
@[simp] theorem Dev.setPmu_flt (g : Nat) (y : Pmu) : (d.setPmu g y).flt = d.flt := rfl
@[simp] theorem Dev.setPmu_bst (g : Nat) (y : Pmu) : (d.setPmu g y).bst = d.bst := rfl
@[simp] theorem Dev.setPmu_lcs (g : Nat) (y : Pmu) : (d.setPmu g y).lcs = d.lcs := rfl
@[simp] theorem Dev.setPmu_rst (g : Nat) (y : Pmu) : (d.setPmu g y).rst = d.rst := rfl
@[simp] theorem Dev.setPmu_msp (g : Nat) (y : Pmu) : (d.setPmu g y).msp = d.msp := rfl
@[simp] theorem Dev.setPmu_z64 (g : Nat) (y : Pmu) : (d.setPmu g y).z64 = d.z64 := rfl
@[simp] theorem Dev.setPmu_dumps (g : Nat) (y : Pmu) : (d.setPmu g y).dumps = d.dumps := rfl
@[simp] theorem Dev.setPmu_out (g : Nat) (y : Pmu) : (d.setPmu g y).out = d.out := rfl
@[simp] theorem Dev.setPmu_free (g : Nat) (y : Pmu) : (d.setPmu g y).free = d.free := rfl
@[simp] theorem Dev.setPmu_word (g : Nat) (y : Pmu) (a : Nat) : (d.setPmu g y).word a = d.word a := rfl
@[simp] theorem Dev.setPmu_get (g : Nat) (y : Pmu) (b : Nat) (f : Fld) : (d.setPmu g y).get b f = d.get b f := rfl
@[simp] theorem Dev.setPmu_bit (g : Nat) (y : Pmu) (b : Nat) (f : Fld) : (d.setPmu g y).bit b f = d.bit b f := rfl
@[simp] theorem Dev.setPmu_bitN (g : Nat) (y : Pmu) (b : Nat) (f : Fld) (i : Nat) : (d.setPmu g y).bitN b f i = d.bitN b f i := rfl
@[simp] theorem Dev.setPmu_present (g : Nat) (y : Pmu) (n' : Nat) : (d.setPmu g y).present n' = d.present n' := rfl
@[simp] theorem Dev.setPmu_pin (g : Nat) (y : Pmu) (g' : Nat) : (d.setPmu g y).pin g' = d.pin g' := rfl
@[simp] theorem Dev.setPmu_dp (g : Nat) (y : Pmu) (k' : Nat) : (d.setPmu g y).dp k' = d.dp k' := rfl
@[simp] theorem Dev.setPmu_tdc (g : Nat) (y : Pmu) (g' : Nat) : (d.setPmu g y).tdc g' = d.tdc g' := rfl
@[simp] theorem Dev.setPmu_gen (g : Nat) (y : Pmu) (w' : Nat) : (d.setPmu g y).gen w' = d.gen w' := rfl
@[simp] theorem Dev.setPmu_cx (g : Nat) (y : Pmu) (c' : Nat) : (d.setPmu g y).cx c' = d.cx c' := rfl
@[simp] theorem Dev.setPmu_eng (g : Nat) (y : Pmu) (n' : Nat) : (d.setPmu g y).eng n' = d.eng n' := rfl
@[simp] theorem Dev.setPmu_clu (g : Nat) (y : Pmu) (n' : Nat) : (d.setPmu g y).clu n' = d.clu n' := rfl
@[simp] theorem Dev.setPmu_slot (g : Nat) (y : Pmu) (s' : Nat) : (d.setPmu g y).slot s' = d.slot s' := rfl
@[simp] theorem Dev.setPmu_strm (g : Nat) (y : Pmu) (q' : Nat) : (d.setPmu g y).strm q' = d.strm q' := rfl
@[simp] theorem Dev.setPmu_mb (g : Nat) (y : Pmu) (m' : Nat) : (d.setPmu g y).mb m' = d.mb m' := rfl
@[simp] theorem Dev.setPmu_pmu (g : Nat) (y : Pmu) : (d.setPmu g y).pmu g = y := Tab.get_set_same ..
theorem Dev.setPmu_pmu_ne {g g' : Nat} (y : Pmu) (h : g' ≠ g) : (d.setPmu g y).pmu g' = d.pmu g' := Tab.get_set_ne _ _ _ h

@[simp] theorem Dev.setDp_regs (k : Nat) (y : Dps) : (d.setDp k y).regs = d.regs := rfl
@[simp] theorem Dev.setDp_snap (k : Nat) (y : Dps) : (d.setDp k y).snap = d.snap := rfl
@[simp] theorem Dev.setDp_snapHi (k : Nat) (y : Dps) : (d.setDp k y).snapHi = d.snapHi := rfl
@[simp] theorem Dev.setDp_fuse (k : Nat) (y : Dps) : (d.setDp k y).fuse = d.fuse := rfl
@[simp] theorem Dev.setDp_hif (k : Nat) (y : Dps) : (d.setDp k y).hif = d.hif := rfl
@[simp] theorem Dev.setDp_txn (k : Nat) (y : Dps) : (d.setDp k y).txn = d.txn := rfl
@[simp] theorem Dev.setDp_time (k : Nat) (y : Dps) : (d.setDp k y).time = d.time := rfl
@[simp] theorem Dev.setDp_pins (k : Nat) (y : Dps) : (d.setDp k y).pins = d.pins := rfl
@[simp] theorem Dev.setDp_pmus (k : Nat) (y : Dps) : (d.setDp k y).pmus = d.pmus := rfl
@[simp] theorem Dev.setDp_tdcs (k : Nat) (y : Dps) : (d.setDp k y).tdcs = d.tdcs := rfl
@[simp] theorem Dev.setDp_gens (k : Nat) (y : Dps) : (d.setDp k y).gens = d.gens := rfl
@[simp] theorem Dev.setDp_ctxs (k : Nat) (y : Dps) : (d.setDp k y).ctxs = d.ctxs := rfl
@[simp] theorem Dev.setDp_engs (k : Nat) (y : Dps) : (d.setDp k y).engs = d.engs := rfl
@[simp] theorem Dev.setDp_clus (k : Nat) (y : Dps) : (d.setDp k y).clus = d.clus := rfl
@[simp] theorem Dev.setDp_blankArm (k : Nat) (y : Dps) : (d.setDp k y).blankArm = d.blankArm := rfl
@[simp] theorem Dev.setDp_startQ (k : Nat) (y : Dps) : (d.setDp k y).startQ = d.startQ := rfl
@[simp] theorem Dev.setDp_blankOpen (k : Nat) (y : Dps) : (d.setDp k y).blankOpen = d.blankOpen := rfl
@[simp] theorem Dev.setDp_cache (k : Nat) (y : Dps) : (d.setDp k y).cache = d.cache := rfl
@[simp] theorem Dev.setDp_fills (k : Nat) (y : Dps) : (d.setDp k y).fills = d.fills := rfl
@[simp] theorem Dev.setDp_strms (k : Nat) (y : Dps) : (d.setDp k y).strms = d.strms := rfl
@[simp] theorem Dev.setDp_bufs (k : Nat) (y : Dps) : (d.setDp k y).bufs = d.bufs := rfl
@[simp] theorem Dev.setDp_mbs (k : Nat) (y : Dps) : (d.setDp k y).mbs = d.mbs := rfl
@[simp] theorem Dev.setDp_coal (k : Nat) (y : Dps) : (d.setDp k y).coal = d.coal := rfl
@[simp] theorem Dev.setDp_calS (k : Nat) (y : Dps) : (d.setDp k y).calS = d.calS := rfl
@[simp] theorem Dev.setDp_calA (k : Nat) (y : Dps) : (d.setDp k y).calA = d.calA := rfl
@[simp] theorem Dev.setDp_calI (k : Nat) (y : Dps) : (d.setDp k y).calI = d.calI := rfl
@[simp] theorem Dev.setDp_hist (k : Nat) (y : Dps) : (d.setDp k y).hist = d.hist := rfl
@[simp] theorem Dev.setDp_lnk (k : Nat) (y : Dps) : (d.setDp k y).lnk = d.lnk := rfl
@[simp] theorem Dev.setDp_ras (k : Nat) (y : Dps) : (d.setDp k y).ras = d.ras := rfl
@[simp] theorem Dev.setDp_pow (k : Nat) (y : Dps) : (d.setDp k y).pow = d.pow := rfl
@[simp] theorem Dev.setDp_thm (k : Nat) (y : Dps) : (d.setDp k y).thm = d.thm := rfl
@[simp] theorem Dev.setDp_flt (k : Nat) (y : Dps) : (d.setDp k y).flt = d.flt := rfl
@[simp] theorem Dev.setDp_bst (k : Nat) (y : Dps) : (d.setDp k y).bst = d.bst := rfl
@[simp] theorem Dev.setDp_lcs (k : Nat) (y : Dps) : (d.setDp k y).lcs = d.lcs := rfl
@[simp] theorem Dev.setDp_rst (k : Nat) (y : Dps) : (d.setDp k y).rst = d.rst := rfl
@[simp] theorem Dev.setDp_msp (k : Nat) (y : Dps) : (d.setDp k y).msp = d.msp := rfl
@[simp] theorem Dev.setDp_z64 (k : Nat) (y : Dps) : (d.setDp k y).z64 = d.z64 := rfl
@[simp] theorem Dev.setDp_dumps (k : Nat) (y : Dps) : (d.setDp k y).dumps = d.dumps := rfl
@[simp] theorem Dev.setDp_out (k : Nat) (y : Dps) : (d.setDp k y).out = d.out := rfl
@[simp] theorem Dev.setDp_free (k : Nat) (y : Dps) : (d.setDp k y).free = d.free := rfl
@[simp] theorem Dev.setDp_word (k : Nat) (y : Dps) (a : Nat) : (d.setDp k y).word a = d.word a := rfl
@[simp] theorem Dev.setDp_get (k : Nat) (y : Dps) (b : Nat) (f : Fld) : (d.setDp k y).get b f = d.get b f := rfl
@[simp] theorem Dev.setDp_bit (k : Nat) (y : Dps) (b : Nat) (f : Fld) : (d.setDp k y).bit b f = d.bit b f := rfl
@[simp] theorem Dev.setDp_bitN (k : Nat) (y : Dps) (b : Nat) (f : Fld) (i : Nat) : (d.setDp k y).bitN b f i = d.bitN b f i := rfl
@[simp] theorem Dev.setDp_present (k : Nat) (y : Dps) (n' : Nat) : (d.setDp k y).present n' = d.present n' := rfl
@[simp] theorem Dev.setDp_pin (k : Nat) (y : Dps) (g' : Nat) : (d.setDp k y).pin g' = d.pin g' := rfl
@[simp] theorem Dev.setDp_pmu (k : Nat) (y : Dps) (g' : Nat) : (d.setDp k y).pmu g' = d.pmu g' := rfl
@[simp] theorem Dev.setDp_tdc (k : Nat) (y : Dps) (g' : Nat) : (d.setDp k y).tdc g' = d.tdc g' := rfl
@[simp] theorem Dev.setDp_gen (k : Nat) (y : Dps) (w' : Nat) : (d.setDp k y).gen w' = d.gen w' := rfl
@[simp] theorem Dev.setDp_cx (k : Nat) (y : Dps) (c' : Nat) : (d.setDp k y).cx c' = d.cx c' := rfl
@[simp] theorem Dev.setDp_eng (k : Nat) (y : Dps) (n' : Nat) : (d.setDp k y).eng n' = d.eng n' := rfl
@[simp] theorem Dev.setDp_clu (k : Nat) (y : Dps) (n' : Nat) : (d.setDp k y).clu n' = d.clu n' := rfl
@[simp] theorem Dev.setDp_slot (k : Nat) (y : Dps) (s' : Nat) : (d.setDp k y).slot s' = d.slot s' := rfl
@[simp] theorem Dev.setDp_strm (k : Nat) (y : Dps) (q' : Nat) : (d.setDp k y).strm q' = d.strm q' := rfl
@[simp] theorem Dev.setDp_mb (k : Nat) (y : Dps) (m' : Nat) : (d.setDp k y).mb m' = d.mb m' := rfl
@[simp] theorem Dev.setDp_dp (k : Nat) (y : Dps) : (d.setDp k y).dp k = y := Tab.get_set_same ..
theorem Dev.setDp_dp_ne {k k' : Nat} (y : Dps) (h : k' ≠ k) : (d.setDp k y).dp k' = d.dp k' := Tab.get_set_ne _ _ _ h

@[simp] theorem Dev.setTdc_regs (g : Nat) (y : Tdc) : (d.setTdc g y).regs = d.regs := rfl
@[simp] theorem Dev.setTdc_snap (g : Nat) (y : Tdc) : (d.setTdc g y).snap = d.snap := rfl
@[simp] theorem Dev.setTdc_snapHi (g : Nat) (y : Tdc) : (d.setTdc g y).snapHi = d.snapHi := rfl
@[simp] theorem Dev.setTdc_fuse (g : Nat) (y : Tdc) : (d.setTdc g y).fuse = d.fuse := rfl
@[simp] theorem Dev.setTdc_hif (g : Nat) (y : Tdc) : (d.setTdc g y).hif = d.hif := rfl
@[simp] theorem Dev.setTdc_txn (g : Nat) (y : Tdc) : (d.setTdc g y).txn = d.txn := rfl
@[simp] theorem Dev.setTdc_time (g : Nat) (y : Tdc) : (d.setTdc g y).time = d.time := rfl
@[simp] theorem Dev.setTdc_pins (g : Nat) (y : Tdc) : (d.setTdc g y).pins = d.pins := rfl
@[simp] theorem Dev.setTdc_pmus (g : Nat) (y : Tdc) : (d.setTdc g y).pmus = d.pmus := rfl
@[simp] theorem Dev.setTdc_dpss (g : Nat) (y : Tdc) : (d.setTdc g y).dpss = d.dpss := rfl
@[simp] theorem Dev.setTdc_gens (g : Nat) (y : Tdc) : (d.setTdc g y).gens = d.gens := rfl
@[simp] theorem Dev.setTdc_ctxs (g : Nat) (y : Tdc) : (d.setTdc g y).ctxs = d.ctxs := rfl
@[simp] theorem Dev.setTdc_engs (g : Nat) (y : Tdc) : (d.setTdc g y).engs = d.engs := rfl
@[simp] theorem Dev.setTdc_clus (g : Nat) (y : Tdc) : (d.setTdc g y).clus = d.clus := rfl
@[simp] theorem Dev.setTdc_blankArm (g : Nat) (y : Tdc) : (d.setTdc g y).blankArm = d.blankArm := rfl
@[simp] theorem Dev.setTdc_startQ (g : Nat) (y : Tdc) : (d.setTdc g y).startQ = d.startQ := rfl
@[simp] theorem Dev.setTdc_blankOpen (g : Nat) (y : Tdc) : (d.setTdc g y).blankOpen = d.blankOpen := rfl
@[simp] theorem Dev.setTdc_cache (g : Nat) (y : Tdc) : (d.setTdc g y).cache = d.cache := rfl
@[simp] theorem Dev.setTdc_fills (g : Nat) (y : Tdc) : (d.setTdc g y).fills = d.fills := rfl
@[simp] theorem Dev.setTdc_strms (g : Nat) (y : Tdc) : (d.setTdc g y).strms = d.strms := rfl
@[simp] theorem Dev.setTdc_bufs (g : Nat) (y : Tdc) : (d.setTdc g y).bufs = d.bufs := rfl
@[simp] theorem Dev.setTdc_mbs (g : Nat) (y : Tdc) : (d.setTdc g y).mbs = d.mbs := rfl
@[simp] theorem Dev.setTdc_coal (g : Nat) (y : Tdc) : (d.setTdc g y).coal = d.coal := rfl
@[simp] theorem Dev.setTdc_calS (g : Nat) (y : Tdc) : (d.setTdc g y).calS = d.calS := rfl
@[simp] theorem Dev.setTdc_calA (g : Nat) (y : Tdc) : (d.setTdc g y).calA = d.calA := rfl
@[simp] theorem Dev.setTdc_calI (g : Nat) (y : Tdc) : (d.setTdc g y).calI = d.calI := rfl
@[simp] theorem Dev.setTdc_hist (g : Nat) (y : Tdc) : (d.setTdc g y).hist = d.hist := rfl
@[simp] theorem Dev.setTdc_lnk (g : Nat) (y : Tdc) : (d.setTdc g y).lnk = d.lnk := rfl
@[simp] theorem Dev.setTdc_ras (g : Nat) (y : Tdc) : (d.setTdc g y).ras = d.ras := rfl
@[simp] theorem Dev.setTdc_pow (g : Nat) (y : Tdc) : (d.setTdc g y).pow = d.pow := rfl
@[simp] theorem Dev.setTdc_thm (g : Nat) (y : Tdc) : (d.setTdc g y).thm = d.thm := rfl
@[simp] theorem Dev.setTdc_flt (g : Nat) (y : Tdc) : (d.setTdc g y).flt = d.flt := rfl
@[simp] theorem Dev.setTdc_bst (g : Nat) (y : Tdc) : (d.setTdc g y).bst = d.bst := rfl
@[simp] theorem Dev.setTdc_lcs (g : Nat) (y : Tdc) : (d.setTdc g y).lcs = d.lcs := rfl
@[simp] theorem Dev.setTdc_rst (g : Nat) (y : Tdc) : (d.setTdc g y).rst = d.rst := rfl
@[simp] theorem Dev.setTdc_msp (g : Nat) (y : Tdc) : (d.setTdc g y).msp = d.msp := rfl
@[simp] theorem Dev.setTdc_z64 (g : Nat) (y : Tdc) : (d.setTdc g y).z64 = d.z64 := rfl
@[simp] theorem Dev.setTdc_dumps (g : Nat) (y : Tdc) : (d.setTdc g y).dumps = d.dumps := rfl
@[simp] theorem Dev.setTdc_out (g : Nat) (y : Tdc) : (d.setTdc g y).out = d.out := rfl
@[simp] theorem Dev.setTdc_free (g : Nat) (y : Tdc) : (d.setTdc g y).free = d.free := rfl
@[simp] theorem Dev.setTdc_word (g : Nat) (y : Tdc) (a : Nat) : (d.setTdc g y).word a = d.word a := rfl
@[simp] theorem Dev.setTdc_get (g : Nat) (y : Tdc) (b : Nat) (f : Fld) : (d.setTdc g y).get b f = d.get b f := rfl
@[simp] theorem Dev.setTdc_bit (g : Nat) (y : Tdc) (b : Nat) (f : Fld) : (d.setTdc g y).bit b f = d.bit b f := rfl
@[simp] theorem Dev.setTdc_bitN (g : Nat) (y : Tdc) (b : Nat) (f : Fld) (i : Nat) : (d.setTdc g y).bitN b f i = d.bitN b f i := rfl
@[simp] theorem Dev.setTdc_present (g : Nat) (y : Tdc) (n' : Nat) : (d.setTdc g y).present n' = d.present n' := rfl
@[simp] theorem Dev.setTdc_pin (g : Nat) (y : Tdc) (g' : Nat) : (d.setTdc g y).pin g' = d.pin g' := rfl
@[simp] theorem Dev.setTdc_pmu (g : Nat) (y : Tdc) (g' : Nat) : (d.setTdc g y).pmu g' = d.pmu g' := rfl
@[simp] theorem Dev.setTdc_dp (g : Nat) (y : Tdc) (k' : Nat) : (d.setTdc g y).dp k' = d.dp k' := rfl
@[simp] theorem Dev.setTdc_gen (g : Nat) (y : Tdc) (w' : Nat) : (d.setTdc g y).gen w' = d.gen w' := rfl
@[simp] theorem Dev.setTdc_cx (g : Nat) (y : Tdc) (c' : Nat) : (d.setTdc g y).cx c' = d.cx c' := rfl
@[simp] theorem Dev.setTdc_eng (g : Nat) (y : Tdc) (n' : Nat) : (d.setTdc g y).eng n' = d.eng n' := rfl
@[simp] theorem Dev.setTdc_clu (g : Nat) (y : Tdc) (n' : Nat) : (d.setTdc g y).clu n' = d.clu n' := rfl
@[simp] theorem Dev.setTdc_slot (g : Nat) (y : Tdc) (s' : Nat) : (d.setTdc g y).slot s' = d.slot s' := rfl
@[simp] theorem Dev.setTdc_strm (g : Nat) (y : Tdc) (q' : Nat) : (d.setTdc g y).strm q' = d.strm q' := rfl
@[simp] theorem Dev.setTdc_mb (g : Nat) (y : Tdc) (m' : Nat) : (d.setTdc g y).mb m' = d.mb m' := rfl
@[simp] theorem Dev.setTdc_tdc (g : Nat) (y : Tdc) : (d.setTdc g y).tdc g = y := Tab.get_set_same ..
theorem Dev.setTdc_tdc_ne {g g' : Nat} (y : Tdc) (h : g' ≠ g) : (d.setTdc g y).tdc g' = d.tdc g' := Tab.get_set_ne _ _ _ h

@[simp] theorem Dev.setGen_regs (w : Nat) (y : Gen) : (d.setGen w y).regs = d.regs := rfl
@[simp] theorem Dev.setGen_snap (w : Nat) (y : Gen) : (d.setGen w y).snap = d.snap := rfl
@[simp] theorem Dev.setGen_snapHi (w : Nat) (y : Gen) : (d.setGen w y).snapHi = d.snapHi := rfl
@[simp] theorem Dev.setGen_fuse (w : Nat) (y : Gen) : (d.setGen w y).fuse = d.fuse := rfl
@[simp] theorem Dev.setGen_hif (w : Nat) (y : Gen) : (d.setGen w y).hif = d.hif := rfl
@[simp] theorem Dev.setGen_txn (w : Nat) (y : Gen) : (d.setGen w y).txn = d.txn := rfl
@[simp] theorem Dev.setGen_time (w : Nat) (y : Gen) : (d.setGen w y).time = d.time := rfl
@[simp] theorem Dev.setGen_pins (w : Nat) (y : Gen) : (d.setGen w y).pins = d.pins := rfl
@[simp] theorem Dev.setGen_pmus (w : Nat) (y : Gen) : (d.setGen w y).pmus = d.pmus := rfl
@[simp] theorem Dev.setGen_dpss (w : Nat) (y : Gen) : (d.setGen w y).dpss = d.dpss := rfl
@[simp] theorem Dev.setGen_tdcs (w : Nat) (y : Gen) : (d.setGen w y).tdcs = d.tdcs := rfl
@[simp] theorem Dev.setGen_ctxs (w : Nat) (y : Gen) : (d.setGen w y).ctxs = d.ctxs := rfl
@[simp] theorem Dev.setGen_engs (w : Nat) (y : Gen) : (d.setGen w y).engs = d.engs := rfl
@[simp] theorem Dev.setGen_clus (w : Nat) (y : Gen) : (d.setGen w y).clus = d.clus := rfl
@[simp] theorem Dev.setGen_blankArm (w : Nat) (y : Gen) : (d.setGen w y).blankArm = d.blankArm := rfl
@[simp] theorem Dev.setGen_startQ (w : Nat) (y : Gen) : (d.setGen w y).startQ = d.startQ := rfl
@[simp] theorem Dev.setGen_blankOpen (w : Nat) (y : Gen) : (d.setGen w y).blankOpen = d.blankOpen := rfl
@[simp] theorem Dev.setGen_cache (w : Nat) (y : Gen) : (d.setGen w y).cache = d.cache := rfl
@[simp] theorem Dev.setGen_fills (w : Nat) (y : Gen) : (d.setGen w y).fills = d.fills := rfl
@[simp] theorem Dev.setGen_strms (w : Nat) (y : Gen) : (d.setGen w y).strms = d.strms := rfl
@[simp] theorem Dev.setGen_bufs (w : Nat) (y : Gen) : (d.setGen w y).bufs = d.bufs := rfl
@[simp] theorem Dev.setGen_mbs (w : Nat) (y : Gen) : (d.setGen w y).mbs = d.mbs := rfl
@[simp] theorem Dev.setGen_coal (w : Nat) (y : Gen) : (d.setGen w y).coal = d.coal := rfl
@[simp] theorem Dev.setGen_calS (w : Nat) (y : Gen) : (d.setGen w y).calS = d.calS := rfl
@[simp] theorem Dev.setGen_calA (w : Nat) (y : Gen) : (d.setGen w y).calA = d.calA := rfl
@[simp] theorem Dev.setGen_calI (w : Nat) (y : Gen) : (d.setGen w y).calI = d.calI := rfl
@[simp] theorem Dev.setGen_hist (w : Nat) (y : Gen) : (d.setGen w y).hist = d.hist := rfl
@[simp] theorem Dev.setGen_lnk (w : Nat) (y : Gen) : (d.setGen w y).lnk = d.lnk := rfl
@[simp] theorem Dev.setGen_ras (w : Nat) (y : Gen) : (d.setGen w y).ras = d.ras := rfl
@[simp] theorem Dev.setGen_pow (w : Nat) (y : Gen) : (d.setGen w y).pow = d.pow := rfl
@[simp] theorem Dev.setGen_thm (w : Nat) (y : Gen) : (d.setGen w y).thm = d.thm := rfl
@[simp] theorem Dev.setGen_flt (w : Nat) (y : Gen) : (d.setGen w y).flt = d.flt := rfl
@[simp] theorem Dev.setGen_bst (w : Nat) (y : Gen) : (d.setGen w y).bst = d.bst := rfl
@[simp] theorem Dev.setGen_lcs (w : Nat) (y : Gen) : (d.setGen w y).lcs = d.lcs := rfl
@[simp] theorem Dev.setGen_rst (w : Nat) (y : Gen) : (d.setGen w y).rst = d.rst := rfl
@[simp] theorem Dev.setGen_msp (w : Nat) (y : Gen) : (d.setGen w y).msp = d.msp := rfl
@[simp] theorem Dev.setGen_z64 (w : Nat) (y : Gen) : (d.setGen w y).z64 = d.z64 := rfl
@[simp] theorem Dev.setGen_dumps (w : Nat) (y : Gen) : (d.setGen w y).dumps = d.dumps := rfl
@[simp] theorem Dev.setGen_out (w : Nat) (y : Gen) : (d.setGen w y).out = d.out := rfl
@[simp] theorem Dev.setGen_free (w : Nat) (y : Gen) : (d.setGen w y).free = d.free := rfl
@[simp] theorem Dev.setGen_word (w : Nat) (y : Gen) (a : Nat) : (d.setGen w y).word a = d.word a := rfl
@[simp] theorem Dev.setGen_get (w : Nat) (y : Gen) (b : Nat) (f : Fld) : (d.setGen w y).get b f = d.get b f := rfl
@[simp] theorem Dev.setGen_bit (w : Nat) (y : Gen) (b : Nat) (f : Fld) : (d.setGen w y).bit b f = d.bit b f := rfl
@[simp] theorem Dev.setGen_bitN (w : Nat) (y : Gen) (b : Nat) (f : Fld) (i : Nat) : (d.setGen w y).bitN b f i = d.bitN b f i := rfl
@[simp] theorem Dev.setGen_present (w : Nat) (y : Gen) (n' : Nat) : (d.setGen w y).present n' = d.present n' := rfl
@[simp] theorem Dev.setGen_pin (w : Nat) (y : Gen) (g' : Nat) : (d.setGen w y).pin g' = d.pin g' := rfl
@[simp] theorem Dev.setGen_pmu (w : Nat) (y : Gen) (g' : Nat) : (d.setGen w y).pmu g' = d.pmu g' := rfl
@[simp] theorem Dev.setGen_dp (w : Nat) (y : Gen) (k' : Nat) : (d.setGen w y).dp k' = d.dp k' := rfl
@[simp] theorem Dev.setGen_tdc (w : Nat) (y : Gen) (g' : Nat) : (d.setGen w y).tdc g' = d.tdc g' := rfl
@[simp] theorem Dev.setGen_cx (w : Nat) (y : Gen) (c' : Nat) : (d.setGen w y).cx c' = d.cx c' := rfl
@[simp] theorem Dev.setGen_eng (w : Nat) (y : Gen) (n' : Nat) : (d.setGen w y).eng n' = d.eng n' := rfl
@[simp] theorem Dev.setGen_clu (w : Nat) (y : Gen) (n' : Nat) : (d.setGen w y).clu n' = d.clu n' := rfl
@[simp] theorem Dev.setGen_slot (w : Nat) (y : Gen) (s' : Nat) : (d.setGen w y).slot s' = d.slot s' := rfl
@[simp] theorem Dev.setGen_strm (w : Nat) (y : Gen) (q' : Nat) : (d.setGen w y).strm q' = d.strm q' := rfl
@[simp] theorem Dev.setGen_mb (w : Nat) (y : Gen) (m' : Nat) : (d.setGen w y).mb m' = d.mb m' := rfl
@[simp] theorem Dev.setGen_gen (w : Nat) (y : Gen) : (d.setGen w y).gen w = y := Tab.get_set_same ..
theorem Dev.setGen_gen_ne {w w' : Nat} (y : Gen) (h : w' ≠ w) : (d.setGen w y).gen w' = d.gen w' := Tab.get_set_ne _ _ _ h

@[simp] theorem Dev.setCx_regs (c : Nat) (y : Ctx) : (d.setCx c y).regs = d.regs := rfl
@[simp] theorem Dev.setCx_snap (c : Nat) (y : Ctx) : (d.setCx c y).snap = d.snap := rfl
@[simp] theorem Dev.setCx_snapHi (c : Nat) (y : Ctx) : (d.setCx c y).snapHi = d.snapHi := rfl
@[simp] theorem Dev.setCx_fuse (c : Nat) (y : Ctx) : (d.setCx c y).fuse = d.fuse := rfl
@[simp] theorem Dev.setCx_hif (c : Nat) (y : Ctx) : (d.setCx c y).hif = d.hif := rfl
@[simp] theorem Dev.setCx_txn (c : Nat) (y : Ctx) : (d.setCx c y).txn = d.txn := rfl
@[simp] theorem Dev.setCx_time (c : Nat) (y : Ctx) : (d.setCx c y).time = d.time := rfl
@[simp] theorem Dev.setCx_pins (c : Nat) (y : Ctx) : (d.setCx c y).pins = d.pins := rfl
@[simp] theorem Dev.setCx_pmus (c : Nat) (y : Ctx) : (d.setCx c y).pmus = d.pmus := rfl
@[simp] theorem Dev.setCx_dpss (c : Nat) (y : Ctx) : (d.setCx c y).dpss = d.dpss := rfl
@[simp] theorem Dev.setCx_tdcs (c : Nat) (y : Ctx) : (d.setCx c y).tdcs = d.tdcs := rfl
@[simp] theorem Dev.setCx_gens (c : Nat) (y : Ctx) : (d.setCx c y).gens = d.gens := rfl
@[simp] theorem Dev.setCx_engs (c : Nat) (y : Ctx) : (d.setCx c y).engs = d.engs := rfl
@[simp] theorem Dev.setCx_clus (c : Nat) (y : Ctx) : (d.setCx c y).clus = d.clus := rfl
@[simp] theorem Dev.setCx_blankArm (c : Nat) (y : Ctx) : (d.setCx c y).blankArm = d.blankArm := rfl
@[simp] theorem Dev.setCx_startQ (c : Nat) (y : Ctx) : (d.setCx c y).startQ = d.startQ := rfl
@[simp] theorem Dev.setCx_blankOpen (c : Nat) (y : Ctx) : (d.setCx c y).blankOpen = d.blankOpen := rfl
@[simp] theorem Dev.setCx_cache (c : Nat) (y : Ctx) : (d.setCx c y).cache = d.cache := rfl
@[simp] theorem Dev.setCx_fills (c : Nat) (y : Ctx) : (d.setCx c y).fills = d.fills := rfl
@[simp] theorem Dev.setCx_strms (c : Nat) (y : Ctx) : (d.setCx c y).strms = d.strms := rfl
@[simp] theorem Dev.setCx_bufs (c : Nat) (y : Ctx) : (d.setCx c y).bufs = d.bufs := rfl
@[simp] theorem Dev.setCx_mbs (c : Nat) (y : Ctx) : (d.setCx c y).mbs = d.mbs := rfl
@[simp] theorem Dev.setCx_coal (c : Nat) (y : Ctx) : (d.setCx c y).coal = d.coal := rfl
@[simp] theorem Dev.setCx_calS (c : Nat) (y : Ctx) : (d.setCx c y).calS = d.calS := rfl
@[simp] theorem Dev.setCx_calA (c : Nat) (y : Ctx) : (d.setCx c y).calA = d.calA := rfl
@[simp] theorem Dev.setCx_calI (c : Nat) (y : Ctx) : (d.setCx c y).calI = d.calI := rfl
@[simp] theorem Dev.setCx_hist (c : Nat) (y : Ctx) : (d.setCx c y).hist = d.hist := rfl
@[simp] theorem Dev.setCx_lnk (c : Nat) (y : Ctx) : (d.setCx c y).lnk = d.lnk := rfl
@[simp] theorem Dev.setCx_ras (c : Nat) (y : Ctx) : (d.setCx c y).ras = d.ras := rfl
@[simp] theorem Dev.setCx_pow (c : Nat) (y : Ctx) : (d.setCx c y).pow = d.pow := rfl
@[simp] theorem Dev.setCx_thm (c : Nat) (y : Ctx) : (d.setCx c y).thm = d.thm := rfl
@[simp] theorem Dev.setCx_flt (c : Nat) (y : Ctx) : (d.setCx c y).flt = d.flt := rfl
@[simp] theorem Dev.setCx_bst (c : Nat) (y : Ctx) : (d.setCx c y).bst = d.bst := rfl
@[simp] theorem Dev.setCx_lcs (c : Nat) (y : Ctx) : (d.setCx c y).lcs = d.lcs := rfl
@[simp] theorem Dev.setCx_rst (c : Nat) (y : Ctx) : (d.setCx c y).rst = d.rst := rfl
@[simp] theorem Dev.setCx_msp (c : Nat) (y : Ctx) : (d.setCx c y).msp = d.msp := rfl
@[simp] theorem Dev.setCx_z64 (c : Nat) (y : Ctx) : (d.setCx c y).z64 = d.z64 := rfl
@[simp] theorem Dev.setCx_dumps (c : Nat) (y : Ctx) : (d.setCx c y).dumps = d.dumps := rfl
@[simp] theorem Dev.setCx_out (c : Nat) (y : Ctx) : (d.setCx c y).out = d.out := rfl
@[simp] theorem Dev.setCx_free (c : Nat) (y : Ctx) : (d.setCx c y).free = d.free := rfl
@[simp] theorem Dev.setCx_word (c : Nat) (y : Ctx) (a : Nat) : (d.setCx c y).word a = d.word a := rfl
@[simp] theorem Dev.setCx_get (c : Nat) (y : Ctx) (b : Nat) (f : Fld) : (d.setCx c y).get b f = d.get b f := rfl
@[simp] theorem Dev.setCx_bit (c : Nat) (y : Ctx) (b : Nat) (f : Fld) : (d.setCx c y).bit b f = d.bit b f := rfl
@[simp] theorem Dev.setCx_bitN (c : Nat) (y : Ctx) (b : Nat) (f : Fld) (i : Nat) : (d.setCx c y).bitN b f i = d.bitN b f i := rfl
@[simp] theorem Dev.setCx_present (c : Nat) (y : Ctx) (n' : Nat) : (d.setCx c y).present n' = d.present n' := rfl
@[simp] theorem Dev.setCx_pin (c : Nat) (y : Ctx) (g' : Nat) : (d.setCx c y).pin g' = d.pin g' := rfl
@[simp] theorem Dev.setCx_pmu (c : Nat) (y : Ctx) (g' : Nat) : (d.setCx c y).pmu g' = d.pmu g' := rfl
@[simp] theorem Dev.setCx_dp (c : Nat) (y : Ctx) (k' : Nat) : (d.setCx c y).dp k' = d.dp k' := rfl
@[simp] theorem Dev.setCx_tdc (c : Nat) (y : Ctx) (g' : Nat) : (d.setCx c y).tdc g' = d.tdc g' := rfl
@[simp] theorem Dev.setCx_gen (c : Nat) (y : Ctx) (w' : Nat) : (d.setCx c y).gen w' = d.gen w' := rfl
@[simp] theorem Dev.setCx_eng (c : Nat) (y : Ctx) (n' : Nat) : (d.setCx c y).eng n' = d.eng n' := rfl
@[simp] theorem Dev.setCx_clu (c : Nat) (y : Ctx) (n' : Nat) : (d.setCx c y).clu n' = d.clu n' := rfl
@[simp] theorem Dev.setCx_slot (c : Nat) (y : Ctx) (s' : Nat) : (d.setCx c y).slot s' = d.slot s' := rfl
@[simp] theorem Dev.setCx_strm (c : Nat) (y : Ctx) (q' : Nat) : (d.setCx c y).strm q' = d.strm q' := rfl
@[simp] theorem Dev.setCx_mb (c : Nat) (y : Ctx) (m' : Nat) : (d.setCx c y).mb m' = d.mb m' := rfl
@[simp] theorem Dev.setCx_cx (c : Nat) (y : Ctx) : (d.setCx c y).cx c = y := Tab.get_set_same ..
theorem Dev.setCx_cx_ne {c c' : Nat} (y : Ctx) (h : c' ≠ c) : (d.setCx c y).cx c' = d.cx c' := Tab.get_set_ne _ _ _ h

@[simp] theorem Dev.setEng_regs (n : Nat) (y : Eng) : (d.setEng n y).regs = d.regs := rfl
@[simp] theorem Dev.setEng_snap (n : Nat) (y : Eng) : (d.setEng n y).snap = d.snap := rfl
@[simp] theorem Dev.setEng_snapHi (n : Nat) (y : Eng) : (d.setEng n y).snapHi = d.snapHi := rfl
@[simp] theorem Dev.setEng_fuse (n : Nat) (y : Eng) : (d.setEng n y).fuse = d.fuse := rfl
@[simp] theorem Dev.setEng_hif (n : Nat) (y : Eng) : (d.setEng n y).hif = d.hif := rfl
@[simp] theorem Dev.setEng_txn (n : Nat) (y : Eng) : (d.setEng n y).txn = d.txn := rfl
@[simp] theorem Dev.setEng_time (n : Nat) (y : Eng) : (d.setEng n y).time = d.time := rfl
@[simp] theorem Dev.setEng_pins (n : Nat) (y : Eng) : (d.setEng n y).pins = d.pins := rfl
@[simp] theorem Dev.setEng_pmus (n : Nat) (y : Eng) : (d.setEng n y).pmus = d.pmus := rfl
@[simp] theorem Dev.setEng_dpss (n : Nat) (y : Eng) : (d.setEng n y).dpss = d.dpss := rfl
@[simp] theorem Dev.setEng_tdcs (n : Nat) (y : Eng) : (d.setEng n y).tdcs = d.tdcs := rfl
@[simp] theorem Dev.setEng_gens (n : Nat) (y : Eng) : (d.setEng n y).gens = d.gens := rfl
@[simp] theorem Dev.setEng_ctxs (n : Nat) (y : Eng) : (d.setEng n y).ctxs = d.ctxs := rfl
@[simp] theorem Dev.setEng_clus (n : Nat) (y : Eng) : (d.setEng n y).clus = d.clus := rfl
@[simp] theorem Dev.setEng_blankArm (n : Nat) (y : Eng) : (d.setEng n y).blankArm = d.blankArm := rfl
@[simp] theorem Dev.setEng_startQ (n : Nat) (y : Eng) : (d.setEng n y).startQ = d.startQ := rfl
@[simp] theorem Dev.setEng_blankOpen (n : Nat) (y : Eng) : (d.setEng n y).blankOpen = d.blankOpen := rfl
@[simp] theorem Dev.setEng_cache (n : Nat) (y : Eng) : (d.setEng n y).cache = d.cache := rfl
@[simp] theorem Dev.setEng_fills (n : Nat) (y : Eng) : (d.setEng n y).fills = d.fills := rfl
@[simp] theorem Dev.setEng_strms (n : Nat) (y : Eng) : (d.setEng n y).strms = d.strms := rfl
@[simp] theorem Dev.setEng_bufs (n : Nat) (y : Eng) : (d.setEng n y).bufs = d.bufs := rfl
@[simp] theorem Dev.setEng_mbs (n : Nat) (y : Eng) : (d.setEng n y).mbs = d.mbs := rfl
@[simp] theorem Dev.setEng_coal (n : Nat) (y : Eng) : (d.setEng n y).coal = d.coal := rfl
@[simp] theorem Dev.setEng_calS (n : Nat) (y : Eng) : (d.setEng n y).calS = d.calS := rfl
@[simp] theorem Dev.setEng_calA (n : Nat) (y : Eng) : (d.setEng n y).calA = d.calA := rfl
@[simp] theorem Dev.setEng_calI (n : Nat) (y : Eng) : (d.setEng n y).calI = d.calI := rfl
@[simp] theorem Dev.setEng_hist (n : Nat) (y : Eng) : (d.setEng n y).hist = d.hist := rfl
@[simp] theorem Dev.setEng_lnk (n : Nat) (y : Eng) : (d.setEng n y).lnk = d.lnk := rfl
@[simp] theorem Dev.setEng_ras (n : Nat) (y : Eng) : (d.setEng n y).ras = d.ras := rfl
@[simp] theorem Dev.setEng_pow (n : Nat) (y : Eng) : (d.setEng n y).pow = d.pow := rfl
@[simp] theorem Dev.setEng_thm (n : Nat) (y : Eng) : (d.setEng n y).thm = d.thm := rfl
@[simp] theorem Dev.setEng_flt (n : Nat) (y : Eng) : (d.setEng n y).flt = d.flt := rfl
@[simp] theorem Dev.setEng_bst (n : Nat) (y : Eng) : (d.setEng n y).bst = d.bst := rfl
@[simp] theorem Dev.setEng_lcs (n : Nat) (y : Eng) : (d.setEng n y).lcs = d.lcs := rfl
@[simp] theorem Dev.setEng_rst (n : Nat) (y : Eng) : (d.setEng n y).rst = d.rst := rfl
@[simp] theorem Dev.setEng_msp (n : Nat) (y : Eng) : (d.setEng n y).msp = d.msp := rfl
@[simp] theorem Dev.setEng_z64 (n : Nat) (y : Eng) : (d.setEng n y).z64 = d.z64 := rfl
@[simp] theorem Dev.setEng_dumps (n : Nat) (y : Eng) : (d.setEng n y).dumps = d.dumps := rfl
@[simp] theorem Dev.setEng_out (n : Nat) (y : Eng) : (d.setEng n y).out = d.out := rfl
@[simp] theorem Dev.setEng_free (n : Nat) (y : Eng) : (d.setEng n y).free = d.free := rfl
@[simp] theorem Dev.setEng_word (n : Nat) (y : Eng) (a : Nat) : (d.setEng n y).word a = d.word a := rfl
@[simp] theorem Dev.setEng_get (n : Nat) (y : Eng) (b : Nat) (f : Fld) : (d.setEng n y).get b f = d.get b f := rfl
@[simp] theorem Dev.setEng_bit (n : Nat) (y : Eng) (b : Nat) (f : Fld) : (d.setEng n y).bit b f = d.bit b f := rfl
@[simp] theorem Dev.setEng_bitN (n : Nat) (y : Eng) (b : Nat) (f : Fld) (i : Nat) : (d.setEng n y).bitN b f i = d.bitN b f i := rfl
@[simp] theorem Dev.setEng_present (n : Nat) (y : Eng) (n' : Nat) : (d.setEng n y).present n' = d.present n' := rfl
@[simp] theorem Dev.setEng_pin (n : Nat) (y : Eng) (g' : Nat) : (d.setEng n y).pin g' = d.pin g' := rfl
@[simp] theorem Dev.setEng_pmu (n : Nat) (y : Eng) (g' : Nat) : (d.setEng n y).pmu g' = d.pmu g' := rfl
@[simp] theorem Dev.setEng_dp (n : Nat) (y : Eng) (k' : Nat) : (d.setEng n y).dp k' = d.dp k' := rfl
@[simp] theorem Dev.setEng_tdc (n : Nat) (y : Eng) (g' : Nat) : (d.setEng n y).tdc g' = d.tdc g' := rfl
@[simp] theorem Dev.setEng_gen (n : Nat) (y : Eng) (w' : Nat) : (d.setEng n y).gen w' = d.gen w' := rfl
@[simp] theorem Dev.setEng_cx (n : Nat) (y : Eng) (c' : Nat) : (d.setEng n y).cx c' = d.cx c' := rfl
@[simp] theorem Dev.setEng_clu (n : Nat) (y : Eng) (n' : Nat) : (d.setEng n y).clu n' = d.clu n' := rfl
@[simp] theorem Dev.setEng_slot (n : Nat) (y : Eng) (s' : Nat) : (d.setEng n y).slot s' = d.slot s' := rfl
@[simp] theorem Dev.setEng_strm (n : Nat) (y : Eng) (q' : Nat) : (d.setEng n y).strm q' = d.strm q' := rfl
@[simp] theorem Dev.setEng_mb (n : Nat) (y : Eng) (m' : Nat) : (d.setEng n y).mb m' = d.mb m' := rfl
@[simp] theorem Dev.setEng_eng (n : Nat) (y : Eng) : (d.setEng n y).eng n = y := Tab.get_set_same ..
theorem Dev.setEng_eng_ne {n n' : Nat} (y : Eng) (h : n' ≠ n) : (d.setEng n y).eng n' = d.eng n' := Tab.get_set_ne _ _ _ h

@[simp] theorem Dev.setClu_regs (n : Nat) (y : Clu) : (d.setClu n y).regs = d.regs := rfl
@[simp] theorem Dev.setClu_snap (n : Nat) (y : Clu) : (d.setClu n y).snap = d.snap := rfl
@[simp] theorem Dev.setClu_snapHi (n : Nat) (y : Clu) : (d.setClu n y).snapHi = d.snapHi := rfl
@[simp] theorem Dev.setClu_fuse (n : Nat) (y : Clu) : (d.setClu n y).fuse = d.fuse := rfl
@[simp] theorem Dev.setClu_hif (n : Nat) (y : Clu) : (d.setClu n y).hif = d.hif := rfl
@[simp] theorem Dev.setClu_txn (n : Nat) (y : Clu) : (d.setClu n y).txn = d.txn := rfl
@[simp] theorem Dev.setClu_time (n : Nat) (y : Clu) : (d.setClu n y).time = d.time := rfl
@[simp] theorem Dev.setClu_pins (n : Nat) (y : Clu) : (d.setClu n y).pins = d.pins := rfl
@[simp] theorem Dev.setClu_pmus (n : Nat) (y : Clu) : (d.setClu n y).pmus = d.pmus := rfl
@[simp] theorem Dev.setClu_dpss (n : Nat) (y : Clu) : (d.setClu n y).dpss = d.dpss := rfl
@[simp] theorem Dev.setClu_tdcs (n : Nat) (y : Clu) : (d.setClu n y).tdcs = d.tdcs := rfl
@[simp] theorem Dev.setClu_gens (n : Nat) (y : Clu) : (d.setClu n y).gens = d.gens := rfl
@[simp] theorem Dev.setClu_ctxs (n : Nat) (y : Clu) : (d.setClu n y).ctxs = d.ctxs := rfl
@[simp] theorem Dev.setClu_engs (n : Nat) (y : Clu) : (d.setClu n y).engs = d.engs := rfl
@[simp] theorem Dev.setClu_blankArm (n : Nat) (y : Clu) : (d.setClu n y).blankArm = d.blankArm := rfl
@[simp] theorem Dev.setClu_startQ (n : Nat) (y : Clu) : (d.setClu n y).startQ = d.startQ := rfl
@[simp] theorem Dev.setClu_blankOpen (n : Nat) (y : Clu) : (d.setClu n y).blankOpen = d.blankOpen := rfl
@[simp] theorem Dev.setClu_cache (n : Nat) (y : Clu) : (d.setClu n y).cache = d.cache := rfl
@[simp] theorem Dev.setClu_fills (n : Nat) (y : Clu) : (d.setClu n y).fills = d.fills := rfl
@[simp] theorem Dev.setClu_strms (n : Nat) (y : Clu) : (d.setClu n y).strms = d.strms := rfl
@[simp] theorem Dev.setClu_bufs (n : Nat) (y : Clu) : (d.setClu n y).bufs = d.bufs := rfl
@[simp] theorem Dev.setClu_mbs (n : Nat) (y : Clu) : (d.setClu n y).mbs = d.mbs := rfl
@[simp] theorem Dev.setClu_coal (n : Nat) (y : Clu) : (d.setClu n y).coal = d.coal := rfl
@[simp] theorem Dev.setClu_calS (n : Nat) (y : Clu) : (d.setClu n y).calS = d.calS := rfl
@[simp] theorem Dev.setClu_calA (n : Nat) (y : Clu) : (d.setClu n y).calA = d.calA := rfl
@[simp] theorem Dev.setClu_calI (n : Nat) (y : Clu) : (d.setClu n y).calI = d.calI := rfl
@[simp] theorem Dev.setClu_hist (n : Nat) (y : Clu) : (d.setClu n y).hist = d.hist := rfl
@[simp] theorem Dev.setClu_lnk (n : Nat) (y : Clu) : (d.setClu n y).lnk = d.lnk := rfl
@[simp] theorem Dev.setClu_ras (n : Nat) (y : Clu) : (d.setClu n y).ras = d.ras := rfl
@[simp] theorem Dev.setClu_pow (n : Nat) (y : Clu) : (d.setClu n y).pow = d.pow := rfl
@[simp] theorem Dev.setClu_thm (n : Nat) (y : Clu) : (d.setClu n y).thm = d.thm := rfl
@[simp] theorem Dev.setClu_flt (n : Nat) (y : Clu) : (d.setClu n y).flt = d.flt := rfl
@[simp] theorem Dev.setClu_bst (n : Nat) (y : Clu) : (d.setClu n y).bst = d.bst := rfl
@[simp] theorem Dev.setClu_lcs (n : Nat) (y : Clu) : (d.setClu n y).lcs = d.lcs := rfl
@[simp] theorem Dev.setClu_rst (n : Nat) (y : Clu) : (d.setClu n y).rst = d.rst := rfl
@[simp] theorem Dev.setClu_msp (n : Nat) (y : Clu) : (d.setClu n y).msp = d.msp := rfl
@[simp] theorem Dev.setClu_z64 (n : Nat) (y : Clu) : (d.setClu n y).z64 = d.z64 := rfl
@[simp] theorem Dev.setClu_dumps (n : Nat) (y : Clu) : (d.setClu n y).dumps = d.dumps := rfl
@[simp] theorem Dev.setClu_out (n : Nat) (y : Clu) : (d.setClu n y).out = d.out := rfl
@[simp] theorem Dev.setClu_free (n : Nat) (y : Clu) : (d.setClu n y).free = d.free := rfl
@[simp] theorem Dev.setClu_word (n : Nat) (y : Clu) (a : Nat) : (d.setClu n y).word a = d.word a := rfl
@[simp] theorem Dev.setClu_get (n : Nat) (y : Clu) (b : Nat) (f : Fld) : (d.setClu n y).get b f = d.get b f := rfl
@[simp] theorem Dev.setClu_bit (n : Nat) (y : Clu) (b : Nat) (f : Fld) : (d.setClu n y).bit b f = d.bit b f := rfl
@[simp] theorem Dev.setClu_bitN (n : Nat) (y : Clu) (b : Nat) (f : Fld) (i : Nat) : (d.setClu n y).bitN b f i = d.bitN b f i := rfl
@[simp] theorem Dev.setClu_present (n : Nat) (y : Clu) (n' : Nat) : (d.setClu n y).present n' = d.present n' := rfl
@[simp] theorem Dev.setClu_pin (n : Nat) (y : Clu) (g' : Nat) : (d.setClu n y).pin g' = d.pin g' := rfl
@[simp] theorem Dev.setClu_pmu (n : Nat) (y : Clu) (g' : Nat) : (d.setClu n y).pmu g' = d.pmu g' := rfl
@[simp] theorem Dev.setClu_dp (n : Nat) (y : Clu) (k' : Nat) : (d.setClu n y).dp k' = d.dp k' := rfl
@[simp] theorem Dev.setClu_tdc (n : Nat) (y : Clu) (g' : Nat) : (d.setClu n y).tdc g' = d.tdc g' := rfl
@[simp] theorem Dev.setClu_gen (n : Nat) (y : Clu) (w' : Nat) : (d.setClu n y).gen w' = d.gen w' := rfl
@[simp] theorem Dev.setClu_cx (n : Nat) (y : Clu) (c' : Nat) : (d.setClu n y).cx c' = d.cx c' := rfl
@[simp] theorem Dev.setClu_eng (n : Nat) (y : Clu) (n' : Nat) : (d.setClu n y).eng n' = d.eng n' := rfl
@[simp] theorem Dev.setClu_slot (n : Nat) (y : Clu) (s' : Nat) : (d.setClu n y).slot s' = d.slot s' := rfl
@[simp] theorem Dev.setClu_strm (n : Nat) (y : Clu) (q' : Nat) : (d.setClu n y).strm q' = d.strm q' := rfl
@[simp] theorem Dev.setClu_mb (n : Nat) (y : Clu) (m' : Nat) : (d.setClu n y).mb m' = d.mb m' := rfl
@[simp] theorem Dev.setClu_clu (n : Nat) (y : Clu) : (d.setClu n y).clu n = y := Tab.get_set_same ..
theorem Dev.setClu_clu_ne {n n' : Nat} (y : Clu) (h : n' ≠ n) : (d.setClu n y).clu n' = d.clu n' := Tab.get_set_ne _ _ _ h

@[simp] theorem Dev.setSlot_regs (s : Nat) (y : TSlot) : (d.setSlot s y).regs = d.regs := rfl
@[simp] theorem Dev.setSlot_snap (s : Nat) (y : TSlot) : (d.setSlot s y).snap = d.snap := rfl
@[simp] theorem Dev.setSlot_snapHi (s : Nat) (y : TSlot) : (d.setSlot s y).snapHi = d.snapHi := rfl
@[simp] theorem Dev.setSlot_fuse (s : Nat) (y : TSlot) : (d.setSlot s y).fuse = d.fuse := rfl
@[simp] theorem Dev.setSlot_hif (s : Nat) (y : TSlot) : (d.setSlot s y).hif = d.hif := rfl
@[simp] theorem Dev.setSlot_time (s : Nat) (y : TSlot) : (d.setSlot s y).time = d.time := rfl
@[simp] theorem Dev.setSlot_pins (s : Nat) (y : TSlot) : (d.setSlot s y).pins = d.pins := rfl
@[simp] theorem Dev.setSlot_pmus (s : Nat) (y : TSlot) : (d.setSlot s y).pmus = d.pmus := rfl
@[simp] theorem Dev.setSlot_dpss (s : Nat) (y : TSlot) : (d.setSlot s y).dpss = d.dpss := rfl
@[simp] theorem Dev.setSlot_tdcs (s : Nat) (y : TSlot) : (d.setSlot s y).tdcs = d.tdcs := rfl
@[simp] theorem Dev.setSlot_gens (s : Nat) (y : TSlot) : (d.setSlot s y).gens = d.gens := rfl
@[simp] theorem Dev.setSlot_ctxs (s : Nat) (y : TSlot) : (d.setSlot s y).ctxs = d.ctxs := rfl
@[simp] theorem Dev.setSlot_engs (s : Nat) (y : TSlot) : (d.setSlot s y).engs = d.engs := rfl
@[simp] theorem Dev.setSlot_clus (s : Nat) (y : TSlot) : (d.setSlot s y).clus = d.clus := rfl
@[simp] theorem Dev.setSlot_blankArm (s : Nat) (y : TSlot) : (d.setSlot s y).blankArm = d.blankArm := rfl
@[simp] theorem Dev.setSlot_startQ (s : Nat) (y : TSlot) : (d.setSlot s y).startQ = d.startQ := rfl
@[simp] theorem Dev.setSlot_blankOpen (s : Nat) (y : TSlot) : (d.setSlot s y).blankOpen = d.blankOpen := rfl
@[simp] theorem Dev.setSlot_cache (s : Nat) (y : TSlot) : (d.setSlot s y).cache = d.cache := rfl
@[simp] theorem Dev.setSlot_fills (s : Nat) (y : TSlot) : (d.setSlot s y).fills = d.fills := rfl
@[simp] theorem Dev.setSlot_strms (s : Nat) (y : TSlot) : (d.setSlot s y).strms = d.strms := rfl
@[simp] theorem Dev.setSlot_bufs (s : Nat) (y : TSlot) : (d.setSlot s y).bufs = d.bufs := rfl
@[simp] theorem Dev.setSlot_mbs (s : Nat) (y : TSlot) : (d.setSlot s y).mbs = d.mbs := rfl
@[simp] theorem Dev.setSlot_coal (s : Nat) (y : TSlot) : (d.setSlot s y).coal = d.coal := rfl
@[simp] theorem Dev.setSlot_calS (s : Nat) (y : TSlot) : (d.setSlot s y).calS = d.calS := rfl
@[simp] theorem Dev.setSlot_calA (s : Nat) (y : TSlot) : (d.setSlot s y).calA = d.calA := rfl
@[simp] theorem Dev.setSlot_calI (s : Nat) (y : TSlot) : (d.setSlot s y).calI = d.calI := rfl
@[simp] theorem Dev.setSlot_hist (s : Nat) (y : TSlot) : (d.setSlot s y).hist = d.hist := rfl
@[simp] theorem Dev.setSlot_lnk (s : Nat) (y : TSlot) : (d.setSlot s y).lnk = d.lnk := rfl
@[simp] theorem Dev.setSlot_ras (s : Nat) (y : TSlot) : (d.setSlot s y).ras = d.ras := rfl
@[simp] theorem Dev.setSlot_pow (s : Nat) (y : TSlot) : (d.setSlot s y).pow = d.pow := rfl
@[simp] theorem Dev.setSlot_thm (s : Nat) (y : TSlot) : (d.setSlot s y).thm = d.thm := rfl
@[simp] theorem Dev.setSlot_flt (s : Nat) (y : TSlot) : (d.setSlot s y).flt = d.flt := rfl
@[simp] theorem Dev.setSlot_bst (s : Nat) (y : TSlot) : (d.setSlot s y).bst = d.bst := rfl
@[simp] theorem Dev.setSlot_lcs (s : Nat) (y : TSlot) : (d.setSlot s y).lcs = d.lcs := rfl
@[simp] theorem Dev.setSlot_rst (s : Nat) (y : TSlot) : (d.setSlot s y).rst = d.rst := rfl
@[simp] theorem Dev.setSlot_msp (s : Nat) (y : TSlot) : (d.setSlot s y).msp = d.msp := rfl
@[simp] theorem Dev.setSlot_z64 (s : Nat) (y : TSlot) : (d.setSlot s y).z64 = d.z64 := rfl
@[simp] theorem Dev.setSlot_dumps (s : Nat) (y : TSlot) : (d.setSlot s y).dumps = d.dumps := rfl
@[simp] theorem Dev.setSlot_out (s : Nat) (y : TSlot) : (d.setSlot s y).out = d.out := rfl
@[simp] theorem Dev.setSlot_free (s : Nat) (y : TSlot) : (d.setSlot s y).free = d.free := rfl
@[simp] theorem Dev.setSlot_word (s : Nat) (y : TSlot) (a : Nat) : (d.setSlot s y).word a = d.word a := rfl
@[simp] theorem Dev.setSlot_get (s : Nat) (y : TSlot) (b : Nat) (f : Fld) : (d.setSlot s y).get b f = d.get b f := rfl
@[simp] theorem Dev.setSlot_bit (s : Nat) (y : TSlot) (b : Nat) (f : Fld) : (d.setSlot s y).bit b f = d.bit b f := rfl
@[simp] theorem Dev.setSlot_bitN (s : Nat) (y : TSlot) (b : Nat) (f : Fld) (i : Nat) : (d.setSlot s y).bitN b f i = d.bitN b f i := rfl
@[simp] theorem Dev.setSlot_present (s : Nat) (y : TSlot) (n' : Nat) : (d.setSlot s y).present n' = d.present n' := rfl
@[simp] theorem Dev.setSlot_pin (s : Nat) (y : TSlot) (g' : Nat) : (d.setSlot s y).pin g' = d.pin g' := rfl
@[simp] theorem Dev.setSlot_pmu (s : Nat) (y : TSlot) (g' : Nat) : (d.setSlot s y).pmu g' = d.pmu g' := rfl
@[simp] theorem Dev.setSlot_dp (s : Nat) (y : TSlot) (k' : Nat) : (d.setSlot s y).dp k' = d.dp k' := rfl
@[simp] theorem Dev.setSlot_tdc (s : Nat) (y : TSlot) (g' : Nat) : (d.setSlot s y).tdc g' = d.tdc g' := rfl
@[simp] theorem Dev.setSlot_gen (s : Nat) (y : TSlot) (w' : Nat) : (d.setSlot s y).gen w' = d.gen w' := rfl
@[simp] theorem Dev.setSlot_cx (s : Nat) (y : TSlot) (c' : Nat) : (d.setSlot s y).cx c' = d.cx c' := rfl
@[simp] theorem Dev.setSlot_eng (s : Nat) (y : TSlot) (n' : Nat) : (d.setSlot s y).eng n' = d.eng n' := rfl
@[simp] theorem Dev.setSlot_clu (s : Nat) (y : TSlot) (n' : Nat) : (d.setSlot s y).clu n' = d.clu n' := rfl
@[simp] theorem Dev.setSlot_strm (s : Nat) (y : TSlot) (q' : Nat) : (d.setSlot s y).strm q' = d.strm q' := rfl
@[simp] theorem Dev.setSlot_mb (s : Nat) (y : TSlot) (m' : Nat) : (d.setSlot s y).mb m' = d.mb m' := rfl
@[simp] theorem Dev.setSlot_slot (s : Nat) (y : TSlot) : (d.setSlot s y).slot s = y := Tab.get_set_same ..
theorem Dev.setSlot_slot_ne {s s' : Nat} (y : TSlot) (h : s' ≠ s) : (d.setSlot s y).slot s' = d.slot s' := Tab.get_set_ne _ _ _ h

@[simp] theorem Dev.setStrm_regs (q : Nat) (y : Option SDesc) : (d.setStrm q y).regs = d.regs := rfl
@[simp] theorem Dev.setStrm_snap (q : Nat) (y : Option SDesc) : (d.setStrm q y).snap = d.snap := rfl
@[simp] theorem Dev.setStrm_snapHi (q : Nat) (y : Option SDesc) : (d.setStrm q y).snapHi = d.snapHi := rfl
@[simp] theorem Dev.setStrm_fuse (q : Nat) (y : Option SDesc) : (d.setStrm q y).fuse = d.fuse := rfl
@[simp] theorem Dev.setStrm_hif (q : Nat) (y : Option SDesc) : (d.setStrm q y).hif = d.hif := rfl
@[simp] theorem Dev.setStrm_txn (q : Nat) (y : Option SDesc) : (d.setStrm q y).txn = d.txn := rfl
@[simp] theorem Dev.setStrm_time (q : Nat) (y : Option SDesc) : (d.setStrm q y).time = d.time := rfl
@[simp] theorem Dev.setStrm_pins (q : Nat) (y : Option SDesc) : (d.setStrm q y).pins = d.pins := rfl
@[simp] theorem Dev.setStrm_pmus (q : Nat) (y : Option SDesc) : (d.setStrm q y).pmus = d.pmus := rfl
@[simp] theorem Dev.setStrm_dpss (q : Nat) (y : Option SDesc) : (d.setStrm q y).dpss = d.dpss := rfl
@[simp] theorem Dev.setStrm_tdcs (q : Nat) (y : Option SDesc) : (d.setStrm q y).tdcs = d.tdcs := rfl
@[simp] theorem Dev.setStrm_gens (q : Nat) (y : Option SDesc) : (d.setStrm q y).gens = d.gens := rfl
@[simp] theorem Dev.setStrm_ctxs (q : Nat) (y : Option SDesc) : (d.setStrm q y).ctxs = d.ctxs := rfl
@[simp] theorem Dev.setStrm_engs (q : Nat) (y : Option SDesc) : (d.setStrm q y).engs = d.engs := rfl
@[simp] theorem Dev.setStrm_clus (q : Nat) (y : Option SDesc) : (d.setStrm q y).clus = d.clus := rfl
@[simp] theorem Dev.setStrm_blankArm (q : Nat) (y : Option SDesc) : (d.setStrm q y).blankArm = d.blankArm := rfl
@[simp] theorem Dev.setStrm_startQ (q : Nat) (y : Option SDesc) : (d.setStrm q y).startQ = d.startQ := rfl
@[simp] theorem Dev.setStrm_blankOpen (q : Nat) (y : Option SDesc) : (d.setStrm q y).blankOpen = d.blankOpen := rfl
@[simp] theorem Dev.setStrm_cache (q : Nat) (y : Option SDesc) : (d.setStrm q y).cache = d.cache := rfl
@[simp] theorem Dev.setStrm_fills (q : Nat) (y : Option SDesc) : (d.setStrm q y).fills = d.fills := rfl
@[simp] theorem Dev.setStrm_bufs (q : Nat) (y : Option SDesc) : (d.setStrm q y).bufs = d.bufs := rfl
@[simp] theorem Dev.setStrm_mbs (q : Nat) (y : Option SDesc) : (d.setStrm q y).mbs = d.mbs := rfl
@[simp] theorem Dev.setStrm_coal (q : Nat) (y : Option SDesc) : (d.setStrm q y).coal = d.coal := rfl
@[simp] theorem Dev.setStrm_calS (q : Nat) (y : Option SDesc) : (d.setStrm q y).calS = d.calS := rfl
@[simp] theorem Dev.setStrm_calA (q : Nat) (y : Option SDesc) : (d.setStrm q y).calA = d.calA := rfl
@[simp] theorem Dev.setStrm_calI (q : Nat) (y : Option SDesc) : (d.setStrm q y).calI = d.calI := rfl
@[simp] theorem Dev.setStrm_hist (q : Nat) (y : Option SDesc) : (d.setStrm q y).hist = d.hist := rfl
@[simp] theorem Dev.setStrm_lnk (q : Nat) (y : Option SDesc) : (d.setStrm q y).lnk = d.lnk := rfl
@[simp] theorem Dev.setStrm_ras (q : Nat) (y : Option SDesc) : (d.setStrm q y).ras = d.ras := rfl
@[simp] theorem Dev.setStrm_pow (q : Nat) (y : Option SDesc) : (d.setStrm q y).pow = d.pow := rfl
@[simp] theorem Dev.setStrm_thm (q : Nat) (y : Option SDesc) : (d.setStrm q y).thm = d.thm := rfl
@[simp] theorem Dev.setStrm_flt (q : Nat) (y : Option SDesc) : (d.setStrm q y).flt = d.flt := rfl
@[simp] theorem Dev.setStrm_bst (q : Nat) (y : Option SDesc) : (d.setStrm q y).bst = d.bst := rfl
@[simp] theorem Dev.setStrm_lcs (q : Nat) (y : Option SDesc) : (d.setStrm q y).lcs = d.lcs := rfl
@[simp] theorem Dev.setStrm_rst (q : Nat) (y : Option SDesc) : (d.setStrm q y).rst = d.rst := rfl
@[simp] theorem Dev.setStrm_msp (q : Nat) (y : Option SDesc) : (d.setStrm q y).msp = d.msp := rfl
@[simp] theorem Dev.setStrm_z64 (q : Nat) (y : Option SDesc) : (d.setStrm q y).z64 = d.z64 := rfl
@[simp] theorem Dev.setStrm_dumps (q : Nat) (y : Option SDesc) : (d.setStrm q y).dumps = d.dumps := rfl
@[simp] theorem Dev.setStrm_out (q : Nat) (y : Option SDesc) : (d.setStrm q y).out = d.out := rfl
@[simp] theorem Dev.setStrm_free (q : Nat) (y : Option SDesc) : (d.setStrm q y).free = d.free := rfl
@[simp] theorem Dev.setStrm_word (q : Nat) (y : Option SDesc) (a : Nat) : (d.setStrm q y).word a = d.word a := rfl
@[simp] theorem Dev.setStrm_get (q : Nat) (y : Option SDesc) (b : Nat) (f : Fld) : (d.setStrm q y).get b f = d.get b f := rfl
@[simp] theorem Dev.setStrm_bit (q : Nat) (y : Option SDesc) (b : Nat) (f : Fld) : (d.setStrm q y).bit b f = d.bit b f := rfl
@[simp] theorem Dev.setStrm_bitN (q : Nat) (y : Option SDesc) (b : Nat) (f : Fld) (i : Nat) : (d.setStrm q y).bitN b f i = d.bitN b f i := rfl
@[simp] theorem Dev.setStrm_present (q : Nat) (y : Option SDesc) (n' : Nat) : (d.setStrm q y).present n' = d.present n' := rfl
@[simp] theorem Dev.setStrm_pin (q : Nat) (y : Option SDesc) (g' : Nat) : (d.setStrm q y).pin g' = d.pin g' := rfl
@[simp] theorem Dev.setStrm_pmu (q : Nat) (y : Option SDesc) (g' : Nat) : (d.setStrm q y).pmu g' = d.pmu g' := rfl
@[simp] theorem Dev.setStrm_dp (q : Nat) (y : Option SDesc) (k' : Nat) : (d.setStrm q y).dp k' = d.dp k' := rfl
@[simp] theorem Dev.setStrm_tdc (q : Nat) (y : Option SDesc) (g' : Nat) : (d.setStrm q y).tdc g' = d.tdc g' := rfl
@[simp] theorem Dev.setStrm_gen (q : Nat) (y : Option SDesc) (w' : Nat) : (d.setStrm q y).gen w' = d.gen w' := rfl
@[simp] theorem Dev.setStrm_cx (q : Nat) (y : Option SDesc) (c' : Nat) : (d.setStrm q y).cx c' = d.cx c' := rfl
@[simp] theorem Dev.setStrm_eng (q : Nat) (y : Option SDesc) (n' : Nat) : (d.setStrm q y).eng n' = d.eng n' := rfl
@[simp] theorem Dev.setStrm_clu (q : Nat) (y : Option SDesc) (n' : Nat) : (d.setStrm q y).clu n' = d.clu n' := rfl
@[simp] theorem Dev.setStrm_slot (q : Nat) (y : Option SDesc) (s' : Nat) : (d.setStrm q y).slot s' = d.slot s' := rfl
@[simp] theorem Dev.setStrm_mb (q : Nat) (y : Option SDesc) (m' : Nat) : (d.setStrm q y).mb m' = d.mb m' := rfl
@[simp] theorem Dev.setStrm_strm (q : Nat) (y : Option SDesc) : (d.setStrm q y).strm q = y := Tab.get_set_same ..
theorem Dev.setStrm_strm_ne {q q' : Nat} (y : Option SDesc) (h : q' ≠ q) : (d.setStrm q y).strm q' = d.strm q' := Tab.get_set_ne _ _ _ h

@[simp] theorem Dev.setMb_regs (m : Nat) (y : List BRec) : (d.setMb m y).regs = d.regs := rfl
@[simp] theorem Dev.setMb_snap (m : Nat) (y : List BRec) : (d.setMb m y).snap = d.snap := rfl
@[simp] theorem Dev.setMb_snapHi (m : Nat) (y : List BRec) : (d.setMb m y).snapHi = d.snapHi := rfl
@[simp] theorem Dev.setMb_fuse (m : Nat) (y : List BRec) : (d.setMb m y).fuse = d.fuse := rfl
@[simp] theorem Dev.setMb_hif (m : Nat) (y : List BRec) : (d.setMb m y).hif = d.hif := rfl
@[simp] theorem Dev.setMb_txn (m : Nat) (y : List BRec) : (d.setMb m y).txn = d.txn := rfl
@[simp] theorem Dev.setMb_time (m : Nat) (y : List BRec) : (d.setMb m y).time = d.time := rfl
@[simp] theorem Dev.setMb_pins (m : Nat) (y : List BRec) : (d.setMb m y).pins = d.pins := rfl
@[simp] theorem Dev.setMb_pmus (m : Nat) (y : List BRec) : (d.setMb m y).pmus = d.pmus := rfl
@[simp] theorem Dev.setMb_dpss (m : Nat) (y : List BRec) : (d.setMb m y).dpss = d.dpss := rfl
@[simp] theorem Dev.setMb_tdcs (m : Nat) (y : List BRec) : (d.setMb m y).tdcs = d.tdcs := rfl
@[simp] theorem Dev.setMb_gens (m : Nat) (y : List BRec) : (d.setMb m y).gens = d.gens := rfl
@[simp] theorem Dev.setMb_ctxs (m : Nat) (y : List BRec) : (d.setMb m y).ctxs = d.ctxs := rfl
@[simp] theorem Dev.setMb_engs (m : Nat) (y : List BRec) : (d.setMb m y).engs = d.engs := rfl
@[simp] theorem Dev.setMb_clus (m : Nat) (y : List BRec) : (d.setMb m y).clus = d.clus := rfl
@[simp] theorem Dev.setMb_blankArm (m : Nat) (y : List BRec) : (d.setMb m y).blankArm = d.blankArm := rfl
@[simp] theorem Dev.setMb_startQ (m : Nat) (y : List BRec) : (d.setMb m y).startQ = d.startQ := rfl
@[simp] theorem Dev.setMb_blankOpen (m : Nat) (y : List BRec) : (d.setMb m y).blankOpen = d.blankOpen := rfl
@[simp] theorem Dev.setMb_cache (m : Nat) (y : List BRec) : (d.setMb m y).cache = d.cache := rfl
@[simp] theorem Dev.setMb_fills (m : Nat) (y : List BRec) : (d.setMb m y).fills = d.fills := rfl
@[simp] theorem Dev.setMb_strms (m : Nat) (y : List BRec) : (d.setMb m y).strms = d.strms := rfl
@[simp] theorem Dev.setMb_bufs (m : Nat) (y : List BRec) : (d.setMb m y).bufs = d.bufs := rfl
@[simp] theorem Dev.setMb_coal (m : Nat) (y : List BRec) : (d.setMb m y).coal = d.coal := rfl
@[simp] theorem Dev.setMb_calS (m : Nat) (y : List BRec) : (d.setMb m y).calS = d.calS := rfl
@[simp] theorem Dev.setMb_calA (m : Nat) (y : List BRec) : (d.setMb m y).calA = d.calA := rfl
@[simp] theorem Dev.setMb_calI (m : Nat) (y : List BRec) : (d.setMb m y).calI = d.calI := rfl
@[simp] theorem Dev.setMb_hist (m : Nat) (y : List BRec) : (d.setMb m y).hist = d.hist := rfl
@[simp] theorem Dev.setMb_lnk (m : Nat) (y : List BRec) : (d.setMb m y).lnk = d.lnk := rfl
@[simp] theorem Dev.setMb_ras (m : Nat) (y : List BRec) : (d.setMb m y).ras = d.ras := rfl
@[simp] theorem Dev.setMb_pow (m : Nat) (y : List BRec) : (d.setMb m y).pow = d.pow := rfl
@[simp] theorem Dev.setMb_thm (m : Nat) (y : List BRec) : (d.setMb m y).thm = d.thm := rfl
@[simp] theorem Dev.setMb_flt (m : Nat) (y : List BRec) : (d.setMb m y).flt = d.flt := rfl
@[simp] theorem Dev.setMb_bst (m : Nat) (y : List BRec) : (d.setMb m y).bst = d.bst := rfl
@[simp] theorem Dev.setMb_lcs (m : Nat) (y : List BRec) : (d.setMb m y).lcs = d.lcs := rfl
@[simp] theorem Dev.setMb_rst (m : Nat) (y : List BRec) : (d.setMb m y).rst = d.rst := rfl
@[simp] theorem Dev.setMb_msp (m : Nat) (y : List BRec) : (d.setMb m y).msp = d.msp := rfl
@[simp] theorem Dev.setMb_z64 (m : Nat) (y : List BRec) : (d.setMb m y).z64 = d.z64 := rfl
@[simp] theorem Dev.setMb_dumps (m : Nat) (y : List BRec) : (d.setMb m y).dumps = d.dumps := rfl
@[simp] theorem Dev.setMb_out (m : Nat) (y : List BRec) : (d.setMb m y).out = d.out := rfl
@[simp] theorem Dev.setMb_free (m : Nat) (y : List BRec) : (d.setMb m y).free = d.free := rfl
@[simp] theorem Dev.setMb_word (m : Nat) (y : List BRec) (a : Nat) : (d.setMb m y).word a = d.word a := rfl
@[simp] theorem Dev.setMb_get (m : Nat) (y : List BRec) (b : Nat) (f : Fld) : (d.setMb m y).get b f = d.get b f := rfl
@[simp] theorem Dev.setMb_bit (m : Nat) (y : List BRec) (b : Nat) (f : Fld) : (d.setMb m y).bit b f = d.bit b f := rfl
@[simp] theorem Dev.setMb_bitN (m : Nat) (y : List BRec) (b : Nat) (f : Fld) (i : Nat) : (d.setMb m y).bitN b f i = d.bitN b f i := rfl
@[simp] theorem Dev.setMb_present (m : Nat) (y : List BRec) (n' : Nat) : (d.setMb m y).present n' = d.present n' := rfl
@[simp] theorem Dev.setMb_pin (m : Nat) (y : List BRec) (g' : Nat) : (d.setMb m y).pin g' = d.pin g' := rfl
@[simp] theorem Dev.setMb_pmu (m : Nat) (y : List BRec) (g' : Nat) : (d.setMb m y).pmu g' = d.pmu g' := rfl
@[simp] theorem Dev.setMb_dp (m : Nat) (y : List BRec) (k' : Nat) : (d.setMb m y).dp k' = d.dp k' := rfl
@[simp] theorem Dev.setMb_tdc (m : Nat) (y : List BRec) (g' : Nat) : (d.setMb m y).tdc g' = d.tdc g' := rfl
@[simp] theorem Dev.setMb_gen (m : Nat) (y : List BRec) (w' : Nat) : (d.setMb m y).gen w' = d.gen w' := rfl
@[simp] theorem Dev.setMb_cx (m : Nat) (y : List BRec) (c' : Nat) : (d.setMb m y).cx c' = d.cx c' := rfl
@[simp] theorem Dev.setMb_eng (m : Nat) (y : List BRec) (n' : Nat) : (d.setMb m y).eng n' = d.eng n' := rfl
@[simp] theorem Dev.setMb_clu (m : Nat) (y : List BRec) (n' : Nat) : (d.setMb m y).clu n' = d.clu n' := rfl
@[simp] theorem Dev.setMb_slot (m : Nat) (y : List BRec) (s' : Nat) : (d.setMb m y).slot s' = d.slot s' := rfl
@[simp] theorem Dev.setMb_strm (m : Nat) (y : List BRec) (q' : Nat) : (d.setMb m y).strm q' = d.strm q' := rfl
@[simp] theorem Dev.setMb_mb (m : Nat) (y : List BRec) : (d.setMb m y).mb m = y := Tab.get_set_same ..
theorem Dev.setMb_mb_ne {m m' : Nat} (y : List BRec) (h : m' ≠ m) : (d.setMb m y).mb m' = d.mb m' := Tab.get_set_ne _ _ _ h

/-! ### Outputs and free values -/

@[simp] theorem Dev.emit_regs (o : Out) : (d.emit o).regs = d.regs := rfl
@[simp] theorem Dev.emit_snap (o : Out) : (d.emit o).snap = d.snap := rfl
@[simp] theorem Dev.emit_snapHi (o : Out) : (d.emit o).snapHi = d.snapHi := rfl
@[simp] theorem Dev.emit_fuse (o : Out) : (d.emit o).fuse = d.fuse := rfl
@[simp] theorem Dev.emit_hif (o : Out) : (d.emit o).hif = d.hif := rfl
@[simp] theorem Dev.emit_txn (o : Out) : (d.emit o).txn = d.txn := rfl
@[simp] theorem Dev.emit_time (o : Out) : (d.emit o).time = d.time := rfl
@[simp] theorem Dev.emit_pins (o : Out) : (d.emit o).pins = d.pins := rfl
@[simp] theorem Dev.emit_pmus (o : Out) : (d.emit o).pmus = d.pmus := rfl
@[simp] theorem Dev.emit_dpss (o : Out) : (d.emit o).dpss = d.dpss := rfl
@[simp] theorem Dev.emit_tdcs (o : Out) : (d.emit o).tdcs = d.tdcs := rfl
@[simp] theorem Dev.emit_gens (o : Out) : (d.emit o).gens = d.gens := rfl
@[simp] theorem Dev.emit_ctxs (o : Out) : (d.emit o).ctxs = d.ctxs := rfl
@[simp] theorem Dev.emit_engs (o : Out) : (d.emit o).engs = d.engs := rfl
@[simp] theorem Dev.emit_clus (o : Out) : (d.emit o).clus = d.clus := rfl
@[simp] theorem Dev.emit_blankArm (o : Out) : (d.emit o).blankArm = d.blankArm := rfl
@[simp] theorem Dev.emit_startQ (o : Out) : (d.emit o).startQ = d.startQ := rfl
@[simp] theorem Dev.emit_blankOpen (o : Out) : (d.emit o).blankOpen = d.blankOpen := rfl
@[simp] theorem Dev.emit_cache (o : Out) : (d.emit o).cache = d.cache := rfl
@[simp] theorem Dev.emit_fills (o : Out) : (d.emit o).fills = d.fills := rfl
@[simp] theorem Dev.emit_strms (o : Out) : (d.emit o).strms = d.strms := rfl
@[simp] theorem Dev.emit_bufs (o : Out) : (d.emit o).bufs = d.bufs := rfl
@[simp] theorem Dev.emit_mbs (o : Out) : (d.emit o).mbs = d.mbs := rfl
@[simp] theorem Dev.emit_coal (o : Out) : (d.emit o).coal = d.coal := rfl
@[simp] theorem Dev.emit_calS (o : Out) : (d.emit o).calS = d.calS := rfl
@[simp] theorem Dev.emit_calA (o : Out) : (d.emit o).calA = d.calA := rfl
@[simp] theorem Dev.emit_calI (o : Out) : (d.emit o).calI = d.calI := rfl
@[simp] theorem Dev.emit_hist (o : Out) : (d.emit o).hist = d.hist := rfl
@[simp] theorem Dev.emit_lnk (o : Out) : (d.emit o).lnk = d.lnk := rfl
@[simp] theorem Dev.emit_ras (o : Out) : (d.emit o).ras = d.ras := rfl
@[simp] theorem Dev.emit_pow (o : Out) : (d.emit o).pow = d.pow := rfl
@[simp] theorem Dev.emit_thm (o : Out) : (d.emit o).thm = d.thm := rfl
@[simp] theorem Dev.emit_flt (o : Out) : (d.emit o).flt = d.flt := rfl
@[simp] theorem Dev.emit_bst (o : Out) : (d.emit o).bst = d.bst := rfl
@[simp] theorem Dev.emit_lcs (o : Out) : (d.emit o).lcs = d.lcs := rfl
@[simp] theorem Dev.emit_rst (o : Out) : (d.emit o).rst = d.rst := rfl
@[simp] theorem Dev.emit_msp (o : Out) : (d.emit o).msp = d.msp := rfl
@[simp] theorem Dev.emit_z64 (o : Out) : (d.emit o).z64 = d.z64 := rfl
@[simp] theorem Dev.emit_dumps (o : Out) : (d.emit o).dumps = d.dumps := rfl
@[simp] theorem Dev.emit_free (o : Out) : (d.emit o).free = d.free := rfl
@[simp] theorem Dev.emit_word (o : Out) (a : Nat) : (d.emit o).word a = d.word a := rfl
@[simp] theorem Dev.emit_get (o : Out) (b : Nat) (f : Fld) : (d.emit o).get b f = d.get b f := rfl
@[simp] theorem Dev.emit_bit (o : Out) (b : Nat) (f : Fld) : (d.emit o).bit b f = d.bit b f := rfl
@[simp] theorem Dev.emit_bitN (o : Out) (b : Nat) (f : Fld) (i : Nat) : (d.emit o).bitN b f i = d.bitN b f i := rfl
@[simp] theorem Dev.emit_present (o : Out) (n : Nat) : (d.emit o).present n = d.present n := rfl
@[simp] theorem Dev.emit_pin (o : Out) (g : Nat) : (d.emit o).pin g = d.pin g := rfl
@[simp] theorem Dev.emit_pmu (o : Out) (g : Nat) : (d.emit o).pmu g = d.pmu g := rfl
@[simp] theorem Dev.emit_dp (o : Out) (k : Nat) : (d.emit o).dp k = d.dp k := rfl
@[simp] theorem Dev.emit_tdc (o : Out) (g : Nat) : (d.emit o).tdc g = d.tdc g := rfl
@[simp] theorem Dev.emit_gen (o : Out) (w : Nat) : (d.emit o).gen w = d.gen w := rfl
@[simp] theorem Dev.emit_cx (o : Out) (c : Nat) : (d.emit o).cx c = d.cx c := rfl
@[simp] theorem Dev.emit_eng (o : Out) (n : Nat) : (d.emit o).eng n = d.eng n := rfl
@[simp] theorem Dev.emit_clu (o : Out) (n : Nat) : (d.emit o).clu n = d.clu n := rfl
@[simp] theorem Dev.emit_slot (o : Out) (s : Nat) : (d.emit o).slot s = d.slot s := rfl
@[simp] theorem Dev.emit_strm (o : Out) (q : Nat) : (d.emit o).strm q = d.strm q := rfl
@[simp] theorem Dev.emit_mb (o : Out) (m : Nat) : (d.emit o).mb m = d.mb m := rfl
@[simp] theorem Dev.emit_out (o : Out) : (d.emit o).out = o :: d.out := rfl

@[simp] theorem Dev.takeFree_regs (n : Nat) : (d.takeFree n).1.regs = d.regs := rfl
@[simp] theorem Dev.takeFree_snap (n : Nat) : (d.takeFree n).1.snap = d.snap := rfl
@[simp] theorem Dev.takeFree_snapHi (n : Nat) : (d.takeFree n).1.snapHi = d.snapHi := rfl
@[simp] theorem Dev.takeFree_fuse (n : Nat) : (d.takeFree n).1.fuse = d.fuse := rfl
@[simp] theorem Dev.takeFree_hif (n : Nat) : (d.takeFree n).1.hif = d.hif := rfl
@[simp] theorem Dev.takeFree_txn (n : Nat) : (d.takeFree n).1.txn = d.txn := rfl
@[simp] theorem Dev.takeFree_time (n : Nat) : (d.takeFree n).1.time = d.time := rfl
@[simp] theorem Dev.takeFree_pins (n : Nat) : (d.takeFree n).1.pins = d.pins := rfl
@[simp] theorem Dev.takeFree_pmus (n : Nat) : (d.takeFree n).1.pmus = d.pmus := rfl
@[simp] theorem Dev.takeFree_dpss (n : Nat) : (d.takeFree n).1.dpss = d.dpss := rfl
@[simp] theorem Dev.takeFree_tdcs (n : Nat) : (d.takeFree n).1.tdcs = d.tdcs := rfl
@[simp] theorem Dev.takeFree_gens (n : Nat) : (d.takeFree n).1.gens = d.gens := rfl
@[simp] theorem Dev.takeFree_ctxs (n : Nat) : (d.takeFree n).1.ctxs = d.ctxs := rfl
@[simp] theorem Dev.takeFree_engs (n : Nat) : (d.takeFree n).1.engs = d.engs := rfl
@[simp] theorem Dev.takeFree_clus (n : Nat) : (d.takeFree n).1.clus = d.clus := rfl
@[simp] theorem Dev.takeFree_blankArm (n : Nat) : (d.takeFree n).1.blankArm = d.blankArm := rfl
@[simp] theorem Dev.takeFree_startQ (n : Nat) : (d.takeFree n).1.startQ = d.startQ := rfl
@[simp] theorem Dev.takeFree_blankOpen (n : Nat) : (d.takeFree n).1.blankOpen = d.blankOpen := rfl
@[simp] theorem Dev.takeFree_cache (n : Nat) : (d.takeFree n).1.cache = d.cache := rfl
@[simp] theorem Dev.takeFree_fills (n : Nat) : (d.takeFree n).1.fills = d.fills := rfl
@[simp] theorem Dev.takeFree_strms (n : Nat) : (d.takeFree n).1.strms = d.strms := rfl
@[simp] theorem Dev.takeFree_bufs (n : Nat) : (d.takeFree n).1.bufs = d.bufs := rfl
@[simp] theorem Dev.takeFree_mbs (n : Nat) : (d.takeFree n).1.mbs = d.mbs := rfl
@[simp] theorem Dev.takeFree_coal (n : Nat) : (d.takeFree n).1.coal = d.coal := rfl
@[simp] theorem Dev.takeFree_calS (n : Nat) : (d.takeFree n).1.calS = d.calS := rfl
@[simp] theorem Dev.takeFree_calA (n : Nat) : (d.takeFree n).1.calA = d.calA := rfl
@[simp] theorem Dev.takeFree_calI (n : Nat) : (d.takeFree n).1.calI = d.calI := rfl
@[simp] theorem Dev.takeFree_hist (n : Nat) : (d.takeFree n).1.hist = d.hist := rfl
@[simp] theorem Dev.takeFree_lnk (n : Nat) : (d.takeFree n).1.lnk = d.lnk := rfl
@[simp] theorem Dev.takeFree_ras (n : Nat) : (d.takeFree n).1.ras = d.ras := rfl
@[simp] theorem Dev.takeFree_pow (n : Nat) : (d.takeFree n).1.pow = d.pow := rfl
@[simp] theorem Dev.takeFree_thm (n : Nat) : (d.takeFree n).1.thm = d.thm := rfl
@[simp] theorem Dev.takeFree_flt (n : Nat) : (d.takeFree n).1.flt = d.flt := rfl
@[simp] theorem Dev.takeFree_bst (n : Nat) : (d.takeFree n).1.bst = d.bst := rfl
@[simp] theorem Dev.takeFree_lcs (n : Nat) : (d.takeFree n).1.lcs = d.lcs := rfl
@[simp] theorem Dev.takeFree_rst (n : Nat) : (d.takeFree n).1.rst = d.rst := rfl
@[simp] theorem Dev.takeFree_msp (n : Nat) : (d.takeFree n).1.msp = d.msp := rfl
@[simp] theorem Dev.takeFree_z64 (n : Nat) : (d.takeFree n).1.z64 = d.z64 := rfl
@[simp] theorem Dev.takeFree_dumps (n : Nat) : (d.takeFree n).1.dumps = d.dumps := rfl
@[simp] theorem Dev.takeFree_out (n : Nat) : (d.takeFree n).1.out = d.out := rfl
@[simp] theorem Dev.takeFree_free (n : Nat) : (d.takeFree n).1.free = d.free + 1 := rfl

end Sys2Proof.Machine
end

