-- ==== Sys2Proof/Laws/Reg.lean ====
section
/-! SUPPORT. Register fields: what a field reads after a write of the same field, of another field of its word, and of other words. -/

namespace Sys2Proof

/-- The field lies in one word. -/
abbrev Fld.narrow (f : Fld) : Prop := f.lo + f.n ≤ 32

/-- The field lies in the two words of a 64-bit value. -/
abbrev Fld.fits (f : Fld) : Prop := f.lo + f.n ≤ 64

/-- Two fields of a page share no bit: fields of different words, or of different bits of one word. -/
def Fld.apart (f g : Fld) : Bool :=
  decide (f.lo + f.n ≤ 32) && decide (g.lo + g.n ≤ 32) && (f.off != g.off || decide (f.lo + f.n ≤ g.lo) || decide (g.lo + g.n ≤ f.lo))

end Sys2Proof

namespace Sys2Proof.Machine

/-! ### Numbers with bits replaced -/

theorem setBits_eq (w lo n v : Nat) : setBits w lo n v = w % 2 ^ lo + (v % 2 ^ n + w / 2 ^ lo / 2 ^ n * 2 ^ n) * 2 ^ lo := by
  have h1 : w = w % 2 ^ lo + w / 2 ^ lo * 2 ^ lo := by rw [Nat.mod_add_div' w (2 ^ lo)]
  have h2 : w / 2 ^ lo = w / 2 ^ lo % 2 ^ n + w / 2 ^ lo / 2 ^ n * 2 ^ n := by rw [Nat.mod_add_div']
  unfold setBits
  generalize w % 2 ^ lo = r at *
  generalize w / 2 ^ lo = q at *
  generalize q % 2 ^ n = a at *
  generalize q / 2 ^ n = b at *
  generalize v % 2 ^ n = c
  subst h2
  rw [h1, Nat.add_mul, Nat.add_mul]
  generalize a * 2 ^ lo = x
  generalize b * 2 ^ n * 2 ^ lo = y
  omega

theorem setBits_same (w lo n v : Nat) : setBits w lo n v / 2 ^ lo % 2 ^ n = v % 2 ^ n := by
  rw [setBits_eq, Nat.add_mul_div_right _ _ (Nat.two_pow_pos lo), Nat.div_eq_of_lt (Nat.mod_lt _ (Nat.two_pow_pos lo)), Nat.zero_add,
    Nat.add_mul_mod_self_right, Nat.mod_mod]

theorem testBit_setBits (w lo n v i : Nat) :
    (setBits w lo n v).testBit i = if lo ≤ i ∧ i < lo + n then v.testBit (i - lo) else w.testBit i := by
  rw [setBits_eq, Nat.mul_comm, Nat.add_comm, Nat.testBit_two_pow_mul_add _ (Nat.mod_lt _ (Nat.two_pow_pos lo))]
  by_cases h : i < lo
  · rw [if_pos h, if_neg (by omega), Nat.testBit_mod_two_pow, decide_eq_true h, Bool.true_and]
  · rw [if_neg h, Nat.mul_comm (w / 2 ^ lo / 2 ^ n), Nat.add_comm, Nat.testBit_two_pow_mul_add _ (Nat.mod_lt _ (Nat.two_pow_pos n))]
    by_cases h2 : i - lo < n
    · rw [if_pos h2, if_pos (by omega), Nat.testBit_mod_two_pow, decide_eq_true h2, Bool.true_and]
    · rw [if_neg h2, if_neg (by omega), Nat.testBit_div_two_pow, Nat.testBit_div_two_pow]
      congr 1
      omega

theorem field_eq_of_testBit {x y lo n : Nat} (h : ∀ i, lo ≤ i → i < lo + n → x.testBit i = y.testBit i) : x / 2 ^ lo % 2 ^ n = y / 2 ^ lo % 2 ^ n := by
  apply Nat.eq_of_testBit_eq
  intro i
  rw [Nat.testBit_mod_two_pow, Nat.testBit_mod_two_pow, Nat.testBit_div_two_pow, Nat.testBit_div_two_pow]
  by_cases hi : i < n
  · rw [h (i + lo) (by omega) (by omega)]
  · simp [hi]

/-- Replacing bits leaves a field that shares none of them. -/
theorem setBits_apart {w lo n v lo' n' : Nat} (h : lo + n ≤ lo' ∨ lo' + n' ≤ lo) : setBits w lo n v / 2 ^ lo' % 2 ^ n' = w / 2 ^ lo' % 2 ^ n' := by
  apply field_eq_of_testBit
  intro i h1 h2
  rw [testBit_setBits, if_neg (by omega)]

theorem setBits_lt {w lo n v m : Nat} (hw : w < 2 ^ m) (h : lo + n ≤ m) : setBits w lo n v < 2 ^ m := by
  apply Nat.lt_pow_two_of_testBit
  intro i hi
  rw [testBit_setBits, if_neg (by omega)]
  exact Nat.testBit_lt_two_pow (Nat.lt_of_lt_of_le hw (Nat.pow_le_pow_right (by omega) hi))

theorem bitOf_eq_testBit (w i : Nat) : bitOf w i = w.testBit i := by
  unfold bitOf
  rw [Nat.testBit_eq_decide_div_mod_eq]
  by_cases h : w / 2 ^ i % 2 = 1 <;> simp [h]

/-! ### Words -/

variable (d : Dev)

theorem Dev.word_lt (a : Nat) : d.word a < 2 ^ 32 := (Tab.get resetWord d.regs a).isLt

@[simp] theorem Dev.setWord_word (a v : Nat) : (d.setWord a v).word a = v % 2 ^ 32 := by
  simp [Dev.word, Dev.setWord]

theorem Dev.setWord_word_ne {a a' : Nat} (v : Nat) (h : a' ≠ a) : (d.setWord a v).word a' = d.word a' := by
  simp [Dev.word, Dev.setWord, Tab.get_set_ne _ _ _ h]

/-! ### Fields -/

theorem Dev.put_narrow {f : Fld} (h : f.narrow) (b v : Nat) : d.put b f v = d.setWord (b + f.off) (setBits (d.word (b + f.off)) f.lo f.n v) := if_pos h

theorem Dev.get_narrow {f : Fld} (h : f.narrow) (b : Nat) : d.get b f = d.word (b + f.off) / 2 ^ f.lo % 2 ^ f.n := if_pos h

theorem Dev.get_lt (b : Nat) (f : Fld) : d.get b f < 2 ^ f.n := by
  unfold Dev.get
  split <;> exact Nat.mod_lt _ (Nat.two_pow_pos _)

/-- A word that a write of a field does not touch. -/
theorem Dev.put_word_ne {b : Nat} {f : Fld} {a : Nat} (v : Nat) (h : a ≠ b + f.off) (h' : a ≠ b + f.off + 4) : (d.put b f v).word a = d.word a := by
  unfold Dev.put
  split
  · exact Dev.setWord_word_ne d _ h
  · rw [Dev.setWord_word_ne _ _ h', Dev.setWord_word_ne _ _ h]

theorem Dev.put_word_ne' {b : Nat} {f : Fld} {a : Nat} (v : Nat) (hf : f.narrow) (h : a ≠ b + f.off) : (d.put b f v).word a = d.word a := by
  rw [Dev.put_narrow d hf, Dev.setWord_word_ne d _ h]

/-- A field reads what was written to it. -/
theorem Dev.put_get {b : Nat} {f : Fld} (v : Nat) (h : f.fits) : (d.put b f v).get b f = v % 2 ^ f.n := by
  unfold Dev.put Dev.get
  split
  · next hn => rw [Dev.setWord_word, Nat.mod_eq_of_lt (setBits_lt (Dev.word_lt d _) hn), setBits_same]
  · have hw : d.word (b + f.off) + d.word (b + f.off + 4) * 2 ^ 32 < 2 ^ 64 := by
      have h1 := Dev.word_lt d (b + f.off)
      have h2 := Dev.word_lt d (b + f.off + 4)
      omega
    have hs := setBits_lt (v := v) hw h
    have hd : setBits (d.word (b + f.off) + d.word (b + f.off + 4) * 2 ^ 32) f.lo f.n v / 2 ^ 32 < 2 ^ 32 := Nat.div_lt_of_lt_mul (by simpa using hs)
    rw [Dev.setWord_word_ne _ _ (by omega), Dev.setWord_word, Dev.setWord_word, Nat.mod_mod, Nat.mod_eq_of_lt hd, Nat.mod_add_div', setBits_same]

/-- A field of one word reads what was written to it. -/
theorem Dev.put_get' {b : Nat} {f : Fld} (v : Nat) (h : f.narrow) (hv : v < 2 ^ f.n) : (d.put b f v).get b f = v := by
  have h' : f.lo + f.n ≤ 32 := h
  rw [Dev.put_get d v (show f.lo + f.n ≤ 64 by omega), Nat.mod_eq_of_lt hv]

/-- A field of other words stays. -/
theorem Dev.put_get_ne {b b' : Nat} {f g : Fld} (v : Nat) (hf : f.narrow) (hg : g.narrow) (h : b' + g.off ≠ b + f.off) :
    (d.put b f v).get b' g = d.get b' g := by
  rw [Dev.get_narrow _ hg, Dev.get_narrow _ hg, Dev.put_word_ne' d v hf h]

/-- A field of other words stays, wide fields included. -/
theorem Dev.put_get_far {b b' : Nat} {f g : Fld} (v : Nat) (h : b' + g.off + 8 ≤ b + f.off ∨ b + f.off + 8 ≤ b' + g.off) :
    (d.put b f v).get b' g = d.get b' g := by
  unfold Dev.get
  rw [Dev.put_word_ne d v (by omega) (by omega), Dev.put_word_ne d v (by omega) (by omega)]

/-- A field that shares no bit with the one written stays. -/
theorem Dev.put_get_apart {b : Nat} {f g : Fld} (v : Nat) (h : f.apart g = true) : (d.put b f v).get b g = d.get b g := by
  simp only [Fld.apart, Bool.and_eq_true, decide_eq_true_eq, Bool.or_eq_true, bne_iff_ne] at h
  obtain ⟨⟨hf, hg⟩, ho⟩ := h
  by_cases he : f.off = g.off
  · rw [Dev.get_narrow _ hg, Dev.get_narrow _ hg, Dev.put_narrow _ hf, ← he, Dev.setWord_word, Nat.mod_eq_of_lt (setBits_lt (Dev.word_lt d _) hf),
      setBits_apart]
    rcases ho with (ho | ho) | ho
    · exact absurd he ho
    · exact .inl ho
    · exact .inr ho
  · exact Dev.put_get_ne d v hf hg (by omega)

/-! ### One-bit fields and bit maps -/

theorem Dev.setb_bit {b : Nat} {f : Fld} (v : Bool) (h : f.narrow) (hn : 0 < f.n) : (d.setb b f v).bit b f = v := by
  have h1 : (1 : Nat) < 2 ^ f.n := Nat.one_lt_two_pow (by omega)
  unfold Dev.setb Dev.bit
  rw [Dev.put_get' d _ h (by cases v <;> simp; omega)]
  cases v <;> rfl

theorem Dev.setb_get_apart {b : Nat} {f g : Fld} (v : Bool) (h : f.apart g = true) : (d.setb b f v).get b g = d.get b g := Dev.put_get_apart d _ h

theorem Dev.setb_bit_apart {b : Nat} {f g : Fld} (v : Bool) (h : f.apart g = true) : (d.setb b f v).bit b g = d.bit b g := by
  unfold Dev.bit; rw [Dev.setb_get_apart d v h]

theorem Dev.put_bit_apart {b : Nat} {f g : Fld} (v : Nat) (h : f.apart g = true) : (d.put b f v).bit b g = d.bit b g := by
  unfold Dev.bit; rw [Dev.put_get_apart d v h]

theorem Dev.setb_get_ne {b b' : Nat} {f g : Fld} (v : Bool) (hf : f.narrow) (hg : g.narrow) (h : b' + g.off ≠ b + f.off) :
    (d.setb b f v).get b' g = d.get b' g := Dev.put_get_ne d _ hf hg h

theorem Dev.put_bit_ne {b b' : Nat} {f g : Fld} (v : Nat) (hf : f.narrow) (hg : g.narrow) (h : b' + g.off ≠ b + f.off) :
    (d.put b f v).bit b' g = d.bit b' g := by unfold Dev.bit; rw [Dev.put_get_ne d v hf hg h]

theorem Dev.setb_bit_ne {b b' : Nat} {f g : Fld} (v : Bool) (hf : f.narrow) (hg : g.narrow) (h : b' + g.off ≠ b + f.off) :
    (d.setb b f v).bit b' g = d.bit b' g := by unfold Dev.bit; rw [Dev.setb_get_ne d v hf hg h]

/-- A bit of a bit map reads what was written to it. -/
theorem Dev.setBitN_bitN {b : Nat} {f : Fld} {i : Nat} (v : Bool) (h : f.narrow) (hi : i < f.n) : (d.setBitN b f i v).bitN b f i = v := by
  unfold Dev.setBitN Dev.bitN
  rw [Dev.put_get' d _ h (setBits_lt (Dev.get_lt d b f) (by omega)), bitOf_eq_testBit, testBit_setBits, if_pos (by omega), Nat.sub_self]
  cases v <;> rfl

/-- The other bits of a bit map stay. -/
theorem Dev.setBitN_bitN_ne {b : Nat} {f : Fld} {i j : Nat} (v : Bool) (h : f.narrow) (hi : i < f.n) (hj : j ≠ i) :
    (d.setBitN b f i v).bitN b f j = d.bitN b f j := by
  unfold Dev.setBitN Dev.bitN
  rw [Dev.put_get' d _ h (setBits_lt (Dev.get_lt d b f) (by omega)), bitOf_eq_testBit, bitOf_eq_testBit, testBit_setBits, if_neg (by omega)]

theorem Dev.setBitN_get_apart {b : Nat} {f g : Fld} (i : Nat) (v : Bool) (h : f.apart g = true) : (d.setBitN b f i v).get b g = d.get b g :=
  Dev.put_get_apart d _ h

/-! ### Counters -/

/-- A saturating counter counts one up, or stays at all ones. -/
theorem Dev.satInc_get {b : Nat} {f : Fld} (h : f.narrow) : (d.satInc b f).get b f = Nat.min (d.get b f + 1) (2 ^ f.n - 1) := by
  unfold Dev.satInc Dev.satAdd
  have := Nat.two_pow_pos f.n
  exact Dev.put_get' d _ h (Nat.lt_of_le_of_lt (Nat.min_le_right _ _) (by omega))

theorem Dev.satInc_get_apart {b : Nat} {f g : Fld} (h : f.apart g = true) : (d.satInc b f).get b g = d.get b g := Dev.put_get_apart d _ h

end Sys2Proof.Machine
end

