-- ==== Sys2Proof/Laws/React.lean ====
section
/-! SUPPORT. What a fault reaction cannot change: the PG_FLT_STAT words of every page, the CLK page, and the records FLT_FIRST, FLT_OVF and FLT_CONSEQ,
which only the log of the detection writes. With it, what the log of a detection leaves in FLT_FIRST (R428 to R430, R433). -/

namespace Sys2Proof.Machine

/-- The words that a reaction leaves alone: PG_FLT_STAT, FLT_FIRST, FLT_OVF, FLT_CONSEQ, the CLK page. -/
def quiet (a : Nat) : Prop := a % 0x1000 = 0x1C ∨ a = 0x6040 ∨ a = 0x6050 ∨ a = 0x6054 ∨ (0x3000 ≤ a ∧ a < 0x4000)

/-- A field of a page other than PG_FLT_STAT. -/
abbrev Fld.plain (f : Sys2Proof.Fld) : Prop := f.off ≠ 0x1C ∧ f.off ≠ 0x18 ∧ f.off < 0xFF0

variable (d : Dev) {a : Nat}

theorem Dev.put_quiet {b : Nat} {f : Fld} (v : Nat) (ha : quiet a) (h : ¬ quiet (b + f.off)) (h' : ¬ quiet (b + f.off + 4)) : (d.put b f v).word a = d.word a :=
  Dev.put_word_ne d v (fun e => h (e ▸ ha)) (fun e => h' (e ▸ ha))

theorem Dev.put_page {b : Nat} {f : Fld} (v : Nat) (ha : quiet a) (hb : b % 0x1000 = 0 ∧ 0x7000 ≤ b) (hf : Fld.plain f) : (d.put b f v).word a = d.word a := by
  obtain ⟨h1, h2, h3⟩ := hf
  generalize ho : f.off = o at h1 h2 h3
  apply Dev.put_quiet d v ha <;> (unfold quiet; omega)

theorem pin_page (g : Nat) : pinBase g % 0x1000 = 0 ∧ 0x7000 ≤ pinBase g := by unfold pinBase clBase; omega
theorem dps_page (k : Nat) : dpsBase k % 0x1000 = 0 ∧ 0x7000 ≤ dpsBase k := by unfold dpsBase; omega
theorem wfg_page (n : Nat) : wfgBase n % 0x1000 = 0 ∧ 0x7000 ≤ wfgBase n := by unfold wfgBase clBase; omega
theorem seq_page (n : Nat) : seqBase n % 0x1000 = 0 ∧ 0x7000 ≤ seqBase n := by unfold seqBase clBase; omega
theorem tdcc_page (n : Nat) : tdccBase n % 0x1000 = 0 ∧ 0x7000 ≤ tdccBase n := by unfold tdccBase clBase; omega
theorem calc_page (n : Nat) : calcBase n % 0x1000 = 0 ∧ 0x7000 ≤ calcBase n := by unfold calcBase clBase; omega

theorem Dev.put_pin_quiet (g : Nat) {f : Fld} (v : Nat) (ha : quiet a) (hf : Fld.plain f) : (d.put (pinBase g) f v).word a = d.word a := Dev.put_page d v ha (pin_page g) hf
theorem Dev.put_dps_quiet (k : Nat) {f : Fld} (v : Nat) (ha : quiet a) (hf : Fld.plain f) : (d.put (dpsBase k) f v).word a = d.word a := Dev.put_page d v ha (dps_page k) hf
theorem Dev.put_wfg_quiet (n : Nat) {f : Fld} (v : Nat) (ha : quiet a) (hf : Fld.plain f) : (d.put (wfgBase n) f v).word a = d.word a := Dev.put_page d v ha (wfg_page n) hf
theorem Dev.put_seq_quiet (n : Nat) {f : Fld} (v : Nat) (ha : quiet a) (hf : Fld.plain f) : (d.put (seqBase n) f v).word a = d.word a := Dev.put_page d v ha (seq_page n) hf
theorem Dev.put_tdcc_quiet (n : Nat) {f : Fld} (v : Nat) (ha : quiet a) (hf : Fld.plain f) : (d.put (tdccBase n) f v).word a = d.word a := Dev.put_page d v ha (tdcc_page n) hf
theorem Dev.put_calc_quiet (n : Nat) {f : Fld} (v : Nat) (ha : quiet a) (hf : Fld.plain f) : (d.put (calcBase n) f v).word a = d.word a := Dev.put_page d v ha (calc_page n) hf
theorem Dev.put_res_quiet {f : Fld} (v : Nat) (ha : quiet a) (hf : Fld.plain f) : (d.put resB f v).word a = d.word a := Dev.put_page d v ha (by decide) hf
theorem Dev.put_ras_quiet {f : Fld} (v : Nat) (ha : quiet a) (hf : Fld.plain f) : (d.put rasB f v).word a = d.word a := Dev.put_page d v ha (by decide) hf
theorem Dev.put_cal_quiet {f : Fld} (v : Nat) (ha : quiet a) (hf : Fld.plain f) : (d.put calB f v).word a = d.word a := Dev.put_page d v ha (by decide) hf
theorem Dev.put_bst_quiet (n : Nat) (v : Nat) (ha : quiet a) (hn : n < 32) : (d.put (bstB + 0x20 * n) .BST_CL_DET_BITS v).word a = d.word a :=
  Dev.put_quiet d v ha (by unfold quiet bstB Fld.BST_CL_DET_BITS; simp only; omega) (by unfold quiet bstB Fld.BST_CL_DET_BITS; simp only; omega)

/-- A field of a generator's register block. -/
theorem Dev.put_gen_quiet (w : Nat) {f : Fld} (v : Nat) (ha : quiet a) (hf : 0x100 ≤ f.off ∧ f.off < 0x800) : (d.put (genBase w) f v).word a = d.word a := by
  obtain ⟨h1, h2⟩ := hf
  generalize ho : f.off = o at h1 h2
  apply Dev.put_quiet d v ha <;> (unfold quiet genBase wfgBase clBase; omega)

/-- The wake and power registers of a cluster, whatever its number. -/
theorem Dev.put_clstat_quiet (n : Nat) {f : Fld} (v : Nat) (ha : quiet a) (hf : f.off = 0x108) (hn : f.narrow) : (d.put (pwrB + 0x10 * n) f v).word a = d.word a := by
  apply Dev.put_word_ne' d v hn
  unfold quiet at ha
  unfold pwrB
  omega

theorem Dev.put_pwr_quiet {f : Fld} (v : Nat) (ha : quiet a) (hf : Fld.plain f ∧ f.off < 0x100) : (d.put pwrB f v).word a = d.word a := by
  obtain ⟨⟨h1, h2, h3⟩, h4⟩ := hf
  generalize ho : f.off = o at h1 h2 h3 h4
  apply Dev.put_quiet d v ha <;> (unfold quiet pwrB; omega)

/-- FLT registers other than the records. -/
theorem Dev.put_flt_quiet {f : Fld} (v : Nat) (ha : quiet a) (hf : f.off = 0x10 ∨ f.off = 0x64 ∨ f.off = 0x68 ∨ f.off = 0x70) (hn : f.narrow) : (d.put fltB f v).word a = d.word a := by
  apply Dev.put_word_ne' d v hn
  unfold quiet at ha
  unfold fltB
  omega

theorem Dev.forAll_word {l : List Nat} {f : Dev → Nat → Dev} (h : ∀ (d : Dev) (x : Nat), x ∈ l → (f d x).word a = d.word a) : (d.forAll l f).word a = d.word a := by
  unfold Dev.forAll
  induction l generalizing d with
  | nil => rfl
  | cons x xs ih =>
    rw [List.foldl_cons, ih _ (fun d y hy => h d y (List.mem_cons_of_mem _ hy)), h d x List.mem_cons_self]

theorem Dev.foldl_word {α : Type} {l : List α} {f : Dev → α → Dev} (h : ∀ (d : Dev) (x : α), (f d x).word a = d.word a) : (l.foldl f d).word a = d.word a := by
  induction l generalizing d with
  | nil => rfl
  | cons x xs ih => rw [List.foldl_cons, ih, h d x]

/-! ### Messages and interrupts -/

theorem Dev.msix_word (v a : Nat) : (d.msix v).word a = d.word a := by
  unfold Dev.msix
  repeat' split
  all_goals rfl

/-- An interrupt changes PG_IRQ_STAT of its page and no other word. -/
theorem Dev.irq_word (kind : PageKind) (base i : Nat) (h : a ≠ base + 0x10) : (d.irq kind base i).word a = d.word a := by
  unfold Dev.irq
  have hs : (d.setBitN base .PG_IRQ_STAT_BITS i true).word a = d.word a := Dev.put_word_ne' d _ (by decide) h
  dsimp only
  repeat' split
  all_goals simp only [Dev.msix_word, hs]

theorem Dev.irq_page (kind : PageKind) {base : Nat} (i : Nat) (ha : quiet a) (hb : base % 0x1000 = 0 ∧ 0x6000 ≤ base) : (d.irq kind base i).word a = d.word a := by
  apply Dev.irq_word
  unfold quiet at ha
  omega

theorem Dev.satAdd_res_quiet {f : Fld} (k : Nat) (ha : quiet a) (hf : Fld.plain f) : (d.satAdd resB f k).word a = d.word a := Dev.put_res_quiet d _ ha hf

theorem Dev.satInc_ras_quiet {f : Fld} (ha : quiet a) (hf : Fld.plain f) : (d.satInc rasB f).word a = d.word a := Dev.put_ras_quiet d _ ha hf
theorem Dev.satInc_cal_quiet {f : Fld} (ha : quiet a) (hf : Fld.plain f) : (d.satInc calB f).word a = d.word a := Dev.put_cal_quiet d _ ha hf
theorem Dev.setBitN_cal_quiet {f : Fld} (i : Nat) (v : Bool) (ha : quiet a) (hf : Fld.plain f) : (d.setBitN calB f i v).word a = d.word a := Dev.put_cal_quiet d _ ha hf
theorem Dev.setb_pin_quiet (g : Nat) {f : Fld} (v : Bool) (ha : quiet a) (hf : Fld.plain f) : (d.setb (pinBase g) f v).word a = d.word a := Dev.put_pin_quiet d g _ ha hf
theorem Dev.setb_dps_quiet (k : Nat) {f : Fld} (v : Bool) (ha : quiet a) (hf : Fld.plain f) : (d.setb (dpsBase k) f v).word a = d.word a := Dev.put_dps_quiet d k _ ha hf
theorem Dev.setb_gen_quiet (w : Nat) {f : Fld} (v : Bool) (ha : quiet a) (hf : 0x100 ≤ f.off ∧ f.off < 0x800) : (d.setb (genBase w) f v).word a = d.word a :=
  Dev.put_gen_quiet d w _ ha hf

/-! ### Records, wakes and requests -/

theorem Dev.discard_word (k : Nat) (ha : quiet a) : (d.discard k).word a = d.word a := by
  unfold Dev.discard
  split
  · rfl
  · rw [Dev.irq_page _ _ _ ha (by decide), Dev.satAdd_res_quiet d k ha (by decide)]

theorem Dev.produce_word (c : Nat) (an : Bool) (ws : List Word) (ha : quiet a) : (d.produce c an ws).word a = d.word a := by
  unfold Dev.produce
  split
  · exact Dev.discard_word d 1 ha
  · exact Dev.put_res_quiet _ _ ha (by decide)

theorem Dev.annot_word (c k : Nat) (ws : List Nat) (ha : quiet a) : (d.annot c k ws).word a = d.word a := Dev.produce_word _ _ _ _ ha

theorem Dev.runOpen_word (c t : Nat) (ha : quiet a) : (d.runOpen c t).word a = d.word a := by
  unfold Dev.runOpen
  dsimp only
  split
  · rfl
  · split
    · exact (Dev.annot_word _ _ _ _ ha).trans (Dev.setCx_word ..)
    · rfl

theorem Dev.runLate_word (c : Nat) (ha : quiet a) : (d.runLate c).word a = d.word a := by
  unfold Dev.runLate
  split
  · split
    · exact Dev.runOpen_word d _ _ ha
    · rfl
  · rfl

theorem Dev.dbreak_word (c k : Nat) (ha : quiet a) : (d.dbreak c k).word a = d.word a := by
  unfold Dev.dbreak
  dsimp only
  split
  · exact (Dev.annot_word _ _ _ _ ha).trans (Dev.runLate_word d c ha)
  · rfl

theorem Dev.queueRtn_word (n : Nat) (r : Rtn) : (d.queueRtn n r).word a = d.word a := rfl

theorem Dev.wakeCounts_word (ha : quiet a) : d.wakeCounts.word a = d.word a := by
  unfold Dev.wakeCounts
  rw [Dev.put_pwr_quiet _ _ ha (by decide), Dev.put_pwr_quiet _ _ ha (by decide)]

theorem Dev.wakePush_word (n : Nat) (p l : Bool) (m : Nat) (ha : quiet a) : (d.wakePush n p l m).word a = d.word a := by
  unfold Dev.wakePush
  dsimp only
  split
  · rfl
  · rw [Dev.wakeCounts_word _ ha]
    exact Dev.put_clstat_quiet _ n _ ha rfl (by decide)

theorem Dev.wakeReqTo_word (n : Nat) (p l : Bool) (m : Nat) (ha : quiet a) : (d.wakeReqTo n p l m).word a = d.word a := by
  unfold Dev.wakeReqTo
  dsimp only
  split
  · rfl
  · split
    · exact Dev.put_clstat_quiet d n _ ha rfl (by decide)
    · exact Dev.wakePush_word d n p l m ha

theorem Dev.wakeReqFree_word (n : Nat) (ha : quiet a) : (d.wakeReqFree n).word a = d.word a := Dev.wakeReqTo_word d n _ _ _ ha
theorem Dev.wakeReq_word (n : Nat) (ha : quiet a) : (d.wakeReq n).word a = d.word a := Dev.wakeReqTo_word d n _ _ _ ha

theorem Dev.reqRtn_word (n : Nat) (r : Rtn) (ha : quiet a) : (d.reqRtn n r).word a = d.word a := by
  unfold Dev.reqRtn
  dsimp only
  split
  · rw [Dev.wakeReqFree_word _ n ha, Dev.queueRtn_word d n r]
  · exact Dev.queueRtn_word d n r

/-! ### Outputs forced -/

theorem Dev.winSee_word (g a : Nat) : (d.winSee g).word a = d.word a := by
  unfold Dev.winSee
  dsimp only
  split <;> rfl

theorem Dev.setCmpOut_word (g : Nat) (ch cl : Bool) (ha : quiet a) : (d.setCmpOut g ch cl).word a = d.word a := by
  unfold Dev.setCmpOut
  have h : ((d.setb (pinBase g) .PIN_CMP_STAT_CH ch).setb (pinBase g) .PIN_CMP_STAT_CL cl).word a = d.word a := by
    rw [Dev.setb_pin_quiet _ g _ ha (by decide), Dev.setb_pin_quiet _ g _ ha (by decide)]
  generalize (d.setb (pinBase g) .PIN_CMP_STAT_CH ch).setb (pinBase g) .PIN_CMP_STAT_CL cl = e at h
  dsimp only
  split
  · exact h
  · exact (Dev.winSee_word ..).trans h

theorem Dev.releaseCmp_word (g : Nat) (ha : quiet a) : (d.releaseCmp g).word a = d.word a := by
  unfold Dev.releaseCmp
  repeat' split
  all_goals first | rfl | exact Dev.setCmpOut_word d g _ _ ha

theorem Dev.pinSafe_word (g : Nat) (ha : quiet a) : (d.pinSafe g).word a = d.word a := by
  unfold Dev.pinSafe
  dsimp only
  rw [Dev.releaseCmp_word _ g ha, Dev.setPin_word, Dev.setb_pin_quiet _ g _ ha (by decide), Dev.setb_pin_quiet _ g _ ha (by decide),
    Dev.setb_pin_quiet _ g _ ha (by decide)]

theorem Dev.setPmuNow_word (g c : Nat) (ha : quiet a) : (d.setPmuNow g c).word a = d.word a := by
  unfold Dev.setPmuNow
  dsimp only
  rw [Dev.setb_pin_quiet _ g _ ha (by decide)]
  split
  · rfl
  · rw [Dev.put_pin_quiet _ g _ ha (by decide)]; rfl


theorem Dev.pmuForceOff_word (g : Nat) (ha : quiet a) : (d.pmuForceOff g).word a = d.word a := by
  unfold Dev.pmuForceOff
  dsimp only
  rw [Dev.setPmuNow_word _ g _ ha, Dev.setPmu_word, Dev.setb_pin_quiet _ g _ ha (by decide), Dev.setb_pin_quiet _ g _ ha (by decide),
    Dev.setb_pin_quiet _ g _ ha (by decide), Dev.put_pin_quiet _ g _ ha (by decide), Dev.setb_pin_quiet _ g _ ha (by decide),
    Dev.put_pin_quiet _ g _ ha (by decide)]

theorem Dev.dpsUvSync_word (k : Nat) (ha : quiet a) : (d.dpsUvSync k).word a = d.word a := by
  unfold Dev.dpsUvSync
  dsimp only
  split
  · rw [Dev.irq_page _ _ _ ha ⟨(dps_page _).1, by have := (dps_page k).2; omega⟩, Dev.setb_dps_quiet _ k _ ha (by decide)]
  · exact Dev.setb_dps_quiet _ k _ ha (by decide)

theorem Dev.dpsOffNow_word (k st : Nat) (ha : quiet a) : (d.dpsOffNow k st).word a = d.word a := by
  unfold Dev.dpsOffNow Dev.setDpsState
  dsimp only
  rw [Dev.dpsUvSync_word _ k ha, Dev.put_dps_quiet _ k _ ha (by decide), Dev.setb_dps_quiet _ k _ ha (by decide), Dev.setb_dps_quiet _ k _ ha (by decide), Dev.setDp_word]

theorem Dev.dpsSafe_word (n k : Nat) (ha : quiet a) : (d.dpsSafe n k).word a = d.word a := by
  unfold Dev.dpsSafe
  dsimp only
  rw [Dev.setDp_word, Dev.setb_dps_quiet _ k _ ha (by decide), Dev.dpsOffNow_word d k 7 ha]

theorem Dev.genStop_word (w cause : Nat) (ha : quiet a) : (d.genStop w cause).word a = d.word a := by
  unfold Dev.genStop
  dsimp only
  rw [Dev.irq_page _ _ _ ha ⟨(wfg_page _).1, by have := (wfg_page (w / 4)).2; omega⟩, Dev.setGen_word, Dev.setb_gen_quiet _ w _ ha (by decide),
    Dev.put_gen_quiet _ w _ ha (by decide), Dev.put_gen_quiet _ w _ ha (by decide)]

theorem Dev.genSafe_word (w : Nat) (ha : quiet a) : (d.genSafe w).word a = d.word a := by
  unfold Dev.genSafe
  dsimp only
  rw [Dev.setGen_word, Dev.genStop_word d w 4 ha]

theorem Dev.rasRelease_word (l t f : Nat) (s : Bool) (ha : quiet a) : (d.rasRelease l t f s).word a = d.word a := by
  have h : ∀ (c : Bool) (e : Dev), (if c then e else e.satInc rasB .RAS_LOST_CNT_COUNT).word a = e.word a := fun c e => by
    split
    · rfl
    · exact Dev.satInc_ras_quiet _ ha (by decide)
  have hr : ∀ (d : Dev) (r : Ras), ({ d with ras := r } : Dev).word a = d.word a := fun _ _ => rfl
  unfold Dev.rasRelease
  generalize rasPush _ _ = r
  rw [Dev.irq_page _ _ _ ha (by decide), h, hr]

theorem Dev.put_front_quiet {i : Nat} (hi : i ∈ [0, 1]) {f : Fld} (v : Nat) (ha : quiet a) (hf : 0x100 ≤ f.off ∧ f.off < 0x800) :
    (d.put (rasB + 0x80 * i) f v).word a = d.word a := by
  obtain ⟨h1, h2⟩ := hf
  generalize ho : f.off = o at h1 h2
  have : i = 0 ∨ i = 1 := by simpa using hi
  apply Dev.put_quiet d v ha <;> (unfold quiet rasB; omega)

theorem Dev.rasReleaseAll_word (ha : quiet a) : d.rasReleaseAll.word a = d.word a := by
  unfold Dev.rasReleaseAll
  dsimp only
  have h1 : ∀ (d : Dev) (l : List (Nat × Nat)) (i f : Nat), (l.foldl (fun d s => d.rasRelease i s.2 f true) d).word a = d.word a :=
    fun d l i f => Dev.foldl_word d (fun d x => Dev.rasRelease_word d _ _ _ _ ha)
  refine (Dev.forAll_word _ (fun d i hi => ?_)).trans ?_
  · unfold Dev.setb
    rw [Dev.put_front_quiet _ hi _ ha (by decide), Dev.put_front_quiet _ hi _ ha (by decide)]
  · have hr : ∀ (d : Dev) (r : Ras), ({ d with ras := r } : Dev).word a = d.word a := fun _ _ => rfl
    have h2 : ∀ (c : Prop) [Decidable c] (d : Dev) (i t f : Nat), (if c then d else d.rasRelease i t f false).word a = d.word a := fun c _ d i t f => by
      split
      · rfl
      · exact Dev.rasRelease_word d _ _ _ _ ha
    rw [hr, Dev.forAll_word d (fun d i _ => ?_)]
    split
    · rw [Dev.rasRelease_word _ _ _ _ _ ha, h1, h2]
    · rw [h1, h2]

theorem Dev.rasSafe_word (ha : quiet a) : d.rasSafe.word a = d.word a := by
  unfold Dev.rasSafe
  split
  · rw [Dev.put_ras_quiet _ _ ha (by decide), Dev.rasReleaseAll_word d ha]
  · rfl

theorem Dev.tdcArmFresh_word (g ta : Nat) (c : Option Nat) (m : Bool) (ha : quiet a) : (d.tdcArmFresh g ta c m).word a = d.word a := by
  unfold Dev.tdcArmFresh
  dsimp only
  rw [Dev.put_pin_quiet _ g _ ha (by decide)]
  split
  · rw [Dev.put_pin_quiet _ g _ ha (by decide), Dev.setTdc_word]
  · rfl

theorem Dev.tdcCdEnd_word (n : Nat) (ha : quiet a) : (d.tdcCdEnd n).word a = d.word a := by
  unfold Dev.tdcCdEnd
  dsimp only
  refine (Dev.forAll_word _ (fun d g _ => ?_)).trans (Dev.put_tdcc_quiet d n _ ha (by decide))
  have h : ∀ (c : Prop) [Decidable c] (e : Dev) (t : Nat), (if c then e.tdcArmFresh g t none false else e).word a = e.word a := fun c _ e t => by
    split
    · exact Dev.tdcArmFresh_word e g _ _ _ ha
    · rfl
  split
  · rw [h, Dev.setTdc_word, Dev.put_pin_quiet _ g _ ha (by decide)]
  · rfl

theorem Dev.calAbandon_word (n : Nat) (ha : quiet a) : (d.calAbandon n).word a = d.word a := by
  unfold Dev.calAbandon
  have hp : ∀ (e : Dev) (f : Fld) (v : Nat), Fld.plain f → (e.put (calcBase n) f v).word a = e.word a := fun e f v hf => Dev.put_calc_quiet e n v ha hf
  have hi : ∀ (e : Dev) (i : Nat), (e.irq .calc (calcBase n) i).word a = e.word a := fun e i =>
    Dev.irq_page e _ _ ha ⟨(calc_page _).1, by have := (calc_page n).2; omega⟩
  dsimp only
  split
  · rfl
  · split
    · rw [Dev.tdcCdEnd_word _ n ha, hp _ _ _ (by decide), Dev.satInc_cal_quiet _ ha (by decide), Dev.setBitN_cal_quiet _ _ _ ha (by decide), hi,
        hp _ _ _ (by decide), hp _ _ _ (by decide), hp _ _ _ (by decide), hp _ _ _ (by decide), hp _ _ _ (by decide), Dev.setClu_word]
    · rw [hp _ _ _ (by decide), Dev.satInc_cal_quiet _ ha (by decide), Dev.setBitN_cal_quiet _ _ _ ha (by decide), hi,
        hp _ _ _ (by decide), hp _ _ _ (by decide), hp _ _ _ (by decide), hp _ _ _ (by decide), hp _ _ _ (by decide), Dev.setClu_word]

theorem Dev.bstCut_word (n a : Nat) : (d.bstCut n).word a = d.word a := by
  unfold Dev.bstCut
  split <;> rfl

theorem Dev.forceCluster_word (n : Nat) (ha : quiet a) : (d.forceCluster n).word a = d.word a := by
  unfold Dev.forceCluster
  dsimp only
  rw [Dev.bstCut_word, Dev.calAbandon_word _ n ha]
  have h : ∀ d : Dev, (if d.rasOnCluster n then d.rasSafe else d).word a = d.word a := fun d => by
    split
    · exact Dev.rasSafe_word d ha
    · rfl
  rw [h, Dev.forAll_word _ (fun d w _ => Dev.genSafe_word d w ha), Dev.forAll_word _ (fun d k _ => Dev.forAll_word d (fun d j _ => Dev.dpsSafe_word d n j ha)),
    Dev.forAll_word _ (fun d g _ => by rw [Dev.pmuForceOff_word _ g ha, Dev.pinSafe_word d g ha])]

/-! ### The reaction -/

theorem Dev.setBitN_flt_quiet {f : Fld} (i : Nat) (v : Bool) (ha : quiet a) (hf : f.off = 0x10 ∨ f.off = 0x64 ∨ f.off = 0x68 ∨ f.off = 0x70) (hn : f.narrow) :
    (d.setBitN fltB f i v).word a = d.word a := Dev.put_flt_quiet d _ ha hf hn

theorem Dev.openShadow_word (dev : Bool) (cls ctxs : List Nat) (ha : quiet a) : (d.openShadow dev cls ctxs).word a = d.word a := by
  unfold Dev.openShadow
  dsimp only
  split
  · exact Dev.put_flt_quiet _ _ ha (by decide) (by decide)
  · exact Dev.forAll_word d (fun d n _ => Dev.setBitN_flt_quiet _ _ _ ha (by decide) (by decide))

theorem Dev.reactC_word (ctxs : List Nat) (x : Nat) (ha : quiet a) : (d.reactC ctxs x).word a = d.word a :=
  Dev.forAll_word d (fun d c _ => by rw [Dev.wakeReqFree_word _ _ ha, Dev.reqRtn_word d _ _ ha])

theorem Dev.reactForced_word (ctxs : List Nat) (m c : Nat) (ha : quiet a) : (d.reactForced ctxs m c).word a = d.word a := by
  unfold Dev.reactForced
  rw [Dev.reactC_word _ _ _ ha, Dev.forAll_word d (fun d c _ => Dev.dbreak_word d c _ ha)]

theorem Dev.reactS_word (cls : List Nat) (ha : quiet a) : (d.reactS cls).word a = d.word a := by
  unfold Dev.reactS
  dsimp only
  rw [Dev.reactForced_word _ _ _ _ ha, Dev.irq_page _ _ _ ha (by decide)]
  exact Dev.forAll_word d (fun d n _ => by rw [Dev.setBitN_flt_quiet _ _ _ ha (by decide) (by decide), Dev.forceCluster_word d n ha])

theorem Dev.logHif_word (write : Bool) (c : ErrCause) (x : Nat) (ha : quiet a) : (d.logHif write c x).word a = d.word a := by
  have h1 : ∀ (e : Dev) (v : Nat), (e.setWord (hifB + 0x4C) v).word a = e.word a := fun e v =>
    Dev.setWord_word_ne e v (by unfold quiet at ha; unfold hifB; omega)
  have h2 : ∀ (e : Dev) (f : Fld), f.off = 0x44 ∨ f.off = 0x48 → f.narrow → (e.satInc hifB f).word a = e.word a := fun e f hf hn => by
    unfold Dev.satInc Dev.satAdd
    exact Dev.put_word_ne' e _ hn (by unfold quiet at ha; unfold hifB; omega)
  have h3 : ∀ w : Bool, (d.satInc hifB (if w then .HIF_ERR_WR_CNT_COUNT else .HIF_ERR_RD_CNT_COUNT)).word a = d.word a := fun w => by
    cases w <;> exact h2 _ _ (by decide) (by decide)
  rw [← h3 write]
  unfold Dev.logHif
  generalize d.satInc hifB (if write then .HIF_ERR_WR_CNT_COUNT else .HIF_ERR_RD_CNT_COUNT) = e
  dsimp only
  by_cases h : e.bit hifB .HIF_ERR_FIRST_VALID = true
  · rw [if_pos h]
  · rw [if_neg h]
    exact h1 e _

/-- A gate that a fault forces leaves the quiet words, but for the pages that no fault gates. -/
theorem Dev.faultGate_word (base : Nat) (ha : quiet a) (hb : base % 0x1000 = 0 ∧ base ≠ 0x3000) : (d.faultGate base).word a = d.word a := by
  have hq : ∀ o, o = 0x28 ∨ o = 0xC → ¬ quiet (base + o) := fun o ho => by unfold quiet; omega
  have hs : ∀ (e : Dev) (v : Nat), (e.setWord (base + 0x28) v).word a = e.word a := fun e v =>
    Dev.setWord_word_ne e v (fun h => hq 0x28 (Or.inl rfl) (h ▸ ha))
  have hp : ∀ (e : Dev) (f : Fld) (v : Nat), f.off = 0xC → f.narrow → (e.put base f v).word a = e.word a := fun e f v hf hn =>
    Dev.put_word_ne' e v hn (fun h => hq 0xC (Or.inr rfl) (hf ▸ h ▸ ha))
  have hg : ∀ (e : Dev) (h : HAcc), (e.gateAbort base h).word a = e.word a := fun e h => by
    unfold Dev.gateAbort
    dsimp only
    have key : ∀ k : Dev, ((k.logHif h.write .gateAbort h.addr).setWord (base + 0x28) (2 ^ 31 + ErrCause.gateAbort.code * 2 ^ 24 + h.addr % 0x1000)).word a = k.word a := fun k => by
      rw [hs, Dev.logHif_word _ _ _ _ ha]
    split
    · exact key _
    · split
      · exact key _
      · exact key _
  unfold Dev.faultGate
  dsimp only
  unfold Dev.setb
  rw [hp _ _ _ (by decide) (by decide), hp _ _ _ (by decide) (by decide)]
  exact Dev.foldl_word _ (fun d h => hg d h)

theorem forcesGate_page {s : Nat} (h : forcesGate s = true) : srcPage s % 0x1000 = 0 ∧ srcPage s ≠ 0x3000 := by
  unfold forcesGate at h
  simp only [Bool.and_eq_true, Bool.not_eq_true', List.contains_eq_mem, decide_eq_false_iff_not, List.mem_cons, not_or] at h
  unfold srcPage
  dsimp only
  unfold pinBase dpsBase clBase
  split
  · omega
  · split
    · omega
    · split <;> omega

/-- What a detection leaves in the quiet words is what its log left there. -/
theorem Dev.collectNow_word (type unit bit : Nat) (own : List Nat) (level inj nr : Bool) (ha : quiet a) :
    (d.collectNow type unit bit own level inj nr).word a = (d.fltLog (srcWord type unit bit) (d.srcClass (srcWord type unit bit)) inj nr).word a := by
  unfold Dev.collectNow
  dsimp only
  generalize d.fltLog (srcWord type unit bit) (d.srcClass (srcWord type unit bit)) inj nr = e
  have h : ∀ (c : Prop) [Decidable c], (if c then { e with flt := { e.flt with active := e.flt.active ++ [srcWord type unit bit] } } else e).word a = e.word a := fun c _ => by
    split <;> rfl
  rw [← h (level = true ∧ ¬ e.flt.active.contains (srcWord type unit bit) = true)]
  generalize (if level = true ∧ ¬ e.flt.active.contains (srcWord type unit bit) = true then
    { e with flt := { e.flt with active := e.flt.active ++ [srcWord type unit bit] } } else e) = k0
  have hk : (if forcesGate (srcWord type unit bit) then k0.faultGate (srcPage (srcWord type unit bit)) else k0).word a = k0.word a := by
    split
    · exact Dev.faultGate_word k0 _ ha (forcesGate_page ‹_›)
    · rfl
  rw [← hk]
  generalize (if forcesGate (srcWord type unit bit) then k0.faultGate (srcPage (srcWord type unit bit)) else k0) = k
  by_cases h0 : d.srcClass (srcWord type unit bit) = 0
  · rw [if_pos h0]
  · by_cases h2 : d.srcClass (srcWord type unit bit) = 2
    · rw [if_neg h0, if_pos h2, Dev.openShadow_word _ _ _ _ ha, Dev.reactS_word _ _ ha]
    · rw [if_neg h0, if_neg h2]
      by_cases hc : k.cScope (srcWord type unit bit) own = []
      · rw [if_pos hc]
      · rw [if_neg hc, Dev.openShadow_word _ _ _ _ ha, Dev.reactC_word _ _ _ ha]

end Sys2Proof.Machine
end

