-- ==== Sys2Proof/Laws/Record.lean ====
section
/-! SUPPORT. The log of a detection (R428 to R430, R433): what it leaves in the records, and that the reaction after it leaves the records alone. -/

namespace Sys2Proof.Machine

variable (d : Dev) {a : Nat}

theorem srcWord_lt {t u b : Nat} (ht : t < 256) (hu : u < 1024) (hb : b < 64) : srcWord t u b < 2 ^ 24 := by unfold srcWord; omega

theorem Dev.srcClass_lt (s : Nat) : d.srcClass s < 4 := by
  unfold Dev.srcClass
  dsimp only
  split
  · decide
  · exact Nat.mod_lt _ (by decide)

theorem Dev.get_of_word {d e : Dev} {b : Nat} {f : Fld} (hf : f.narrow) (h : e.word (b + f.off) = d.word (b + f.off)) : e.get b f = d.get b f := by
  rw [Dev.get_narrow _ hf, Dev.get_narrow _ hf, h]

theorem Dev.bit_of_word {d e : Dev} {b : Nat} {f : Fld} (hf : f.narrow) (h : e.word (b + f.off) = d.word (b + f.off)) : e.bit b f = d.bit b f := by
  unfold Dev.bit; rw [Dev.get_of_word hf h]

/-- An interrupt leaves every field of its page but PG_IRQ_STAT. -/
theorem Dev.irq_get (k : PageKind) (b i : Nat) {f : Fld} (hf : f.narrow) (h : f.off ≠ 0x10) : (d.irq k b i).get b f = d.get b f :=
  Dev.get_of_word hf (Dev.irq_word d k b i (by omega))

theorem Dev.irq_bit (k : PageKind) (b i : Nat) {f : Fld} (hf : f.narrow) (h : f.off ≠ 0x10) : (d.irq k b i).bit b f = d.bit b f := by
  unfold Dev.bit; rw [Dev.irq_get d k b i hf h]

/-- The state of the log of a consequential detection (R433). -/
theorem Dev.fltLog_conseq {s cls : Nat} {inj nr : Bool} (h : d.consequential s = true) :
    d.fltLog s cls inj nr = (if (d.satInc fltB .FLT_CONSEQ_COUNT).bit fltB .FLT_CONSEQ_SET then d.satInc fltB .FLT_CONSEQ_COUNT
      else ((d.satInc fltB .FLT_CONSEQ_COUNT).setb fltB .FLT_CONSEQ_SET true).setWord (fltB + 0x58) (cls * 2 ^ 26 + s)).irq .flt fltB 2 := by
  unfold Dev.fltLog
  rw [if_pos h]

/-- The state of the log of a detection while a first fault stands (R430). -/
theorem Dev.fltLog_ovf {s cls : Nat} {inj nr : Bool} (h : d.consequential s = false) (hv : d.bit fltB .FLT_FIRST_VALID = true) :
    d.fltLog s cls inj nr = ((d.setb fltB .FLT_OVF_SET true).satInc fltB .FLT_OVF_COUNT).irq .flt fltB 1 := by
  unfold Dev.fltLog
  rw [if_neg (by simp [h]), if_pos hv]

/-- The state of the log of a first fault (R428). -/
theorem Dev.fltLog_first {s cls : Nat} {inj nr : Bool} (h : d.consequential s = false) (hv : d.bit fltB .FLT_FIRST_VALID = false) :
    d.fltLog s cls inj nr =
      ((((d.takeFree (2 ^ 32)).1.setWord (fltB + 0x40) (2 ^ 31 + (if inj then 2 ^ 29 else 0) + (if nr then 2 ^ 28 else 0) + cls * 2 ^ 26 + s)).setWord
        (fltB + 0x44) (d.takeFree (2 ^ 32)).2).put fltB .FLT_FIRST_TIME_TIME
        ((((d.takeFree (2 ^ 32)).1.setWord (fltB + 0x40) (2 ^ 31 + (if inj then 2 ^ 29 else 0) + (if nr then 2 ^ 28 else 0) + cls * 2 ^ 26 + s)).setWord
        (fltB + 0x44) (d.takeFree (2 ^ 32)).2)).mtbTime).irq .flt fltB 0 := by
  unfold Dev.fltLog
  rw [if_neg (by simp [h]), if_neg (by simp [hv])]

/-- The log of a detection writes only the records and PG_IRQ_STAT of the FLT page. -/
theorem Dev.fltLog_word (s cls : Nat) (inj nr : Bool) (h : a < 0x6010 ∨ 0x6060 ≤ a ∨ (0x6014 ≤ a ∧ a < 0x6040)) : (d.fltLog s cls inj nr).word a = d.word a := by
  have hne : ∀ x : Nat, (x = 0x6010 ∨ (0x6040 ≤ x ∧ x < 0x6060)) → a ≠ x := by omega
  by_cases h1 : d.consequential s = true
  · rw [Dev.fltLog_conseq d h1, Dev.irq_word _ _ _ _ (hne _ (by decide))]
    split
    · exact Dev.put_word_ne' _ _ (by decide) (hne _ (by decide))
    · rw [Dev.setWord_word_ne _ _ (hne _ (by decide))]
      exact (Dev.put_word_ne' _ _ (by decide) (hne _ (by decide))).trans (Dev.put_word_ne' _ _ (by decide) (hne _ (by decide)))
  · rw [Bool.not_eq_true] at h1
    by_cases h2 : d.bit fltB .FLT_FIRST_VALID = true
    · rw [Dev.fltLog_ovf d h1 h2, Dev.irq_word _ _ _ _ (hne _ (by decide))]
      exact (Dev.put_word_ne' _ _ (by decide) (hne _ (by decide))).trans (Dev.put_word_ne' _ _ (by decide) (hne _ (by decide)))
    · rw [Bool.not_eq_true] at h2
      rw [Dev.fltLog_first d h1 h2, Dev.irq_word _ _ _ _ (hne _ (by decide)), Dev.put_word_ne _ _ (hne _ (by decide)) (hne _ (by decide)),
        Dev.setWord_word_ne _ _ (hne _ (by decide)), Dev.setWord_word_ne _ _ (hne _ (by decide))]
      rfl

/-- The log of a detection is in the record. -/
theorem Dev.fltLog_recorded {s : Nat} (hs : s < 2 ^ 24) (inj nr : Bool) : d.recorded (d.fltLog s (d.srcClass s) inj nr) s := by
  have hc := d.srcClass_lt s
  unfold Dev.recorded
  by_cases h1 : d.consequential s = true
  · rw [if_pos h1, Dev.fltLog_conseq d h1]
    by_cases h2 : (d.satInc fltB .FLT_CONSEQ_COUNT).bit fltB .FLT_CONSEQ_SET = true
    · rw [if_pos h2]
      refine ⟨?_, ?_, ?_, ?_⟩
      · rw [Dev.irq_bit _ _ _ _ (by decide) (by decide), h2]
      · rw [Dev.irq_get _ _ _ _ (by decide) (by decide)]; exact Dev.satInc_get d (by decide)
      · rw [Dev.irq_word _ _ _ _ (by decide)]; exact Dev.put_word_ne' d _ (by decide) (by decide)
      · rw [Dev.irq_word _ _ _ _ (by decide)]; exact Dev.put_word_ne' d _ (by decide) (by decide)
    · rw [if_neg h2]
      refine ⟨?_, ?_, ?_, ?_⟩
      · rw [Dev.irq_bit _ _ _ _ (by decide) (by decide),
          Dev.bit_of_word (d := (d.satInc fltB .FLT_CONSEQ_COUNT).setb fltB .FLT_CONSEQ_SET true) (by decide) (Dev.setWord_word_ne _ _ (by decide))]
        exact Dev.setb_bit _ true (by decide) (by decide)
      · rw [Dev.irq_get _ _ _ _ (by decide) (by decide),
          Dev.get_of_word (d := (d.satInc fltB .FLT_CONSEQ_COUNT).setb fltB .FLT_CONSEQ_SET true) (by decide) (Dev.setWord_word_ne _ _ (by decide)),
          Dev.setb_get_apart _ true (by decide)]
        exact Dev.satInc_get d (by decide)
      all_goals
        rw [Dev.irq_word _ _ _ _ (by decide), Dev.setWord_word_ne _ _ (by decide)]
        exact (Dev.put_word_ne' _ _ (by decide) (by decide)).trans (Dev.put_word_ne' _ _ (by decide) (by decide))
  · rw [Bool.not_eq_true] at h1
    rw [if_neg (by simp [h1])]
    by_cases h2 : d.bit fltB .FLT_FIRST_VALID = true
    · rw [if_pos h2, Dev.fltLog_ovf d h1 h2]
      refine ⟨?_, ?_, ?_, ?_⟩
      · rw [Dev.irq_bit _ _ _ _ (by decide) (by decide)]
        exact (Dev.put_bit_apart _ _ (by decide)).trans (Dev.setb_bit d true (by decide) (by decide))
      · rw [Dev.irq_get _ _ _ _ (by decide) (by decide), Dev.satInc_get _ (by decide), Dev.setb_get_apart d true (by decide)]; rfl
      all_goals
        rw [Dev.irq_word _ _ _ _ (by decide)]
        exact (Dev.put_word_ne' _ _ (by decide) (by decide)).trans (Dev.put_word_ne' _ _ (by decide) (by decide))
    · rw [if_neg h2]
      rw [Bool.not_eq_true] at h2
      rw [Dev.fltLog_first d h1 h2]
      generalize hw : 2 ^ 31 + (if inj then 2 ^ 29 else 0) + (if nr then 2 ^ 28 else 0) + d.srcClass s * 2 ^ 26 + s = w
      have hw1 : w < 2 ^ 32 ∧ w / 2 ^ 31 = 1 ∧ w / 2 ^ 26 % 4 = d.srcClass s ∧ w % 2 ^ 24 = s := by
        subst hw
        cases inj <;> cases nr <;> simp <;> omega
      generalize hx : (((d.takeFree (2 ^ 32)).1.setWord (fltB + 0x40) w).setWord (fltB + 0x44) (d.takeFree (2 ^ 32)).2) = x
      have hxw : (x.put fltB .FLT_FIRST_TIME_TIME x.mtbTime).word (fltB + 0x40) = w := by
        rw [Dev.put_word_ne _ _ (by decide) (by decide), ← hx, Dev.setWord_word_ne _ _ (by decide), Dev.setWord_word, Nat.mod_eq_of_lt hw1.1]
      refine ⟨?_, ?_, ?_, ?_, ?_⟩
      · rw [Dev.irq_bit _ _ _ _ (by decide) (by decide)]
        unfold Dev.bit
        rw [Dev.get_narrow _ (by decide), show fltB + Fld.FLT_FIRST_VALID.off = fltB + 0x40 from rfl, hxw]
        show (w / 2 ^ 31 % 2 ^ 1 == 1) = true
        rw [hw1.2.1]; rfl
      · rw [Dev.irq_get _ _ _ _ (by decide) (by decide), Dev.get_narrow _ (by decide), show fltB + Fld.FLT_FIRST_SOURCE.off = fltB + 0x40 from rfl, hxw]
        show w / 2 ^ 0 % 2 ^ 24 = s
        rw [Nat.pow_zero, Nat.div_one]; exact hw1.2.2.2
      · rw [Dev.irq_get _ _ _ _ (by decide) (by decide), Dev.get_narrow _ (by decide), show fltB + Fld.FLT_FIRST_CLASS.off = fltB + 0x40 from rfl, hxw]
        exact hw1.2.2.1
      all_goals
        rw [Dev.irq_word _ _ _ _ (by decide), Dev.put_word_ne _ _ (by decide) (by decide), ← hx, Dev.setWord_word_ne _ _ (by decide), Dev.setWord_word_ne _ _ (by decide)]
        rfl

/-- A record that later reactions leave as it is. -/
theorem Dev.recorded_of_word {e e' : Dev} {s : Nat} (h : d.recorded e s) (hw : ∀ x, quiet x → e'.word x = e.word x) : d.recorded e' s := by
  have h40 := hw (fltB + 0x40) (by unfold quiet; decide)
  have h50 := hw (fltB + 0x50) (by unfold quiet; decide)
  have h54 := hw (fltB + 0x54) (by unfold quiet; decide)
  unfold Dev.recorded at h ⊢
  rw [Dev.bit_of_word (d := e) (e := e') (f := .FLT_CONSEQ_SET) (by decide) h54, Dev.get_of_word (d := e) (e := e') (f := .FLT_CONSEQ_COUNT) (by decide) h54,
    Dev.bit_of_word (d := e) (e := e') (f := .FLT_OVF_SET) (by decide) h50, Dev.get_of_word (d := e) (e := e') (f := .FLT_OVF_COUNT) (by decide) h50,
    Dev.bit_of_word (d := e) (e := e') (f := .FLT_FIRST_VALID) (by decide) h40, Dev.get_of_word (d := e) (e := e') (f := .FLT_FIRST_SOURCE) (by decide) h40,
    Dev.get_of_word (d := e) (e := e') (f := .FLT_FIRST_CLASS) (by decide) h40, h40, h50, h54]
  exact h

/-- The FLT registers that decide where a detection is recorded. -/
theorem Dev.recorded_congr {d' e : Dev} {s : Nat} (h : d'.recorded e s) (hw : ∀ x, 0x6040 ≤ x → x < 0x7000 → d'.word x = d.word x) (hs : srcType s < 0x100) : d.recorded e s := by
  have hc : d'.consequential s = d.consequential s := by
    unfold Dev.consequential Dev.bitN
    rw [Dev.bit_of_word (d := d) (e := d') (f := .FLT_STAT_DEV_SHADOW) (by decide) (hw _ (by decide) (by decide)),
      Dev.get_of_word (d := d) (e := d') (f := .FLT_SHADOW_MAP_CLUSTER) (by decide) (hw _ (by decide) (by decide))]
  have hk : d'.srcClass s = d.srcClass s := by
    have hg : d'.get (fltB + 8 * srcType s) .FLT_CLASS_CLASS = d.get (fltB + 8 * srcType s) .FLT_CLASS_CLASS := by
      unfold Dev.get
      have h1 := hw (fltB + 8 * srcType s + 0x400) (by unfold fltB; omega) (by unfold fltB; omega)
      have h2 := hw (fltB + 8 * srcType s + 0x400 + 4) (by unfold fltB; omega) (by unfold fltB; omega)
      rw [show fltB + 8 * srcType s + Fld.FLT_CLASS_CLASS.off = fltB + 8 * srcType s + 0x400 from rfl, h1, h2]
    unfold Dev.srcClass
    rw [hg]
  unfold Dev.recorded at h ⊢
  rw [hc, hk, Dev.bit_of_word (d := d) (e := d') (f := .FLT_FIRST_VALID) (by decide) (hw _ (by decide) (by decide)),
    Dev.get_of_word (d := d) (e := d') (f := .FLT_CONSEQ_COUNT) (by decide) (hw _ (by decide) (by decide)),
    Dev.get_of_word (d := d) (e := d') (f := .FLT_OVF_COUNT) (by decide) (hw _ (by decide) (by decide)),
    hw (fltB + 0x40) (by decide) (by decide), hw (fltB + 0x50) (by decide) (by decide), hw (fltB + 0x54) (by decide) (by decide)] at h
  exact h

/-- A detection of a block that no self-test slice occupies is in the record (R428 to R430, R433, R436). -/
theorem Dev.collect_recorded {t u b : Nat} (ht : t < 256) (hu : u < 1024) (hb : b < 64) (hs : d.srcSlice (srcWord t u b) = none) (hr : t ≠ 9) (own : List Nat)
    (level inj nr : Bool) : d.recorded (d.collect t u b own level inj nr) (srcWord t u b) := by
  unfold Dev.collect
  rw [if_neg (by simp [hr]), hs]
  exact Dev.recorded_of_word d (Dev.fltLog_recorded d (srcWord_lt ht hu hb) inj nr) (fun x hx => Dev.collectNow_word d t u b own level inj nr hx)

/-- A detection leaves the quiet words but the records. -/
theorem Dev.collect_word {t u b : Nat} (hs : d.srcSlice (srcWord t u b) = none) (hr : t ≠ 9) (own : List Nat) (level inj nr : Bool) (ha : quiet a)
    (h : a < 0x6010 ∨ 0x6060 ≤ a ∨ (0x6014 ≤ a ∧ a < 0x6040)) : (d.collect t u b own level inj nr).word a = d.word a := by
  unfold Dev.collect
  rw [if_neg (by simp [hr]), hs]
  exact (Dev.collectNow_word d t u b own level inj nr ha).trans (Dev.fltLog_word d _ _ _ _ h)

end Sys2Proof.Machine
end

