-- ==== Sys2Proof/Laws/Clock.lean ====
section
/-! SUPPORT. What relocking the vector PLLs, and a warm reset with it, leaves alone (R386, R469, R470). -/

namespace Sys2Proof.Machine

variable (d : Dev)

theorem Dev.put_keeps {β : Type} {P : Dev → β} (hw : ∀ (d : Dev) (a v : Nat), P (d.setWord a v) = P d) (b : Nat) (f : Fld) (v : Nat) : P (d.put b f v) = P d :=
  Dev.put_frame d P hw b f v

theorem Dev.forAll_keeps {β : Type} {P : Dev → β} {l : List Nat} {f : Dev → Nat → Dev} (h : ∀ (d : Dev) (x : Nat), P (f d x) = P d) : P (d.forAll l f) = P d := by
  unfold Dev.forAll
  induction l generalizing d with
  | nil => rfl
  | cons x xs ih => rw [List.foldl_cons, ih, h]

/-- What no register word and no generator record carries, a change of owner leaves. -/
theorem Dev.genOwned_keeps {β : Type} {P : Dev → β} (hw : ∀ (d : Dev) (a v : Nat), P (d.setWord a v) = P d) (hg : ∀ (d : Dev) (w : Nat) (g : Gen), P (d.setGen w g) = P d)
    (w : Nat) (own : Option Nat) : P (d.genOwned w own) = P d := by
  have hp : ∀ (d : Dev) (b : Nat) (f : Fld) (v : Nat), P (d.put b f v) = P d := fun d b f v => Dev.put_keeps d hw b f v
  unfold Dev.genOwned
  dsimp only
  split
  · exact hg ..
  · split
    · rw [hp, hp, hg, hg]
    · rw [hp, hp, hg]

theorem Dev.genOwn_keeps {β : Type} {P : Dev → β} (hw : ∀ (d : Dev) (a v : Nat), P (d.setWord a v) = P d) (hg : ∀ (d : Dev) (w : Nat) (g : Gen), P (d.setGen w g) = P d)
    (w : Nat) : P (d.genOwn w) = P d := by
  unfold Dev.genOwn
  dsimp only
  split
  · exact Dev.genOwned_keeps d hw hg ..
  · split
    · exact Dev.genOwned_keeps d hw hg ..
    · exact (Dev.put_keeps _ hw ..).trans (Dev.genOwned_keeps d hw hg ..)

/-- What no register word and no generator record carries, a relock leaves. -/
theorem Dev.vpOn_keeps {β : Type} {P : Dev → β} (hw : ∀ (d : Dev) (a v : Nat), P (d.setWord a v) = P d) (hg : ∀ (d : Dev) (w : Nat) (g : Gen), P (d.setGen w g) = P d)
    (r : Nat) : P (d.vpOn r) = P d := by
  have hp : ∀ (d : Dev) (b : Nat) (f : Fld) (v : Nat), P (d.put b f v) = P d := fun d b f v => Dev.put_keeps d hw b f v
  have hb : ∀ (d : Dev) (b : Nat) (f : Fld) (v : Bool), P (d.setb b f v) = P d := fun d b f v => hp d b f _
  have ho : ∀ (d : Dev) (w : Nat), P (d.genOwn w) = P d := fun d w => Dev.genOwn_keeps d hw hg w
  unfold Dev.vpOn Dev.vpRelock Dev.setVpLock Dev.setBitN
  split
  · exact hb ..
  · rw [Dev.forAll_keeps _ ho, hp, hb, hp, hb]

theorem Dev.keep_keeps {β : Type} {P : Dev → β} (hw : ∀ (d : Dev) (a v : Nat), P (d.setWord a v) = P d) (old : Dev) (l : List Nat) : P (d.keep old l) = P d :=
  Dev.forAll_keeps d (fun d a => hw d a _)

theorem Dev.warmClocks_keeps {β : Type} {P : Dev → β} (hw : ∀ (d : Dev) (a v : Nat), P (d.setWord a v) = P d) (hg : ∀ (d : Dev) (w : Nat) (g : Gen), P (d.setGen w g) = P d)
    (hr : ∀ (d : Dev) (r : Rst), P { d with rst := r } = P d) (old : Dev) : P (d.warmClocks old) = P d := by
  unfold Dev.warmClocks
  split
  · rfl
  · split
    · rw [Dev.forAll_keeps _ (fun d r => Dev.vpOn_keeps d hw hg r), hr, Dev.put_keeps _ hw, Dev.put_keeps _ hw, Dev.keep_keeps _ hw]
    · rw [hr, Dev.put_keeps _ hw, Dev.put_keeps _ hw, Dev.keep_keeps _ hw]

/-! ### Words -/

theorem Dev.genOwned_word (w : Nat) (own : Option Nat) {a : Nat} (ha : a < 0x20000) : (d.genOwned w own).word a = d.word a := by
  unfold Dev.genOwned
  dsimp only
  split
  · rfl
  · split <;> (refine (Dev.put_word_ne _ _ ?_ ?_).trans ((Dev.put_word_ne _ _ ?_ ?_).trans rfl) <;> (unfold genBase wfgBase clBase; omega))

theorem Dev.genOwn_word (w : Nat) {a : Nat} (ha : a < 0x20000) : (d.genOwn w).word a = d.word a := by
  unfold Dev.genOwn
  dsimp only
  split
  · exact Dev.genOwned_word d w _ ha
  · split
    · exact Dev.genOwned_word d w _ ha
    · refine (Dev.put_word_ne _ _ ?_ ?_).trans (Dev.genOwned_word d w _ ha) <;> (unfold genBase wfgBase clBase; omega)

theorem Dev.put_vp_word {r a : Nat} {f : Fld} (v : Nat) (hr : r < 8) (hc : a < 0x3000 ∨ 0x4000 ≤ a) (hn : f.narrow) (hf : f.off = 0x84 ∨ f.off = 0x44) :
    (d.put (vpBase r) f v).word a = d.word a ∧ (d.put clkB f v).word a = d.word a :=
  ⟨Dev.put_word_ne' d v hn (by unfold vpBase clkB; omega), Dev.put_word_ne' d v hn (by unfold clkB; omega)⟩

theorem Dev.vpRelock_word {r a : Nat} (hr : r < 8) (ha : a < 0x20000) (hc : a < 0x3000 ∨ 0x4000 ≤ a) : (d.vpRelock r).word a = d.word a := by
  unfold Dev.vpRelock
  split
  · rfl
  · unfold Dev.setVpLock
    rw [Dev.forAll_word _ (fun d w _ => Dev.genOwn_word d w ha)]
    exact ((Dev.put_vp_word _ _ hr hc (by decide) (by decide)).2.trans (Dev.put_vp_word _ _ hr hc (by decide) (by decide)).1).trans
      (Dev.put_vp_word d _ hr hc (by decide) (by decide)).1

theorem Dev.vpOn_word {r a : Nat} (hr : r < 8) (ha : a < 0x20000) (hc : a < 0x3000 ∨ 0x4000 ≤ a) : (d.vpOn r).word a = d.word a := by
  unfold Dev.vpOn
  rw [Dev.vpRelock_word _ hr ha hc]
  exact (Dev.put_vp_word d _ hr hc (by decide) (by decide)).1

theorem Dev.keep_word_mem (old : Dev) {l : List Nat} {a : Nat} (h : a ∈ l) : (d.keep old l).word a = old.word a := by
  unfold Dev.keep Dev.forAll
  induction l generalizing d with
  | nil => simp at h
  | cons x xs ih =>
    rw [List.foldl_cons]
    by_cases hx : a ∈ xs
    · exact ih _ hx
    · have : a = x := by simpa [hx] using h
      subst this
      have hn : ∀ (l : List Nat) (d : Dev), a ∉ l → (l.foldl (fun d a => d.setWord a (old.word a)) d).word a = d.word a := by
        intro l
        induction l with
        | nil => intro d _; rfl
        | cons y ys ih2 =>
          intro d hy
          simp only [List.mem_cons, not_or] at hy
          rw [List.foldl_cons, ih2 _ hy.2, Dev.setWord_word_ne _ _ hy.1]
      rw [hn xs _ hx, Dev.setWord_word, Nat.mod_eq_of_lt (Dev.word_lt ..)]

theorem Dev.keep_word_not (old : Dev) {l : List Nat} {a : Nat} (h : a ∉ l) : (d.keep old l).word a = d.word a :=
  Dev.forAll_word d (fun d _ hx => Dev.setWord_word_ne d _ (fun e => h (e ▸ hx)))

theorem Dev.warmClocks_word (old : Dev) {a : Nat} (ha : a < 0x20000) (hc : a < 0x3000 ∨ 0x4000 ≤ a) : (d.warmClocks old).word a = d.word a := by
  have hk : ∀ d : Dev, (d.keep old [clkB + 0xC, clkB + 0x40, clkB + 0x44, clkB + 0x4C]).word a = d.word a := fun d =>
    Dev.keep_word_not d old (by unfold clkB; simp only [List.mem_cons, List.not_mem_nil, or_false, not_or]; omega)
  have hp : ∀ (d : Dev) {f : Fld} (v : Nat), f.narrow → f.off = 0x44 → (d.put clkB f v).word a = d.word a := fun d f v hn hf =>
    Dev.put_word_ne' d v hn (by unfold clkB; omega)
  have hr : ∀ (d : Dev) (r : Rst), ({ d with rst := r } : Dev).word a = d.word a := fun _ _ => rfl
  have hv : ∀ d : Dev, (d.forAll d.rangesOn Dev.vpOn).word a = d.word a := fun d =>
    Dev.forAll_word d (fun d r h => Dev.vpOn_word d (List.mem_range.mp (List.mem_filter.mp h).1) ha hc)
  unfold Dev.warmClocks
  split
  · rfl
  · split
    · rw [hv, hr, hp _ _ (by decide) rfl, hp _ _ (by decide) rfl, hk]
    · rw [hr, hp _ _ (by decide) rfl, hp _ _ (by decide) rfl, hk]

end Sys2Proof.Machine
end

