-- ==== Sys2Proof/Laws/Page.lean ====
section
/-! SUPPORT. Where the pages lie: the area and the cluster of an address given as a page base and an offset. -/

namespace Sys2Proof.Machine

/-- A global page (R30). -/
theorem areaOf_global {n o : Nat} (hn : n < 16) (ho : o < 0x1000) : areaOf (n * 0x1000 + o) = .page (globalKind n) (n * 0x1000) o := by
  have h1 : (n * 0x1000 + o) / 0x1000 = n := by omega
  have h2 : (n * 0x1000 + o) % 0x1000 = o := by omega
  simp only [areaOf, h1, h2, if_pos (show n * 0x1000 + o < 0x10000 by omega)]

theorem areaOf_dps {k o : Nat} (hk : k < 64) (ho : o < 0x1000) : areaOf (dpsBase k + o) = .page .dps (dpsBase k) o := by
  unfold dpsBase
  have h1 : (0x20000 + k * 0x1000 + o) / 0x1000 * 0x1000 = 0x20000 + k * 0x1000 := by omega
  have h2 : (0x20000 + k * 0x1000 + o) % 0x1000 = o := by omega
  simp only [areaOf, h1, h2]
  rw [if_neg (by omega), if_neg (by omega), if_pos (by omega)]

/-- A page of a cluster's region (R30). -/
theorem areaOf_cluster {n j o : Nat} (hn : n < 32) (hj : j < 8) (ho : o < 0x1000) :
    areaOf (clBase n + 0x1000 * j + o) = .page (clusterKind j) (clBase n + 0x1000 * j) o := by
  unfold clBase
  have h1 : (0x800000 + n * 0x40000 + 0x1000 * j + o) / 0x1000 * 0x1000 = 0x800000 + n * 0x40000 + 0x1000 * j := by omega
  have h2 : (0x800000 + n * 0x40000 + 0x1000 * j + o) % 0x1000 = o := by omega
  have h3 : (0x800000 + n * 0x40000 + 0x1000 * j + o) % 0x40000 = 0x1000 * j + o := by omega
  have h4 : (0x1000 * j + o) / 0x1000 = j := by omega
  simp only [areaOf, h1, h2, h3, h4]
  rw [if_neg (by omega), if_neg (by omega), if_neg (by omega), if_neg (by omega), if_neg (by omega), if_pos (by omega), if_pos (by omega)]

theorem areaOf_ctx {c o : Nat} (hc : c < 1024) (ho : o < 0x400) : areaOf (ctxBase c + o) = .page .ctx (ctxBase c) o := by
  unfold ctxBase clBase
  have h1 : (0x800000 + c / 32 * 0x40000 + 0x10000 + c % 32 * 0x400 + o) / 0x400 * 0x400 = 0x800000 + c / 32 * 0x40000 + 0x10000 + c % 32 * 0x400 := by omega
  have h2 : (0x800000 + c / 32 * 0x40000 + 0x10000 + c % 32 * 0x400 + o) % 0x400 = o := by omega
  have h3 : (0x800000 + c / 32 * 0x40000 + 0x10000 + c % 32 * 0x400 + o) % 0x40000 = 0x10000 + c % 32 * 0x400 + o := by omega
  simp only [areaOf, h1, h2, h3]
  rw [if_neg (by omega), if_neg (by omega), if_neg (by omega), if_neg (by omega), if_neg (by omega), if_pos (by omega), if_neg (by omega), if_pos (by omega)]

theorem areaOf_pin {g o : Nat} (hg : g < 1024) (ho : o < 0x1000) : areaOf (pinBase g + o) = .page .pin (pinBase g) o := by
  unfold pinBase clBase
  have h1 : (0x800000 + g / 32 * 0x40000 + 0x20000 + g % 32 * 0x1000 + o) / 0x1000 * 0x1000 = 0x800000 + g / 32 * 0x40000 + 0x20000 + g % 32 * 0x1000 := by omega
  have h2 : (0x800000 + g / 32 * 0x40000 + 0x20000 + g % 32 * 0x1000 + o) % 0x1000 = o := by omega
  have h3 : (0x800000 + g / 32 * 0x40000 + 0x20000 + g % 32 * 0x1000 + o) % 0x40000 = 0x20000 + g % 32 * 0x1000 + o := by omega
  simp only [areaOf, h1, h2, h3]
  rw [if_neg (by omega), if_neg (by omega), if_neg (by omega), if_neg (by omega), if_neg (by omega), if_pos (by omega), if_neg (by omega),
    if_neg (by omega), if_pos (by omega)]

/-! ### The numbers of a page -/

theorem pinOf_pinBase {g : Nat} (hg : g < 1024) : pinOf (pinBase g) = g := by unfold pinOf pinBase clBase; omega

theorem dpsOf_dpsBase (k : Nat) : dpsOf (dpsBase k) = k := by unfold dpsOf dpsBase; omega

theorem ctx_of_ctxBase {c : Nat} (hc : c < 1024) : 32 * ((ctxBase c - 0x800000) / 0x40000) + ctxBase c % 0x40000 / 0x400 % 32 = c := by
  unfold ctxBase clBase; omega

theorem pageCluster_ucs (n : Nat) : pageCluster .ucs (ucsBase n) = some n := by
  unfold pageCluster ucsBase clBase
  simp only [Option.some.injEq]
  omega

theorem pageCluster_patc (n : Nat) : pageCluster .patc (patcBase n) = some n := by
  unfold pageCluster patcBase clBase
  simp only [Option.some.injEq]
  omega

theorem pageCluster_acq (n : Nat) : pageCluster .acq (acqBase n) = some n := by
  unfold pageCluster acqBase clBase
  simp only [Option.some.injEq]
  omega

theorem pageCluster_wfg (n : Nat) : pageCluster .wfg (wfgBase n) = some n := by
  unfold pageCluster wfgBase clBase
  simp only [Option.some.injEq]
  omega

theorem pageCluster_calc (n : Nat) : pageCluster .calc (calcBase n) = some n := by
  unfold pageCluster calcBase clBase
  simp only [Option.some.injEq]
  omega

theorem pageCluster_pmcc (n : Nat) : pageCluster .pmcc (pmccBase n) = some n := by
  unfold pageCluster pmccBase clBase
  simp only [Option.some.injEq]
  omega

theorem pageCluster_dps (k : Nat) : pageCluster .dps (dpsBase k) = some (k / 2) := by
  have : (dpsBase k - 0x20000) / 0x1000 = k := by unfold dpsBase; omega
  exact congrArg (fun x => some (x / 2)) this

theorem pageCluster_pin {g : Nat} (hg : g < 1024) : pageCluster .pin (pinBase g) = some (g / 32) := by
  have : (pinBase g - 0x800000) / 0x40000 = g / 32 := by unfold pinBase clBase; omega
  unfold pageCluster
  rw [this]

end Sys2Proof.Machine
end

