-- ==== Sys2Proof/Laws/Host.lean ====
section
/-! SUPPORT. A host write that reaches its register is one write of that register: what remains to show of a command that is such a write is what
the register's own rule does. -/

namespace Sys2Proof.Machine

variable (d : Dev)

/-! ### What the ports add -/

/-- The block as an access through `p` finds it: on the MSP, no error is noted for the word yet (R455). -/
theorem Dev.clean_pcie : d.clean .pcie = d := rfl

theorem Dev.clean_msp : d.clean .msp = { d with msp := { d.msp with accErr := false } } := rfl

@[simp] theorem Dev.clean_regs (p : HPort) : (d.clean p).regs = d.regs := by cases p <;> rfl
@[simp] theorem Dev.clean_word (p : HPort) (a : Nat) : (d.clean p).word a = d.word a := by cases p <;> rfl
@[simp] theorem Dev.clean_get (p : HPort) (b : Nat) (f : Fld) : (d.clean p).get b f = d.get b f := by cases p <;> rfl
@[simp] theorem Dev.clean_bit (p : HPort) (b : Nat) (f : Fld) : (d.clean p).bit b f = d.bit b f := by cases p <;> rfl
@[simp] theorem Dev.clean_present (p : HPort) (n : Nat) : (d.clean p).present n = d.present n := by cases p <;> rfl
@[simp] theorem Dev.clean_setWord (p : HPort) (a v : Nat) : (d.clean p).setWord a v = (d.setWord a v).clean p := by cases p <;> rfl

theorem Dev.clean_put (p : HPort) (b : Nat) (f : Fld) (v : Nat) : (d.clean p).put b f v = (d.put b f v).clean p := by
  unfold Dev.put
  split <;> simp

theorem Dev.clean_clean (p : HPort) : (d.clean p).clean p = d.clean p := by cases p <;> rfl

/-- The end of an access: on the MSP the error noted for the word, if any, is counted (R455). -/
def Dev.leave (d : Dev) (p : HPort) : Dev := match p with | .pcie => d | .msp => d.mspErr d.msp.accErr

theorem Dev.leave_clean (p : HPort) : (d.clean p).leave p = d.clean p := by cases p <;> rfl

theorem Dev.leave_word {a : Nat} (p : HPort) (h : a ≠ mspB + 0x58) : (d.leave p).word a = d.word a := by
  cases p with
  | pcie => rfl
  | msp =>
    cases he : d.msp.accErr
    · simp only [Dev.leave, Dev.mspErr, he]; rfl
    · simp only [Dev.leave, Dev.mspErr, he, if_true]
      exact Dev.put_word_ne' (f := .MSP_ACC_ERR_CNT_COUNT) { d with msp := { d.msp with accErr := false } } _ (by decide) h

theorem Dev.leave_get {b : Nat} {f : Fld} (p : HPort) (h : b + f.off ≠ mspB + 0x58 ∧ b + f.off + 4 ≠ mspB + 0x58) : (d.leave p).get b f = d.get b f := by
  unfold Dev.get
  rw [Dev.leave_word d p h.1, Dev.leave_word d p h.2]

/-- What neither a register word nor the MSP carries, the end of an access leaves. -/
theorem Dev.leave_keeps {β : Type} {P : Dev → β} (hw : ∀ (d : Dev) (a v : Nat), P (d.setWord a v) = P d) (hm : ∀ (d : Dev) (m : Msp), P { d with msp := m } = P d)
    (p : HPort) : P (d.leave p) = P d := by
  cases p with
  | pcie => rfl
  | msp =>
    cases he : d.msp.accErr
    · simp only [Dev.leave, Dev.mspErr, he]; exact hm ..
    · simp only [Dev.leave, Dev.mspErr, he, if_true]
      refine (hm _ _).trans ?_
      unfold Dev.satInc Dev.satAdd
      rw [Dev.put_frame _ P hw]
      exact hm ..

theorem Dev.clean_keeps {β : Type} {P : Dev → β} (hm : ∀ (d : Dev) (m : Msp), P { d with msp := m } = P d) (p : HPort) : P (d.clean p) = P d := by
  cases p with
  | pcie => rfl
  | msp => exact hm ..

/-! ### One write of one register -/

/-- The result of a register write, with the access-error entry of a refused one (R33). -/
def Dev.wrote (r : Dev × Bool) (a : Nat) : Dev := if r.2 then r.1.logErr true .locked a else r.1

theorem Dev.reaches_iff (p : HPort) (a : Nat) : d.reaches p a = true ↔ d.portOpen p a = true ∧ d.pageOpen a = true := by
  unfold Dev.reaches; rw [Bool.and_eq_true]

theorem Dev.clean_pageOpen (p : HPort) (a : Nat) : (d.clean p).pageOpen a = d.pageOpen a := by cases p <;> rfl

/-- What a write meets where the page is open: the register of its row. -/
theorem Dev.hitOf_page {a : Nat} {kind : PageKind} {base off : Nat} {row : RegRow} (h : d.pageOpen a = true) (ha : areaOf a = .page kind base off)
    (hr : rowAt kind base off = some (row, false)) (hw : row.wide = false) (h4 : a % 4 = 0) (wr : Bool) :
    d.hitOf a false wr = .ok (.reg kind base off row false) := by
  simp only [Dev.pageOpen, ha, Bool.and_eq_true, Bool.not_eq_true', Bool.or_eq_true] at h
  obtain ⟨hc, hp⟩ := h
  unfold Dev.hitOf
  rw [hc, ha]
  simp only [Bool.false_eq_true, if_false, h4, ne_eq, not_true_eq_false, false_and, or_self]
  unfold Dev.pageHit
  have hs : ¬ (kind.header ∧ d.bit base .PG_STAT_SELFTEST = true) := by
    rcases hp with hp | hp <;> simp [hp]
  rw [if_neg hs, hr]
  simp [sizeBad, hw]

theorem Dev.gateAccess_open {kind : PageKind} {base off a : Nat} (h : d.pageOpen a = true) (ha : areaOf a = .page kind base off) :
    (if kind.header ∧ 0x40 ≤ off then d.gateAccess base else d) = d := by
  simp only [Dev.pageOpen, ha, Bool.and_eq_true, Bool.not_eq_true', Bool.or_eq_true] at h
  split
  · next hk =>
    rcases h.2 with hp | hp
    · simp [hk.1] at hp
    · rcases hp.2 with h0 | h0
      · have := of_decide_eq_true h0; omega
      · simp [Dev.gateAccess, h0]
  · rfl

/-- Only the ZH64 window looks at what an access carries when it asks whether the access waits. -/
theorem Dev.heldNow_page {kind : PageKind} {base off a : Nat} (w : Bool) (v : Nat) (ha : areaOf a = .page kind base off) : d.heldNow a w v = d.heldNow a := by
  simp only [Dev.heldNow, ha]

/-- A command that writes one 32-bit register, where the access reaches it, is one write of that register. -/
theorem Dev.hostW_reaches {p : HPort} {a v : Nat} {kind : PageKind} {base off : Nat} {row : RegRow} (h : d.reaches p a = true)
    (ha : areaOf a = .page kind base off) (hr : rowAt kind base off = some (row, false)) (hw : row.wide = false) (h4 : a % 4 = 0) :
    d.hostW p a v =
      (Dev.wrote ((d.clean p).regWrite hostFire p false kind base off row (2 ^ 32 - 1) (v % 2 ^ 32)) a).leave p := by
  rw [Dev.reaches_iff] at h
  obtain ⟨hp, ho⟩ := h
  have ho' : (d.clean p).pageOpen a = true := by rw [Dev.clean_pageOpen]; exact ho
  cases p with
  | pcie =>
    simp only [Dev.portOpen, Bool.and_eq_true, Bool.not_eq_true', Bool.or_eq_true] at hp
    obtain ⟨⟨hk, hh⟩, hcap⟩ := hp
    simp only [Dev.hostW, Dev.hostWrite, hk, if_true, Dev.pcieAcc, Dev.heldNow_page d _ _ ha, hh, Bool.false_eq_true, if_false, Dev.writeAcc, Dev.hitOf_page d ho ha hr hw h4,
      Dev.writeReg, Dev.gateAccess_open d ho ha, Dev.leave, Dev.clean, Dev.wrote, fullMask]
    rcases hcap with hcap | hcap
    · simp [Dev.capSlot, hcap]; rfl
    · have : row.txn = 0 := by simpa [txnBitsAt, ha, hr] using hcap
      simp [this]; rfl
  | msp =>
    simp only [Dev.portOpen, Bool.and_eq_true, Bool.not_eq_true', Bool.or_eq_true, bne_iff_ne, ne_eq] at hp
    obtain ⟨⟨hk, hh⟩, hm⟩ := hp
    have hheld : ∀ w v, d.mspHeld a 1 w v = false := by intro w v; simp [Dev.mspHeld, List.range_succ, Dev.heldNow_page d w v ha, hh]
    have hn : ¬ (d.clkState = 3 ∧ mspPage a = false) := by
      rcases hm with hm | hm <;> simp [hm]
    have e : ({ d with msp := { d.msp with accErr := false } } : Dev) = d.clean .msp := rfl
    simp only [Dev.hostW, Dev.hostWrite, hk, if_true, Dev.mspAcc, Option.getD_none, hheld, Dev.mspWrite, if_neg hn, e, Dev.writeAcc, Dev.hitOf_page _ ho' ha hr hw h4,
      Dev.writeReg, Dev.gateAccess_open _ ho' ha, Dev.leave, Dev.wrote, fullMask, reduceCtorEq, false_and, Bool.false_eq_true, if_false]

end Sys2Proof.Machine
end

