-- ==== Sys2Proof/Laws/Row.lean ====
section
/-! SUPPORT. The value a register write presents and stores, bit by bit and field by field (R8). -/

namespace Sys2Proof.Machine

/-! ### Bits -/

theorem andNot_add (x y : Nat) : Nat.land x y + Nat.ldiff x y = x := by
  induction x using Nat.strongRecOn generalizing y with
  | _ x ih =>
    by_cases hx : x = 0
    · subst hx; simp [Nat.ldiff]
    · have h := ih (x / 2) (by omega) (y / 2)
      have h1 : Nat.land x y / 2 = Nat.land (x / 2) (y / 2) := Nat.and_div_two
      have h2 : Nat.ldiff x y / 2 = Nat.ldiff (x / 2) (y / 2) := by
        apply Nat.eq_of_testBit_eq
        intro i
        rw [Nat.testBit_div_two, Nat.testBit_ldiff, Nat.testBit_ldiff, Nat.testBit_div_two, Nat.testBit_div_two]
      have h3 : Nat.land x y % 2 + Nat.ldiff x y % 2 = x % 2 := by
        have e : ∀ n : Nat, n % 2 = (n.testBit 0).toNat := fun n => by simp [Nat.testBit_zero]; rcases Nat.mod_two_eq_zero_or_one n with h | h <;> simp [h]
        have l : (Nat.land x y).testBit 0 = (x.testBit 0 && y.testBit 0) := Nat.testBit_and x y 0
        rw [e (Nat.land x y), e (Nat.ldiff x y), e x, l, Nat.testBit_ldiff]
        cases x.testBit 0 <;> cases y.testBit 0 <;> rfl
      omega

theorem testBit_andNot (x y i : Nat) : (andNot x y).testBit i = (x.testBit i && !y.testBit i) := by
  have h : andNot x y = Nat.ldiff x y := by
    have := andNot_add x y
    unfold andNot
    omega
  rw [h, Nat.testBit_ldiff]

theorem testBit_land (x y i : Nat) : (Nat.land x y).testBit i = (x.testBit i && y.testBit i) := Nat.testBit_and x y i
theorem testBit_lor (x y i : Nat) : (Nat.lor x y).testBit i = (x.testBit i || y.testBit i) := Nat.testBit_or x y i

theorem RegRow.store_testBit (r : RegRow) (old v i : Nat) :
    (r.store old v).testBit i = ((((old.testBit i && !r.rw.testBit i) || (v.testBit i && r.rw.testBit i)) && !(v.testBit i && r.w1c.testBit i))
      || (v.testBit i && r.w1s.testBit i)) := by
  unfold RegRow.store
  simp only [testBit_lor, testBit_andNot, testBit_land]

theorem RegRow.acc_testBit (r : RegRow) (i : Nat) : r.acc.testBit i = (r.rw.testBit i || r.w1c.testBit i || (r.w1s.testBit i || r.wo.testBit i)) := by
  unfold RegRow.acc
  simp only [testBit_lor]

theorem RegRow.present_testBit (r : RegRow) {old v i : Nat} (hi : i < 32) :
    (r.present old (2 ^ 32 - 1) v).testBit i = (v.testBit i && r.acc.testBit i) := by
  unfold RegRow.present
  simp only [testBit_lor, testBit_andNot, testBit_land, Nat.testBit_two_pow_sub_one, hi, decide_true, Bool.not_true, Bool.and_false, Bool.false_or, Bool.and_true]

theorem ones_testBit {m lo n i : Nat} (h : m / 2 ^ lo % 2 ^ n = 2 ^ n - 1) (h1 : lo ≤ i) (h2 : i < lo + n) : m.testBit i = true := by
  have : (m / 2 ^ lo % 2 ^ n).testBit (i - lo) = true := by rw [h, Nat.testBit_two_pow_sub_one]; simp; omega
  rw [Nat.testBit_mod_two_pow, Nat.testBit_div_two_pow] at this
  simp only [Bool.and_eq_true] at this
  rw [← this.2]; congr 1; omega

theorem zero_testBit {m lo n i : Nat} (h : m / 2 ^ lo % 2 ^ n = 0) (h1 : lo ≤ i) (h2 : i < lo + n) : m.testBit i = false := by
  have : (m / 2 ^ lo % 2 ^ n).testBit (i - lo) = false := by rw [h]; simp
  rw [Nat.testBit_mod_two_pow, Nat.testBit_div_two_pow] at this
  have e : i - lo + lo = i := by omega
  simpa [show i - lo < n by omega, e] using this

/-- The field that a row's accessible bits cover, in the value a write presents. -/
theorem RegRow.present_field (r : RegRow) {old v lo n : Nat} (hn : lo + n ≤ 32) (h : r.acc / 2 ^ lo % 2 ^ n = 2 ^ n - 1) :
    r.present old (2 ^ 32 - 1) v / 2 ^ lo % 2 ^ n = v / 2 ^ lo % 2 ^ n :=
  field_eq_of_testBit (fun i h1 h2 => by rw [RegRow.present_testBit r (by omega), ones_testBit h h1 h2, Bool.and_true])

/-- A read-write field takes the value that is presented. -/
theorem RegRow.store_field (r : RegRow) {old v lo n : Nat} (h : r.rw / 2 ^ lo % 2 ^ n = 2 ^ n - 1) (hc : r.w1c / 2 ^ lo % 2 ^ n = 0) (hs : r.w1s / 2 ^ lo % 2 ^ n = 0) :
    r.store old v / 2 ^ lo % 2 ^ n = v / 2 ^ lo % 2 ^ n :=
  field_eq_of_testBit (fun i h1 h2 => by
    rw [RegRow.store_testBit, ones_testBit h h1 h2, zero_testBit hc h1 h2, zero_testBit hs h1 h2]; simp)

/-- A read-only field stays. -/
theorem RegRow.store_ro (r : RegRow) {old v lo n : Nat} (h : r.rw / 2 ^ lo % 2 ^ n = 0) (hc : r.w1c / 2 ^ lo % 2 ^ n = 0) (hs : r.w1s / 2 ^ lo % 2 ^ n = 0) :
    r.store old v / 2 ^ lo % 2 ^ n = old / 2 ^ lo % 2 ^ n :=
  field_eq_of_testBit (fun i h1 h2 => by
    rw [RegRow.store_testBit, zero_testBit h h1 h2, zero_testBit hc h1 h2, zero_testBit hs h1 h2]; simp)

theorem land_lt {x y n : Nat} (h : x < 2 ^ n) : Nat.land x y < 2 ^ n := Nat.lt_of_le_of_lt Nat.and_le_left h
theorem andNot_le (x y : Nat) : andNot x y ≤ x := Nat.sub_le _ _
theorem lor_lt {x y n : Nat} (hx : x < 2 ^ n) (hy : y < 2 ^ n) : Nat.lor x y < 2 ^ n := Nat.or_lt_two_pow hx hy

theorem RegRow.store_lt (r : RegRow) {old v n : Nat} (ho : old < 2 ^ n) (hv : v < 2 ^ n) : r.store old v < 2 ^ n := by
  unfold RegRow.store
  exact lor_lt (Nat.lt_of_le_of_lt (andNot_le _ _) (lor_lt (Nat.lt_of_le_of_lt (andNot_le _ _) ho) (land_lt hv))) (land_lt hv)

theorem RegRow.present_lt (r : RegRow) {old v : Nat} (ho : old < 2 ^ 32) (hv : v < 2 ^ 32) : r.present old (2 ^ 32 - 1) v < 2 ^ 32 := by
  unfold RegRow.present
  exact lor_lt (Nat.lt_of_le_of_lt (andNot_le _ _) (land_lt ho)) (land_lt (land_lt hv))

/-! ### A host write as the rule of its register -/

/-- The value a host write presents at a register. -/
def Dev.shown (d : Dev) (row : RegRow) (a v : Nat) : Nat := row.present (d.word a) (2 ^ 32 - 1) (v % 2 ^ 32)

/-- The block with the value stored under the access codes. -/
def Dev.stored (d : Dev) (row : RegRow) (a v : Nat) : Dev := d.setWord a (row.store (d.word a) (d.shown row a v))

/-- A host write that reaches a block register is that register's rule. -/
theorem Dev.hostW_hook {p : HPort} {a v : Nat} {kind : PageKind} {base off : Nat} {row : RegRow} (d : Dev) (h : d.reaches p a = true)
    (ha : areaOf a = .page kind base off) (hb : base + off = a) (hr : rowAt kind base off = some (row, false)) (hw : row.wide = false) (h4 : a % 4 = 0)
    (hm : Nat.land (2 ^ 32 - 1) row.acc ≠ 0) (ho : ¬ (kind.header ∧ off < 0x40)) :
    d.hostW p a v = (Dev.wrote ((d.clean p).hook ((d.clean p).stored row a v) hostFire p false kind base off (d.shown row a v)) a).leave p := by
  rw [Dev.hostW_reaches d h ha hr hw h4]
  subst hb
  unfold Dev.regWrite
  rw [if_neg hm, if_neg ho]
  unfold Dev.stored Dev.shown Dev.setReg Dev.regVal
  simp only [hw, Bool.false_eq_true, if_false, Dev.clean_word]

/-- A host write of the page header is the header's rule. -/
theorem Dev.hostW_hdr {p : HPort} {a v : Nat} {kind : PageKind} {base off : Nat} {row : RegRow} (d : Dev) (h : d.reaches p a = true)
    (ha : areaOf a = .page kind base off) (hb : base + off = a) (hr : rowAt kind base off = some (row, false)) (hw : row.wide = false) (h4 : a % 4 = 0)
    (hm : Nat.land (2 ^ 32 - 1) row.acc ≠ 0) (ho : kind.header ∧ off < 0x40) :
    d.hostW p a v = (Dev.wrote ((d.clean p).hookHdr ((d.clean p).stored row a v) p kind base off (d.shown row a v)) a).leave p := by
  rw [Dev.hostW_reaches d h ha hr hw h4]
  subst hb
  unfold Dev.regWrite
  rw [if_neg hm, if_pos ho]
  unfold Dev.stored Dev.shown Dev.setReg Dev.regVal
  simp only [hw, Bool.false_eq_true, if_false, Dev.clean_word]

/-- A field that the row's accessible bits cover, as the write presents it. -/
theorem Dev.shown_field (d : Dev) (row : RegRow) {a v lo n : Nat} (hn : lo + n ≤ 32) (h : row.acc / 2 ^ lo % 2 ^ n = 2 ^ n - 1) :
    d.shown row a v / 2 ^ lo % 2 ^ n = v / 2 ^ lo % 2 ^ n := by
  unfold Dev.shown
  rw [RegRow.present_field row hn h]
  apply field_eq_of_testBit
  intro i h1 h2
  rw [Nat.testBit_mod_two_pow]
  simp [show i < 32 by omega]

theorem Dev.shown_bit (d : Dev) (row : RegRow) {a v i : Nat} (hn : i < 32) (h : row.acc.testBit i = true) : bitOf (d.shown row a v) i = bitOf v i := by
  rw [bitOf_eq_testBit, bitOf_eq_testBit]
  unfold Dev.shown
  rw [RegRow.present_testBit row hn, h, Bool.and_true, Nat.testBit_mod_two_pow]
  simp [hn]

theorem Dev.shown_lt (d : Dev) (row : RegRow) (a v : Nat) : d.shown row a v < 2 ^ 32 := RegRow.present_lt row (Dev.word_lt ..) (Nat.mod_lt _ (by decide))

/-- A read-write field of the stored register reads what was written. -/
theorem Dev.stored_get (d : Dev) {b : Nat} {f : Fld} {row : RegRow} (v : Nat) (hf : f.narrow) (hr : row.rw / 2 ^ f.lo % 2 ^ f.n = 2 ^ f.n - 1)
    (hc : row.w1c / 2 ^ f.lo % 2 ^ f.n = 0) (hs : row.w1s / 2 ^ f.lo % 2 ^ f.n = 0) :
    (d.stored row (b + f.off) v).get b f = v / 2 ^ f.lo % 2 ^ f.n := by
  have ha : row.acc / 2 ^ f.lo % 2 ^ f.n = 2 ^ f.n - 1 := by
    apply Nat.eq_of_testBit_eq
    intro i
    rw [Nat.testBit_mod_two_pow, Nat.testBit_div_two_pow, Nat.testBit_two_pow_sub_one]
    by_cases hi : i < f.n
    · simp only [hi, decide_true, Bool.true_and]
      rw [RegRow.acc_testBit, ones_testBit hr (by omega) (by omega)]; simp
    · simp [hi]
  unfold Dev.stored
  rw [Dev.get_narrow _ hf, Dev.setWord_word, Nat.mod_eq_of_lt (RegRow.store_lt _ (Dev.word_lt ..) (Dev.shown_lt ..)), RegRow.store_field _ hr hc hs, Dev.shown_field _ _ hf ha]

/-- A read-only field of the stored register stays. -/
theorem Dev.stored_ro (d : Dev) {b : Nat} {f : Fld} {row : RegRow} (v : Nat) (hf : f.narrow) (hr : row.rw / 2 ^ f.lo % 2 ^ f.n = 0)
    (hc : row.w1c / 2 ^ f.lo % 2 ^ f.n = 0) (hs : row.w1s / 2 ^ f.lo % 2 ^ f.n = 0) : (d.stored row (b + f.off) v).get b f = d.get b f := by
  unfold Dev.stored
  rw [Dev.get_narrow _ hf, Dev.get_narrow _ hf, Dev.setWord_word, Nat.mod_eq_of_lt (RegRow.store_lt _ (Dev.word_lt ..) (Dev.shown_lt ..)), RegRow.store_ro _ hr hc hs]

theorem Dev.stored_word_ne (d : Dev) {row : RegRow} {a b v : Nat} (h : b ≠ a) : (d.stored row a v).word b = d.word b := Dev.setWord_word_ne d _ h

/-! ### What the rules of the header do -/

theorem Dev.bitN_testBit (d : Dev) (b : Nat) (f : Fld) (i : Nat) : d.bitN b f i = (d.get b f).testBit i := bitOf_eq_testBit _ _

/-- An interrupt bit is set by its event. -/
theorem Dev.irq_sets (d : Dev) (kind : PageKind) (base : Nat) {i : Nat} (hi : i < 32) : (d.irq kind base i).bitN base .PG_IRQ_STAT_BITS i = true := by
  have hm : ∀ (d : Dev) v, (d.msix v).bitN base .PG_IRQ_STAT_BITS i = d.bitN base .PG_IRQ_STAT_BITS i := fun d v => by
    unfold Dev.bitN
    rw [Dev.get_of_word (by decide) (Dev.msix_word d v _)]
  unfold Dev.irq
  split
  · assumption
  · dsimp only
    split
    · rw [hm]; exact Dev.setBitN_bitN d true (by decide) hi
    · exact Dev.setBitN_bitN d true (by decide) hi

/-- An interrupt bit once set stays through other events. -/
theorem Dev.irq_stays (d : Dev) (kind : PageKind) (base i : Nat) {j : Nat} (hi : i < 32) (h : d.bitN base .PG_IRQ_STAT_BITS j = true) :
    (d.irq kind base i).bitN base .PG_IRQ_STAT_BITS j = true := by
  by_cases hj : j = i
  · subst hj; exact Dev.irq_sets d kind base hi
  · have hm : ∀ (d : Dev) v, (d.msix v).bitN base .PG_IRQ_STAT_BITS j = d.bitN base .PG_IRQ_STAT_BITS j := fun d v => by
      unfold Dev.bitN
      rw [Dev.get_of_word (by decide) (Dev.msix_word d v _)]
    unfold Dev.irq
    split
    · exact h
    · dsimp only
      split
      · rw [hm, Dev.setBitN_bitN_ne d true (by decide) hi hj]; exact h
      · rw [Dev.setBitN_bitN_ne d true (by decide) hi hj]; exact h

/-- Events set their interrupt bits, and the bits that stand stay. -/
theorem Dev.forAll_irq (kind : PageKind) (base : Nat) {j : Nat} : ∀ (l : List Nat) (d : Dev), (∀ i ∈ l, i < 32) → (j ∈ l ∨ d.bitN base .PG_IRQ_STAT_BITS j = true) →
    (d.forAll l (fun d i => d.irq kind base i)).bitN base .PG_IRQ_STAT_BITS j = true
  | [], d, _, h => by
    rcases h with h | h
    · simp at h
    · exact h
  | x :: xs, d, hl, h => by
    show ((d.irq kind base x).forAll xs _).bitN _ _ _ = true
    refine Dev.forAll_irq kind base xs _ (fun i hi => hl i (List.mem_cons_of_mem _ hi)) ?_
    have hx := hl x List.mem_cons_self
    rcases h with h | h
    · rcases List.mem_cons.mp h with h | h
      · subst h; exact .inr (Dev.irq_sets d kind base hx)
      · exact .inl h
    · exact .inr (Dev.irq_stays d kind base x hx h)

/-- Words copied one after another read as copied. -/
theorem foldl_set_get (base : Nat) (f : Nat → Word) {o : Nat} : ∀ (l : List Nat) (t : Tab Word), (o ∈ l ∨ Tab.get (fun _ => 0) t (base + o) = f o) →
    Tab.get (fun _ => 0) (l.foldl (fun t o => Tab.set (fun _ => 0) t (base + o) (f o)) t) (base + o) = f o
  | [], t, h => by simpa using h
  | x :: xs, t, h => by
    rw [List.foldl_cons]
    refine foldl_set_get base f xs _ ?_
    by_cases hx : o = x
    · subst hx; exact .inr (Tab.get_set_same ..)
    · rcases h with h | h
      · exact .inl (by simpa [hx] using h)
      · exact .inr (by rw [Tab.get_set_ne _ _ _ (by omega)]; exact h)

/-- A row of the header is the page's row. -/
theorem hdrRow {kind : PageKind} {base off : Nat} {r : RegRow × Bool} (hk : kind.header = true) (ho : off < 0x40) (h : findRow rowsHDR off = some r) :
    rowAt kind base off = some r := by
  unfold rowAt; rw [if_pos ⟨hk, ho⟩, h]

/-- A register all of whose bits are accessible is presented whole. -/
theorem Dev.shown_full (d : Dev) (row : RegRow) (a v : Nat) (h : row.acc = 2 ^ 32 - 1) (hv : v < 2 ^ 32) : d.shown row a v = v := by
  apply Nat.eq_of_testBit_eq
  intro i
  by_cases hi : i < 32
  · rw [← bitOf_eq_testBit, ← bitOf_eq_testBit, Dev.shown_bit d row hi (by rw [h, Nat.testBit_two_pow_sub_one]; simpa using hi)]
  · rw [Nat.testBit_lt_two_pow (Nat.lt_of_lt_of_le (Dev.shown_lt ..) (Nat.pow_le_pow_right (by decide) (by omega))),
      Nat.testBit_lt_two_pow (Nat.lt_of_lt_of_le hv (Nat.pow_le_pow_right (by decide) (by omega)))]

/-- The handshake of a gate ends with the clock stopped or the gate deferred. -/
theorem Dev.gateTry_ends (d : Dev) {base : Nat} (hb : base % 0x1000 = 0) (idle : Bool) :
    (d.gateTry base idle).bit base .PG_STAT_GATED = true ∨ (d.gateTry base idle).bit base .PG_STAT_GATE_DEFER = true := by
  unfold Dev.gateTry
  split
  · exact .inr (Dev.setb_bit d true (by decide) (by decide))
  · split
    · refine .inl ?_
      rw [Dev.setb_bit_apart _ _ (by decide)]
      exact Dev.setb_bit d true (by decide) (by decide)
    · split
      · exact .inr (by assumption)
      · refine .inr ?_
        rw [Dev.bit_of_word (by decide) (Dev.irq_word _ .clk clkB 2 (by unfold clkB; show base + 0xC ≠ _; omega))]
        unfold Dev.satInc Dev.satAdd
        rw [Dev.put_bit_ne _ _ (by decide) (by decide) (by unfold clkB; show base + 0xC ≠ _ + 0x54; omega)]
        exact Dev.setb_bit d true (by decide) (by decide)

/-- The handshake leaves PG_CTRL of the page, and of PG_STAT all but its two gate bits. -/
theorem Dev.gateTry_get (d : Dev) {base : Nat} (hb : base % 0x1000 = 0) (idle : Bool) {f : Fld} (hf : f.narrow)
    (h : f.off = 8 ∨ Fld.PG_STAT_BUSY = f ∨ Fld.PG_STAT_SELFTEST = f) : (d.gateTry base idle).get base f = d.get base f := by
  have h1 : Fld.PG_STAT_GATED.apart f = true ∧ Fld.PG_STAT_GATE_DEFER.apart f = true := by
    rcases h with h | h | h
    · have hn : f.lo + f.n ≤ 32 := hf
      simp [Fld.apart, h, hn, Fld.PG_STAT_GATED, Fld.PG_STAT_GATE_DEFER]
    · subst h; decide
    · subst h; decide
  have ho : f.off = 8 ∨ f.off = 0xC := by
    rcases h with h | h | h
    · exact .inl h
    · subst h; exact .inr rfl
    · subst h; exact .inr rfl
  unfold Dev.gateTry
  split
  · exact Dev.setb_get_apart d _ h1.2
  · split
    · rw [Dev.setb_get_apart _ _ h1.2, Dev.setb_get_apart _ _ h1.1]
    · split
      · rfl
      · rw [Dev.get_of_word hf (Dev.irq_word _ .clk clkB 2 (by unfold clkB; omega))]
        unfold Dev.satInc Dev.satAdd
        rw [Dev.put_get_ne _ _ (by decide) hf (by unfold clkB; show base + f.off ≠ _ + 0x54; omega)]
        exact Dev.setb_get_apart d _ h1.2

end Sys2Proof.Machine
end

