-- ==== Sys2Proof/Laws/Run.lean ====
section
/-! SUPPORT. What it takes to show that a command runs: the block after it meets the claim. -/

namespace Sys2Proof.Machine

/-- A command that changes neither the queue nor the pattern store runs, with what its change of the block gives. -/
theorem Runs.of_upd {c : Instr} {s : State} {f : Tab Byte → Dev → Dev} {P : Dev → Prop} (h : exec c s = upd s f) (hp : P (f s.store s.d)) : Runs c s P :=
  ⟨_, h, rfl, rfl, hp⟩

/-- What a run gives it gives for any weaker claim. -/
theorem Runs.mono {c : Instr} {s : State} {P Q : Dev → Prop} (h : Runs c s P) (hpq : ∀ d, P d → Q d) : Runs c s Q := by
  obtain ⟨t, h1, h2, h3, h4⟩ := h
  exact ⟨t, h1, h2, h3, hpq _ h4⟩

end Sys2Proof.Machine
end

