-- ==== Sys2Proof/WellFormed.lean ====
section
/-! DEFINITION. Well-formed commands: what the operands of a command must satisfy beyond their types for its sender to have made it. The machine
gives every command a meaning, well-formed or not. -/

namespace Sys2Proof

/-- The value of a register access fits its size (R32). -/
def fitsSize (wide : Bool) (v : BitVec 64) : Bool := wide || decide (v.toNat < 2 ^ 32)

/-- The access size exists on the port: MSP words are 32 bits (R451). -/
def sizeOnPort (p : HPort) (wide : Bool) : Bool := p == .pcie || !wide

/-- The request carries more than 32 bits. -/
def Tlp.wide : Tlp → Bool
  | .bar0 wide | .enables wide | .bar4 wide => wide
  | .long _ => true
  | .cfg | .cap => false

/-- The MSP has accesses of one word alone; a long request is longer than two double words (R32). -/
def tlpOnPort (p : HPort) : Tlp → Bool
  | .bar0 wide => sizeOnPort p wide
  | .long n => p == .pcie && decide (2 < n.val)
  | .enables _ | .bar4 _ | .cfg | .cap => p == .pcie

/-- OP of an MSP command word (R452). -/
def mspOp (cmd : Word) : Nat := cmd.toNat / 2 ^ 28

/-- COUNT of an MSP command word, as words (R452). -/
def mspWords (cmd : Word) : Nat := cmd.toNat / 2 ^ 24 % 16 + 1

/-- KIND of a sync-link message (R342). -/
def msgKind (w : BitVec 128) : Nat := w.toNat / 2 ^ 124

/-- A command is well-formed. -/
def Instr.wf : Instr → Bool
  | .registerWrite p _ x v => tlpOnPort p x && fitsSize x.wide v
  | .registerRead p _ x => tlpOnPort p x
  | .txnStageWrite _ wide v => fitsSize wide v
  | .calApertureWrite p _ wide v => fitsSize wide v && sizeOnPort p wide
  | .resMbPop p _ wide => sizeOnPort p wide
  | .resMbPeek p _ wide => sizeOnPort p wide
  | .rasFramePop p wide => sizeOnPort p wide
  | .rasRelPop p wide => sizeOnPort p wide
  | .bar2Write _ bs => decide (bs.length ≤ 512)
  | .mspNop cmd _ => mspOp cmd == 0
  | .mspRead cmd _ => mspOp cmd == 1
  | .mspWrite cmd ws _ => mspOp cmd == 2 && ws.length == mspWords cmd
  | .mspWake cmd _ => mspOp cmd == 3
  | .idle _ w => msgKind w == 0
  | .ack _ w => msgKind w == 1
  | .nak _ w => msgKind w == 2
  | .delayReq _ w _ => msgKind w == 3
  | .delayRsp _ w => msgKind w == 4
  | .tick _ w => msgKind w == 5
  | .trig _ w => msgKind w == 6
  | .touchdown _ w => msgKind w == 7
  | .barArrive _ w => msgKind w == 8
  | .barRelease _ w => msgKind w == 9
  | .enumSize _ w => msgKind w == 10
  | .enumAssign _ w => msgKind w == 11
  | .train _ w => msgKind w == 12
  | _ => true

end Sys2Proof
end

