-- ==== Sys2Proof/Tests/Slice0.lean ====
section
/-! SUPPORT. Tests: ill-formed commands are refused by WellFormed; worked values of the spec; and for each statement with hypotheses, states and
operands that meet them. -/

set_option linter.unusedVariables false
set_option maxRecDepth 8000

namespace Sys2Proof.Tests

set_option Elab.async false

open Sys2Proof Sys2Proof.Machine

/-- A block in which host accesses are served: the link up, the clocks in NORMAL. -/
def served (f : Dev → Dev := id) : State :=
  { State.reset with d := f (((({ State.reset.d with hif := { served := true } }.setb hifB .HIF_LINK_UP true).put clkB .PG_STAT_STATE 2).setb clkB .CLK_STAT_MTB_LOCK true)) }

/-- The state after reset, changed. -/
def rst (f : Dev → Dev := id) : State := { State.reset with d := f State.reset.d }

/-- The kind of page at an address. -/
def kindAt (a : Nat) : PageKind := match areaOf a with | .page kind _ _ => kind | _ => .glb

/-- The base of the page at an address. -/
def baseAt (a : Nat) : Nat := match areaOf a with | .page _ base _ => base | _ => 0

/-- The offset of an address in its page. -/
def offAt (a : Nat) : Nat := match areaOf a with | .page _ _ off => off | _ => 0

/-- The row of a register at an address. -/
def rowOf (a : Nat) : RegRow :=
  match rowAt (kindAt a) (baseAt a) (offAt a) with | some (r, _) => r | none => ⟨0, 0, 0, 0, 0, false, 0, 0, 0, 0, 0, 0, 0⟩


/-! ### Ill-formed commands -/

/-- A 32-bit access carries 32 bits, and MSP words are 32 bits (R32, R451). -/
theorem test_wf_size : (Instr.registerWrite .pcie 0x1000 (.bar0 false) 0x100000000).wf = false ∧ (Instr.registerWrite .msp 0x1000 (.bar0 true) 0).wf = false ∧
    (Instr.registerRead .msp 0x1000 (.bar0 true)).wf = false ∧ (Instr.registerRead .msp 0 .cfg).wf = false ∧ (Instr.registerRead .pcie 0x1000 (.long 2)).wf = false ∧ (Instr.txnStageWrite 0x1000 false 0x100000000).wf = false ∧
    (Instr.calApertureWrite .pcie 0x100000 false 0x100000000).wf = false ∧ (Instr.calApertureWrite .msp 0x100000 true 0).wf = false ∧
    (Instr.resMbPop .msp 0 true).wf = false ∧ (Instr.resMbPeek .msp 0 true).wf = false ∧ (Instr.rasFramePop .msp true).wf = false ∧
    (Instr.rasRelPop .msp true).wf = false := by decide

/-- A transfer of the pattern store carries bytes, at most 512 in one write. -/
theorem test_wf_bar2 : (Instr.bar2Write 0 (List.replicate 513 0)).wf = false ∧ (Instr.bar2Write 0 []).wf = true ∧ (Instr.bar2Read 0 { len := 0 }).wf = true := by decide

/-- A write of 513 bytes is not one transfer. -/
theorem test_wf_bar2_long : (Instr.bar2Write 0 (List.replicate 513 0)).wf = false := by decide +kernel

/-- The OP of a frame is its row's (R452), and a WRITE carries the words its COUNT says. -/
theorem test_wf_msp : (Instr.mspNop 0x10000000 false).wf = false ∧ (Instr.mspRead 0 (false, [])).wf = false ∧ (Instr.mspWrite 0x10000000 [0] false).wf = false ∧
    (Instr.mspWrite 0x21000000 [0] false).wf = false ∧ (Instr.mspWake 0x20000000 false).wf = false := by decide

/-- The KIND of a link message is its row's (R342). -/
theorem test_wf_link : (Instr.idle 0 (1 <<< 124)).wf = false ∧ (Instr.ack 0 0).wf = false ∧ (Instr.nak 0 0).wf = false ∧ (Instr.delayReq 0 0 0).wf = false ∧
    (Instr.delayRsp 0 0).wf = false ∧ (Instr.tick 0 0).wf = false ∧ (Instr.trig 0 0).wf = false ∧ (Instr.touchdown 0 0).wf = false ∧ (Instr.barArrive 0 0).wf = false ∧
    (Instr.barRelease 0 0).wf = false ∧ (Instr.enumSize 0 0).wf = false ∧ (Instr.enumAssign 0 0).wf = false ∧ (Instr.train 0 0).wf = false := by decide

/-- Well-formed commands pass. -/
theorem test_wf_good : (Instr.registerWrite .msp 0x1000 (.bar0 false) 5).wf = true ∧ (Instr.mspWrite 0x21000000 [0, 0] false).wf = true ∧ (Instr.ack 0 (1 <<< 124)).wf = true ∧
    (Instr.bar2Write 0 [1]).wf = true := by decide +kernel

/-! ### Statements with hypotheses -/

/-- The state after reset is sound, so the invariant has a state to start from. -/
theorem witness_StepKeepsSound : State.reset.sound = true ∧ ∃ t, step State.reset = .next t := ⟨by decide, _, rfl⟩

/-- The idle step has a state with an empty queue and the MTB running, and one without it. -/
theorem witness_StepTakesFront : served.pending = [] ∧ served.d.bit clkB .CLK_STAT_MTB_LOCK = true ∧ rst.pending = [] ∧ rst.d.bit clkB .CLK_STAT_MTB_LOCK = false := by decide +kernel

/-- A command that is none of the four writers of the store. -/
theorem witness_StoreFrame : ∃ t, exec .idcode State.reset = .next t := ⟨_, rfl⟩

/-- A state in which each of the four registers named in the second part of `Obligations.Frames` can be reached. -/
theorem witness_Frames : (∀ t, t < 48 → served.d.reaches .pcie (thmB + 0x200 + 4 * t) = true) ∧ served.d.reaches .pcie (pmcB + 0x5C) = true ∧
    served.d.reaches .pcie (pwrB + 0x5C) = true ∧ served.d.reaches .pcie (mspB + 0x40) = true := by decide +kernel

/-- A slice and an output of more words than the golden count, which no proof can see, that meet the hypotheses of the clauses of `Obligations.SelfTest` on a
wrong signature and on a repair that finds no spare. -/
theorem witness_SelfTest_words :
    (let s := served fun d => d.setClu 3 { d.clu 3 with bst := some ⟨2, 1, 5, false⟩ }
     let o : BstOut := { words := List.replicate (Config.bstSteps 2 1 % 2 ^ 32 + 1) 0, rows := [], spares := [], det := 0 }
     s.d.bst.ref = none ∧ (s.d.clu 3).bst = some ⟨2, 1, 5, false⟩ ∧ (s.d.clu 3).rstWait = false ∧ Config.bstSteps 2 1 % 2 ^ 32 ≤ o.words.length ∧
       ¬ (bstSigOf (o.words.map (fun w => w.toNat)) = Config.bstSig 2 1 % 2 ^ 32 ∧ o.words.length = Config.bstSteps 2 1 % 2 ^ 32)) ∧
    (let s := served fun d => { (d.setb bstB .BST_CFG_REPAIR_EN true).setClu 3 { d.clu 3 with bst := some ⟨4, 0, 5, false⟩ } with
        bst := { d.bst with soft := [{ cl := 3, elem := 2, spare := 0, row := 1 }, { cl := 3, elem := 2, spare := 1, row := 2 }] } }
     let o : BstOut := { words := List.replicate (Config.bstSteps 4 0 % 2 ^ 32) 0, rows := [7], spares := [], det := 0 }
     s.d.bst.ref = none ∧ (s.d.clu 3).bst = some ⟨4, 0, 5, false⟩ ∧ (s.d.clu 3).rstWait = false ∧ bstElem 4 = some (2, 2) ∧ s.d.softAllowed = true ∧
       (∀ sp, sp < 2 → s.d.repOf 3 2 sp ≠ none) ∧ Config.bstSteps 4 0 % 2 ^ 32 ≤ o.words.length) := by
  refine ⟨⟨?_, ?_, ?_, ?_, ?_⟩, ?_, ?_, ?_, ?_, ?_, ?_, ?_⟩
  any_goals decide +kernel
  all_goals simp

/-- States and operands that meet the hypotheses of clauses of `Obligations.RegisterAccess`. -/
theorem witness_RegisterAccess :
    (let p : HPort := .pcie; let a : BitVec 24 := 0x8C0040; let kind : PageKind := kindAt a.toNat; let base : Nat := baseAt a.toNat; let off : Nat := offAt a.toNat; let row : RegRow := rowOf (base + off); let s : State := served; (areaOf a.toNat = .page kind base off) ∧ (base + off = a.toNat) ∧ (rowAt kind base off = some (row, false)) ∧ (a.toNat % 4 = 0) ∧ (s.d.reaches p a.toNat = true) ∧ (row.wide = false) ∧ (0x40 ≤ off) ∧ (kind ∈ [PageKind.hif, .seq, .acq, .tdc])) ∧
    (let p : HPort := .pcie; let a : BitVec 24 := 0x3040; let kind : PageKind := kindAt a.toNat; let base : Nat := baseAt a.toNat; let off : Nat := offAt a.toNat; let row : RegRow := rowOf (base + off); let s : State := served; (areaOf a.toNat = .page kind base off) ∧ (base + off = a.toNat) ∧ (rowAt kind base off = some (row, false)) ∧ (a.toNat % 4 = 0) ∧ (s.d.reaches p a.toNat = true) ∧ (row.wide = false) ∧ ((kind.header = true → off ≠ 0x24)) ∧ (¬ (kind = .pin ∧ off = 0x318))) ∧
    (let p : HPort := .pcie; let a : BitVec 24 := BitVec.ofNat 24 (txnB + 296); let kind : PageKind := kindAt a.toNat; let base : Nat := baseAt a.toNat; let off : Nat := offAt a.toNat; let row : RegRow := rowOf (base + off); let s : State := served; (areaOf a.toNat = .page kind base off) ∧ (base + off = a.toNat) ∧ (rowAt kind base off = some (row, false)) ∧ (a.toNat % 4 = 0) ∧ (s.d.reaches p a.toNat = true) ∧ (row.wide = true) ∧ (row.snap = 0) ∧ (kind ≠ .res) ∧ (kind ≠ .ras) ∧ (kind.header = true)) := by
  refine ⟨?_, ?_, ?_⟩ <;> (try dsimp only [Dev.recorded, State.walkAt, Dev.atRoutine, Dev.atWord]) <;> decide +kernel

/-- States and operands that meet the hypotheses of clauses of `Obligations.TransactionSlots`. -/
theorem witness_TransactionSlots :
    (let p : HPort := .pcie; let k : Fin 8 := 5; let s : State := served; (s.d.reaches p (txnSlot k) = true) ∧ (s.d.txnState k ∈ [0, 4, 5])) ∧
    (let p : HPort := .pcie; let k : Fin 8 := 5; let s := served fun d => (let d := d.put (txnReg k) .TXN_STAT_STATE 2; d); (s.d.reaches p (txnSlot k) = true) ∧ (s.d.txnState k ∉ [0, 4, 5])) ∧
    (let p : HPort := .pcie; let v : Word := 0x15; let s := served fun d => (let d := d.put (txnReg (v.toNat % 8)) .TXN_STAT_STATE (1); d); (s.d.reaches p (txnB + 0x40) = true) ∧ (bitOf v.toNat 4 = true) ∧ (s.d.txnState (v.toNat % 8) = 1)) ∧
    (let p : HPort := .pcie; let v : Word := 0x15; let s : State := served; (s.d.reaches p (txnB + 0x40) = true) ∧ (bitOf v.toNat 4 = true) ∧ (s.d.txnState (v.toNat % 8) ≠ 1)) ∧
    (let p : HPort := .pcie; let v : Word := 0; let s : State := served; (s.d.reaches p (txnB + 0x40) = true) ∧ (bitOf v.toNat 4 = false)) ∧
    (let p : HPort := .pcie; let k : Fin 8 := 5; let s : State := served; (s.d.reaches p (txnSlot k + 4) = true) ∧ (s.d.txnState k ≠ 1)) ∧
    (let p : HPort := .pcie; let k : Fin 8 := 5; let s := served fun d => (let d := d.put (txnReg k) .TXN_STAT_STATE (1); let d := d.setb (txnReg k) .TXN_STAT_CONFLICTED true; d); (s.d.reaches p (txnSlot k + 4) = true) ∧ (s.d.txnState k = 1) ∧ (s.d.bit (txnReg k) .TXN_STAT_CONFLICTED = true)) ∧
    (let p : HPort := .pcie; let k : Fin 8 := 5; let s := served fun d => (let d := d.put (txnReg k) .TXN_STAT_STATE (1); let d := d.setSlot k { d.slot k with ovr := true }; d); (s.d.reaches p (txnSlot k + 4) = true) ∧ (s.d.txnState k = 1) ∧ (s.d.bit (txnReg k) .TXN_STAT_CONFLICTED = false) ∧ ((s.d.slot k).ovr = true)) ∧
    (let p : HPort := .pcie; let k : Fin 8 := 5; let v : Word := 0x50000064; let s := served fun d => (let d := d.put (txnReg k) .TXN_STAT_STATE (1); d); (s.d.reaches p (txnSlot k + 4) = true) ∧ (s.d.txnState k = 1) ∧ (s.d.bit (txnReg k) .TXN_STAT_CONFLICTED = false) ∧ ((s.d.slot k).ovr = false) ∧ (s.d.badTarget (v.toNat / 2 ^ 28) (v.toNat % 1024) = true)) ∧
    (let p : HPort := .pcie; let k : Fin 8 := 5; let v : Word := 0; let s := served fun d => (let d := d.put (txnReg k) .TXN_STAT_STATE (1); d); (s.d.reaches p (txnSlot k + 4) = true) ∧ (s.d.txnState k = 1) ∧ (s.d.bit (txnReg k) .TXN_STAT_CONFLICTED = false) ∧ ((s.d.slot k).ovr = false) ∧ (s.d.badTarget (v.toNat / 2 ^ 28) (v.toNat % 1024) = false)) ∧
    (let p : HPort := .pcie; let k : Fin 8 := 5; let s : State := served; (s.d.reaches p (txnSlot k + 8) = true) ∧ (s.d.txnState k = 0)) ∧
    (let p : HPort := .pcie; let k : Fin 8 := 5; let s := served fun d => (let d := d.put (txnReg k) .TXN_STAT_STATE (0 + 1); d); (s.d.reaches p (txnSlot k + 8) = true) ∧ (s.d.txnState k ≠ 0)) := by
  refine ⟨?_, ?_, ?_, ?_, ?_, ?_, ?_, ?_, ?_, ?_, ?_, ?_⟩ <;> (try dsimp only [Dev.recorded, State.walkAt, Dev.atRoutine, Dev.atWord]) <;> decide +kernel

/-- States and operands that meet the hypotheses of clauses of `Obligations.StagingAndApply`. -/
theorem witness_StagingAndApply :
    (let a : BitVec 24 := BitVec.ofNat 24 (pinBase 100 + 0x40); let wide : Bool := false; let kind : PageKind := kindAt a.toNat; let base : Nat := baseAt a.toNat; let off : Nat := offAt a.toNat; let row : RegRow := rowOf (base + off); let hi : Bool := false; let k : Nat := 5; let s := served fun d => (let d := (d.put txnB .TXN_CAPTURE_SLOT 5).setb txnB .TXN_CAPTURE_EN true; let d := d.put (txnReg 5) .TXN_STAT_STATE 1; d); (s.d.pcieOk = true) ∧ (s.d.heldNow a.toNat = false) ∧ (s.d.capSlot = some k) ∧ (s.d.hitOf a.toNat wide true = .ok (.reg kind base off row hi)) ∧ (row.txn ≠ 0) ∧ (Nat.land (andNot (fullMask wide) row.txn) row.acc = 0) ∧ ((kind.header = true → s.d.bit base .PG_STAT_GATED = false)) ∧ ((s.d.slot k).writes.length < 4096)) ∧
    (let k : Fin 8 := 6; let s := served fun d => (let d := d.put (txnReg k) .TXN_STAT_STATE (2); let d := d.setSlot k { d.slot k with point := 1 }; d); (s.d.txnState k = 2) ∧ ((s.d.slot k).point = 1 ∨ (s.d.slot k).point = 3 ∨ (s.d.slot k).point = 2 ∧ s.d.ctxActive (s.d.slot k).target = true)) ∧
    (let k : Fin 8 := 6; let s := served fun d => (let d := d.put (txnReg k) .TXN_STAT_STATE (2); let d := d.setSlot k { d.slot k with point := 2 }; d); (s.d.txnState k = 2) ∧ ((s.d.slot k).point = 2) ∧ (s.d.ctxActive (s.d.slot k).target = false)) ∧
    (let k : Fin 8 := 6; let a : Nat := seqBase 3 + 0x40; let mask : Nat := 0xFFFF; let v : Nat := 0x1234; let kind : PageKind := kindAt a; let base : Nat := baseAt a; let off : Nat := offAt a; let row : RegRow := rowOf (base + off); let s := served fun d => (let d := d.put (txnReg k) .TXN_STAT_STATE (2); let d := d.setSlot k { d.slot k with writes := [(a, mask, v)] }; d); (s.d.txnState k = 2) ∧ ((s.d.slot k).point = 0) ∧ ((s.d.slot k).writes = [(a, mask, v)]) ∧ (areaOf a = .page kind base off) ∧ (base + off = a) ∧ (kind ∈ [PageKind.seq, .acq, .tdc]) ∧ (0x40 ≤ off) ∧ (rowAt kind base off = some (row, false)) ∧ (row.wide = false) ∧ (row.w1c = 0) ∧ (row.w1s = 0) ∧ (s.d.txnBlocked k = false)) ∧
    (let k : Fin 8 := 6; let t : Nat := 5000; let s := served fun d => (let d := d.put (txnReg k) .TXN_STAT_STATE (3); let d := d.setSlot k { d.slot k with waitT := (some t) }; d); (s.d.txnState k = 3) ∧ ((s.d.slot k).waitT = some t) ∧ ((s.d.slot k).writes = [])) := by
  refine ⟨?_, ?_, ?_, ?_, ?_⟩ <;> (try dsimp only [Dev.recorded, State.walkAt, Dev.atRoutine, Dev.atWord]) <;> decide +kernel

/-- States and operands that meet the hypotheses of clauses of `Obligations.HeaderWrites`. -/
theorem witness_HeaderWrites :
    (let p : HPort := .pcie; let a : BitVec 24 := 0x3000; let kind : PageKind := kindAt a.toNat; let s : State := served; (kind.header = true) ∧ (areaOf (pageOf a.toNat + 0x18) = .page kind (pageOf a.toNat) 0x18) ∧ (s.d.reaches p (pageOf a.toNat + 0x18) = true)) ∧
    (let p : HPort := .pcie; let a : BitVec 24 := 0x3000; let kind : PageKind := kindAt a.toNat; let s : State := served; (kind.header = true) ∧ (areaOf (pageOf a.toNat + 0x14) = .page kind (pageOf a.toNat) 0x14) ∧ (s.d.reaches p (pageOf a.toNat + 0x14) = true)) ∧
    (let p : HPort := .pcie; let a : BitVec 24 := 0x3000; let kind : PageKind := kindAt a.toNat; let s : State := served; (kind.header = true) ∧ (areaOf (pageOf a.toNat + 0x20) = .page kind (pageOf a.toNat) 0x20) ∧ (s.d.reaches p (pageOf a.toNat + 0x20) = true)) := by
  refine ⟨?_, ?_, ?_⟩ <;> (try dsimp only [Dev.recorded, State.walkAt, Dev.atRoutine, Dev.atWord]) <;> decide +kernel

/-- States and operands that meet the hypotheses of clauses of `Obligations.GatesAndSoftResets`. -/
theorem witness_GatesAndSoftResets :
    (let p : HPort := .pcie; let a : BitVec 24 := 0x3000; let kind : PageKind := kindAt a.toNat; let b := pageOf a.toNat; let s : State := served; (kind.header = true) ∧ (areaOf (b + 8) = .page kind b 8) ∧ (s.d.reaches p (b + 8) = true) ∧ (s.d.bit b .PG_CTRL_GATE_REQ = false)) ∧
    (let p : HPort := .pcie; let a : BitVec 24 := 0x3000; let kind : PageKind := kindAt a.toNat; let b := pageOf a.toNat; let s := served fun d => (let d := d.setb (pageOf a.toNat) .PG_CTRL_GATE_REQ true; d); (kind.header = true) ∧ (areaOf (b + 8) = .page kind b 8) ∧ (s.d.reaches p (b + 8) = true) ∧ (s.d.bit b .PG_CTRL_GATE_REQ = true)) ∧
    (let p : HPort := .pcie; let a : BitVec 24 := 0x3000; let kind : PageKind := kindAt a.toNat; let b := pageOf a.toNat; let s : State := served; (kind.header = true) ∧ (areaOf (b + 8) = .page kind b 8) ∧ (s.d.reaches p (b + 8) = true) ∧ (s.d.srstOk kind b = true) ∧ ((kind = .msp → p = .pcie))) ∧
    (let a : BitVec 24 := 0x3000; let kind : PageKind := kindAt a.toNat; let b := pageOf a.toNat; let s := served fun d => (let d := d.setb (pageOf a.toNat) .PG_STAT_GATE_DEFER true; let d := d.setb (pageOf a.toNat) .PG_CTRL_GATE_REQ true; d); (kind.header = true) ∧ (s.d.bit b .PG_STAT_GATE_DEFER = true) ∧ (s.d.bit b .PG_CTRL_GATE_REQ = true) ∧ (s.d.bit b .PG_STAT_SELFTEST = false)) ∧
    (let a : BitVec 24 := 0x3000; let kind : PageKind := kindAt a.toNat; let b := pageOf a.toNat; let s := served fun d => (let d := d.setb (pageOf a.toNat) .PG_CTRL_SRST true; d); (kind.header = true) ∧ (s.d.bit b .PG_CTRL_SRST = true) ∧ ((b = mspB → s.d.msp.srst = false)) ∧ (s.d.hif.held = [])) := by
  refine ⟨?_, ?_, ?_, ?_, ?_⟩ <;> (try dsimp only [Dev.recorded, State.walkAt, Dev.atRoutine, Dev.atWord]) <;> decide +kernel

/-- States and operands that meet the hypotheses of clauses of `Obligations.FirstErrorHeld`. -/
theorem witness_FirstErrorHeld :
    (let p : HPort := .pcie; let a : BitVec 24 := 0x500000; let wide : Bool := false; let c : ErrCause := .unmapped; let s : State := served; (s.d.reaches p a.toNat = true) ∧ (s.d.clkState = 2) ∧ ((p = .msp → wide = false)) ∧ (s.d.hitOf a.toNat wide true = .error c)) ∧
    (let p : HPort := .pcie; let a : BitVec 24 := 0x500000; let wide : Bool := false; let c : ErrCause := .unmapped; let s : State := served; (s.d.reaches p a.toNat = true) ∧ (s.d.clkState = 2) ∧ ((p = .msp → wide = false)) ∧ (s.d.hitOf a.toNat wide true = .error c) ∧ (wide = false) ∧ (s.d.hitOf a.toNat false false = .error c)) ∧
    (let p : HPort := .pcie; let a : BitVec 24 := 0x500000; let wide : Bool := false; let c : ErrCause := .unmapped; let s : State := served; (s.d.reaches p a.toNat = true) ∧ (s.d.clkState = 2) ∧ ((p = .msp → wide = false)) ∧ (s.d.hitOf a.toNat wide true = .error c) ∧ (s.d.reaches p (hifB + 0x4C) = true)) := by
  refine ⟨?_, ?_, ?_⟩ <;> (try dsimp only [Dev.recorded, State.walkAt, Dev.atRoutine, Dev.atWord]) <;> decide +kernel

/-- States and operands that meet the hypotheses of clauses of `Obligations.FaultOverflow`. -/
theorem witness_FaultOverflow :
    (let type : Nat := 0; let unit : Nat := 0; let bit : Nat := 0; let s := served fun d => (let d := d.setb fltB .FLT_FIRST_VALID true; d); (s.d.bit fltB .FLT_FIRST_VALID = true) ∧ (s.d.consequential (srcWord type unit bit) = false)) ∧
    (let p : HPort := .pcie; let x : BitVec 64 := 0x80000000; let s : State := served; (s.d.reaches p (fltB + 0x50) = true) ∧ (bitOf x.toNat 31 = true)) ∧
    (let p : HPort := .pcie; let x : BitVec 64 := 0; let s : State := served; (s.d.reaches p (fltB + 0x50) = true) ∧ (bitOf x.toNat 31 = false)) := by
  refine ⟨?_, ?_, ?_⟩ <;> (try dsimp only [Dev.recorded, State.walkAt, Dev.atRoutine, Dev.atWord]) <;> decide +kernel

/-- States and operands that meet the hypotheses of clauses of `Obligations.TargetState`. -/
theorem witness_TargetState :
    (let p : HPort := .pcie; let a : BitVec 24 := 0x4138; let n : Fin 32 := 3; let s : State := served; (a.toNat = pwrB + 0x108 + 0x10 * n.val) ∧ (s.d.reaches p a.toNat = true)) := by
  (try dsimp only [Dev.recorded, State.walkAt, Dev.atRoutine, Dev.atWord]) <;> decide +kernel

/-- States and operands that meet the hypotheses of clauses of `Obligations.ClockStart`. -/
theorem witness_ClockStart :
    (let s := served fun d => (let d := d.put clkB .PG_STAT_STATE (1); d); (s.d.coldHeld = false) ∧ (s.d.pow.stop = false) ∧ (s.d.clkState ≤ 1)) ∧
    (let s := served fun d => (let d := d.put clkB .PG_STAT_STATE (3); d); (s.d.coldHeld = false) ∧ (s.d.pow.stop = false) ∧ (s.d.clkState = 3)) ∧
    (let s := served fun d => (let d := d.put clkB .PG_STAT_STATE (1); let d := d.setb clkB .CLK_STAT_REF_OK true; let d := d.setb clkB .CLK_STAT_MTB_LOCK false; d); (s.d.pow.stop = false) ∧ (s.d.clkState ≤ 1) ∧ (s.d.bit clkB .CLK_STAT_REF_OK = true) ∧ (s.d.bit clkB .CLK_STAT_MTB_LOCK = false)) ∧
    (let s := served fun d => (let d := d.put clkB .PG_STAT_STATE (1); d); (s.d.clkState ≤ 1) ∧ (s.d.bit clkB .CLK_STAT_MTB_LOCK = true)) ∧
    (let s := served fun d => (let d := d.put clkB .PG_STAT_STATE (1); d); (s.d.coldHeld = false) ∧ (s.d.pow.stop = false) ∧ (s.d.clkState ≤ 1) ∧ (s.d.rst.bkosc = true) ∧ (s.d.bit clkB .CLK_STAT_BKOSC_QUAL = false)) ∧
    (let r : Fin 8 := 1; let s := served fun d => (let d := d.setb (vpBase r) .CLK_VP_STAT_OFF false; d); (s.d.bit (vpBase r) .CLK_VP_STAT_OFF = false) ∧ (s.d.bit (vpBase r) .CLK_VP_STAT_LOCKED = false)) ∧
    (let m : Fin 4 := 1; let s := served fun d => (let d := d.setb bstB .PG_STAT_GATED true; let d := d.put (muxBase m) .CLK_SW_STAT_STATE (1); d); let gated := [pwrB, bstB, rasB].any (fun b => s.d.bit b .PG_STAT_GATED && [pwrB, bstB, rasB].idxOf b == m.val); (s.d.get (muxBase m) .CLK_SW_STAT_STATE = 1) ∧ (gated = true)) ∧
    (let m : Fin 4 := 1; let s := served fun d => (let d := d.put (muxBase m) .CLK_SW_STAT_STATE (1); d); let gated := [pwrB, bstB, rasB].any (fun b => s.d.bit b .PG_STAT_GATED && [pwrB, bstB, rasB].idxOf b == m.val); (s.d.get (muxBase m) .CLK_SW_STAT_STATE = 1) ∧ (gated = false)) ∧
    (let m : Fin 4 := 1; let s := served fun d => (let d := d.put (muxBase m) .CLK_SW_STAT_STATE (1); d); (s.d.get (muxBase m) .CLK_SW_STAT_STATE = 1)) := by
  refine ⟨?_, ?_, ?_, ?_, ?_, ?_, ?_, ?_, ?_⟩ <;> (try dsimp only [Dev.recorded, State.walkAt, Dev.atRoutine, Dev.atWord]) <;> decide +kernel

/-- States and operands that meet the hypotheses of clauses of `Obligations.ClockFaults`. -/
theorem witness_ClockFaults :
    (let s := served fun d => (let d := d.setb clkB .CLK_STAT_BKOSC_QUAL true; d); (s.d.bit clkB .CLK_STAT_BKOSC_QUAL = true) ∧ (s.d.clkState ≠ 3)) ∧
    (let s := served fun d => (let d := d.setb clkB .CLK_STAT_BKOSC_QUAL true; let d := d.put clkB .PG_STAT_STATE (3); d); (s.d.bit clkB .CLK_STAT_BKOSC_QUAL = true) ∧ (s.d.clkState = 3)) ∧
    (let i : Fin 7 := 1; let s := served fun d => (let d := d.setBitN clkB .CLK_PLL_LOCK_PLL i true; d); (i ≠ 0) ∧ (s.d.bitN clkB .CLK_PLL_LOCK_PLL i = true)) ∧
    (let r : Fin 8 := 1; let s := served fun d => (let d := d.setb (vpBase r) .CLK_VP_STAT_LOCKED true; d); (s.d.bit (vpBase r) .CLK_VP_STAT_LOCKED = true)) ∧
    (let s : State := served; (s.d.refWatched = true) ∧ (s.d.clkState ≤ 2)) ∧
    (let s := served fun d => (let d := d.put clkB .PG_STAT_STATE (4); d); (s.d.refWatched = true) ∧ (s.d.clkState = 4) ∧ (s.d.get bstB .PG_STAT_STATE ≠ 2)) := by
  refine ⟨?_, ?_, ?_, ?_, ?_, ?_⟩ <;> (try dsimp only [Dev.recorded, State.walkAt, Dev.atRoutine, Dev.atWord]) <;> decide +kernel

/-- States and operands that meet the hypotheses of clauses of `Obligations.ClockWrites`. -/
theorem witness_ClockWrites :
    (let p : HPort := .pcie; let r : Fin 8 := 1; let s : State := served; (s.d.reaches p (clkB + 0x80 + 8 * r.val) = true) ∧ (s.d.vpBusy r = false)) ∧
    (let p : HPort := .pcie; let r : Fin 8 := 0; let s := served fun d => (let d := d.setCx 5 { req := 1 }; let d := d.put (ctxBase 5) .CTX_STATE_STATE 3; d); (s.d.reaches p (clkB + 0x80 + 8 * r.val) = true) ∧ (s.d.vpBusy r = true) ∧ (s.d.clkState ≠ 3)) ∧
    (let p : HPort := .pcie; let x : Fin 4 := 1; let sel : BitVec 4 := 0; let s := served fun d => (let d := d.put (muxBase x) .CLK_SW_STAT_REQ ((sel.toNat) + 1); d); (s.d.reaches p (clkB + 0x100 + 0x10 * x.val) = true) ∧ (x.val < 2) ∧ (sel.toNat < 2) ∧ (s.d.get (muxBase x) .CLK_SW_STAT_REQ ≠ sel.toNat)) ∧
    (let p : HPort := .pcie; let x : Fin 4 := 3; let s : State := served; (s.d.reaches p (clkB + 0x100 + 0x10 * x.val) = true) ∧ (x.val = 3)) ∧
    (let p : HPort := .pcie; let x : Fin 4 := 1; let s : State := served; (s.d.reaches p (clkB + 0x100 + 0x10 * x.val) = true) ∧ (x.val ≠ 3) ∧ ((x.val = 2 → s.d.bit rasB .RAS_CTRL_EN = false))) ∧
    (let p : HPort := .pcie; let x : Fin 4 := 1; let s := served fun d => (let d := d.setb (muxBase x) .CLK_MUX_CTRL_RST true; d); (s.d.reaches p (clkB + 0x100 + 0x10 * x.val) = true) ∧ (x.val < 2) ∧ (s.d.bit (muxBase x) .CLK_MUX_CTRL_RST = true)) ∧
    (let p : HPort := .pcie; let x : Fin 4 := 1; let s : State := served; (s.d.reaches p (clkB + 0x100 + 0x10 * x.val) = true) ∧ (x.val < 2) ∧ (s.d.bit (muxBase x) .CLK_MUX_CTRL_RST = false)) := by
  refine ⟨?_, ?_, ?_, ?_, ?_, ?_, ?_⟩ <;> (try dsimp only [Dev.recorded, State.walkAt, Dev.atRoutine, Dev.atWord]) <;> decide +kernel

/-- States and operands that meet the hypotheses of clauses of `Obligations.PinEnable`. -/
theorem witness_PinEnable :
    (let g : Fin 1024 := 100; let p : HPort := .pcie; let b := pinBase g; let s : State := served; let x := s.d.pin g; (s.d.reaches p (b + 8) = true) ∧ (s.d.bit b .PG_CTRL_EN = false) ∧ (x.safe = false)) ∧
    (let g : Fin 1024 := 100; let p : HPort := .pcie; let b := pinBase g; let s := served fun d => (let d := d.setPin g { d.pin g with safe := true }; d); let x := s.d.pin g; (s.d.reaches p (b + 8) = true) ∧ (s.d.bit b .PG_CTRL_EN = false) ∧ (x.safe = true) ∧ (s.d.bit hifB .HIF_ERR_FIRST_VALID = false)) ∧
    (let g : Fin 1024 := 100; let s := served fun d => (let d := d.setPin g { d.pin g with phase := .enaSlew }; d); let x := s.d.pin g; (x.phase = .enaSlew) ∧ (s.d.lvlNow g = x.tgt) ∧ ((s.d.pmu g).atEna = none)) ∧
    (let g : Fin 1024 := 100; let p : HPort := .pcie; let b := pinBase g; let s := served fun d => (let d := d.setb (pinBase g) .PG_CTRL_EN true; d); let x := s.d.pin g; (s.d.reaches p (b + 8) = true) ∧ (s.d.bit b .PG_CTRL_EN = true) ∧ (x.safe = false) ∧ (x.phase ≠ .disSlew)) ∧
    (let g : Fin 1024 := 100; let s := served fun d => (let d := d.setPin g { d.pin g with phase := .disSlew }; d); let x := s.d.pin g; (x.phase = .disSlew) ∧ (s.d.lvlNow g = zeroLevels)) := by
  refine ⟨?_, ?_, ?_, ?_, ?_⟩ <;> (try dsimp only [Dev.recorded, State.walkAt, Dev.atRoutine, Dev.atWord]) <;> decide +kernel

/-- States and operands that meet the hypotheses of clauses of `Obligations.PinEvents`. -/
theorem witness_PinEvents :
    (let g : Fin 1024 := 100; let s : State := served; let x := s.d.pin g; (x.tgt.length = 6) ∧ ((∀ t ∈ x.tgt, t < 2 ^ 20))) ∧
    (let g : Fin 1024 := 100; let s := served fun d => (let d := d.setPin g { d.pin g with phase := .spanToZero }; d); let x := s.d.pin g; (x.phase = .spanToZero) ∧ (s.d.lvlNow g = zeroLevels) ∧ (x.spanTgt < 2)) ∧
    (let g : Fin 1024 := 100; let s := served fun d => (let d := d.setPin g { d.pin g with phase := .spanFromZero }; d); let x := s.d.pin g; (x.phase = .spanFromZero) ∧ (s.d.lvlNow g = x.tgt) ∧ (x.defer = none)) ∧
    (let g : Fin 1024 := 100; let b := pinBase g; let s := served fun d => (let d := d.setPin g { d.pin g with cmp := .fast }; let d := d.setb (pinBase g) .PIN_CMP_STAT_SETTLING true; d); let x := s.d.pin g; (s.d.bit b .PIN_CMP_STAT_SETTLING = true) ∧ (s.d.bit b .PIN_STAT_SPAN_BUSY = false) ∧ (x.blank = false) ∧ (x.cmp ≠ .off)) ∧
    (let g : Fin 1024 := 100; let b := pinBase g; let s := served fun d => (let d := d.setb (pinBase g) .PIN_CMP_STAT_SETTLING true; let d := d.setb (pinBase g) .PIN_STAT_SPAN_BUSY true; d); let x := s.d.pin g; (s.d.bit b .PIN_CMP_STAT_SETTLING = true) ∧ (s.d.bit b .PIN_STAT_SPAN_BUSY = true ∨ x.blank = true)) ∧
    (let g : Fin 1024 := 100; let b := pinBase g; let high : Bool := true; let v : Int := (10000000000000 : Int); let out := if high then Fld.PIN_CMP_STAT_CH else Fld.PIN_CMP_STAT_CL; let s := served fun d => (let d := d.setPin g { d.pin g with cmp := .fast }; d); let x := s.d.pin g; let half : Int := (if (s.d.service g).isSome && !x.safe then 0 else [0, 10, 25, 50].getD x.hyst 0 : Nat) * 2 ^ 19; let th := s.d.lvlQ g (if high then 3 else 4); let rise := if high then (decide (th + half < v) || (decide (th - half ≤ v) && x.rawCH)) else (decide (v < th - half) || (decide (v ≤ th + half) && x.rawCL)); (x.cmp ≠ .off) ∧ (s.d.cmpHeld g = false) ∧ (s.d.bit b out ≠ rise)) ∧
    (let g : Fin 1024 := 100; let s : State := served; let x := s.d.pin g; (x.cmp = .off ∨ s.d.cmpHeld g = true)) ∧
    (let r : Fin 8 := 1; let t : Fin 4 := 1; let tb := blankBase r + 16 * t; let s := served fun d => (let d := d.put (blankBase r + 16 * t) .SEQ_BLANK_WIDTH_WIDTH ((0) + 1); let d := d.put (blankBase r + 16 * t) .SEQ_BLANK_CFG_MODE (1); d); (s.d.get tb .SEQ_BLANK_WIDTH_WIDTH ≠ 0) ∧ (s.d.get tb .SEQ_BLANK_CFG_MODE = 1)) ∧
    (let r : Fin 8 := 1; let t : Fin 4 := 1; let tb := blankBase r + 16 * t; let s := served fun d => (let d := d.put (blankBase r + 16 * t) .SEQ_BLANK_CFG_MODE (2); d); (s.d.get tb .SEQ_BLANK_CFG_MODE = 2) ∧ (s.d.blankArm.contains (4 * r.val + t.val) = false)) ∧
    (let r : Fin 8 := 1; let t : Fin 4 := 1; let tb := blankBase r + 16 * t; let key := 4 * r.val + t.val; let s : State := served; let restart := s.d.get tb .SEQ_BLANK_CFG_MODE = 2 ∧ s.d.blankArm.contains key = true; (¬ restart) ∧ ((s.d.blankOpen.erase key).contains key = false)) ∧
    (let r : Fin 8 := 1; let t : Fin 4 := 1; let key := 4 * r.val + t.val; let s := served fun d => (let d := { d with blankOpen := [key, key] }; d); ((s.d.blankOpen.erase key).contains key = true)) ∧
    (let r : Fin 8 := 1; let t : Fin 4 := 1; let tb := blankBase r + 16 * t; let key := 4 * r.val + t.val; let s := served fun d => (let d := d.put (blankBase r + 16 * t) .SEQ_BLANK_CFG_MODE 2; let d := { d with blankArm := [4 * r.val + t.val] }; d); let restart := s.d.get tb .SEQ_BLANK_CFG_MODE = 2 ∧ s.d.blankArm.contains key = true; (restart)) ∧
    (let g : Fin 1024 := 100; let v : Int := (10000000 : Int); let s := served fun d => (let d := d.setPin g { d.pin g with clamp := true }; d); let x := s.d.pin g; (x.clamp = true) ∧ (s.d.lvlQ g 5 < v)) ∧
    (let g : Fin 1024 := 100; let v : Int := (-10000000000000 : Int); let s := served fun d => (let d := d.setPin g { d.pin g with clamp := true }; d); let x := s.d.pin g; let lo := s.d.lvlQ g 1 - (x.margin + 1) * 100 * 2 ^ 20; let lo := if lo < -2400 * 2 ^ 20 then -2400 * 2 ^ 20 else lo; (x.clamp = true) ∧ (v < lo)) ∧
    (let g : Fin 1024 := 100; let v : Int := (0 : Int); let s : State := served; let x := s.d.pin g; let lo := s.d.lvlQ g 1 - (x.margin + 1) * 100 * 2 ^ 20; let lo := if lo < -2400 * 2 ^ 20 then -2400 * 2 ^ 20 else lo; (x.clamp = false ∨ (lo ≤ v ∧ v ≤ s.d.lvlQ g 5))) ∧
    (let g : Fin 1024 := 100; let i : Fin 3 := 1; let s : State := served; (s.d.srcSlice (srcWord 0x28 g i) = none)) := by
  refine ⟨?_, ?_, ?_, ?_, ?_, ?_, ?_, ?_, ?_, ?_, ?_, ?_, ?_, ?_, ?_, ?_⟩ <;> (try dsimp only [Dev.recorded, State.walkAt, Dev.atRoutine, Dev.atWord]) <;> decide +kernel

/-- States and operands that meet the hypotheses of clauses of `Obligations.PmuSequences`. -/
theorem witness_PmuSequences :
    (let g : Fin 1024 := 100; let s := served fun d => (let d := d.setPmu g { d.pmu g with seq := .connect }; d); let x := s.d.pmu g; let free := s.d.ownerHolding g = false; (free) ∧ (x.sw = false) ∧ (x.set.mode < 4) ∧ (x.seq = .connect) ∧ (x.forces = false)) ∧
    (let g : Fin 1024 := 100; let s := served fun d => (let d := d.setPmu g { d.pmu g with seq := .connect }; let d := d.setPmu g { d.pmu g with forces := true }; d); let x := s.d.pmu g; let free := s.d.ownerHolding g = false; (free) ∧ (x.sw = false) ∧ (x.set.mode < 4) ∧ (x.seq = .connect) ∧ (x.forces = true)) ∧
    (let g : Fin 1024 := 100; let s := served fun d => (let d := d.setPmu g { d.pmu g with seq := .engage }; d); let x := s.d.pmu g; let free := s.d.ownerHolding g = false; (free) ∧ (x.sw = false) ∧ (x.set.mode < 4) ∧ (x.seq = .engage)) ∧
    (let g : Fin 1024 := 100; let b := pinBase g; let s := served fun d => (let d := d.setPmu g { d.pmu g with seq := .release }; d); let x := s.d.pmu g; let free := s.d.ownerHolding g = false; let sine := s.d.bit b .PMU_STAT_SINE_ON; (free) ∧ (x.sw = false) ∧ (x.centre = x.tgt) ∧ (sine = false) ∧ (x.zWait = false) ∧ (x.seq = .release ∨ x.seq = .disconnect)) ∧
    (let g : Fin 1024 := 100; let b := pinBase g; let s := served fun d => (let d := d.setPmu g { d.pmu g with seq := .zero }; d); let x := s.d.pmu g; let free := s.d.ownerHolding g = false; let sine := s.d.bit b .PMU_STAT_SINE_ON; (free) ∧ (x.sw = false) ∧ (x.centre = x.tgt) ∧ (sine = false) ∧ (x.zWait = false) ∧ (x.seq = .zero) ∧ (x.set.mode < 4) ∧ (x.set.span < 2)) ∧
    (let g : Fin 1024 := 100; let b := pinBase g; let s := served fun d => (let d := d.setPmu g { d.pmu g with seq := .release }; let d := d.setPmu g { d.pmu g with centre := ((d.pmu g).tgt) + 1 }; d); let x := s.d.pmu g; let sine := s.d.bit b .PMU_STAT_SINE_ON; ((x.seq = .release ∨ x.seq = .disconnect ∨ x.seq = .zero)) ∧ ((x.centre ≠ x.tgt ∨ sine = true ∨ x.zWait = true))) ∧
    (let g : Fin 1024 := 100; let s := served fun d => (let d := d.setPin g { d.pin g with owner := some 100 }; let d := d.put (ctxBase 100) .CTX_STATE_STATE 4; d); (s.d.ownerHolding g = true)) ∧
    (let g : Fin 1024 := 100; let s : State := served; let x := s.d.pmu g; let free := s.d.ownerHolding g = false; (free) ∧ (x.seq ≠ .range) ∧ ((x.seq = .connect ∨ x.seq = .engage → x.sw = true))) ∧
    (let g : Fin 1024 := 100; let s := served fun d => (let d := d.setPmu g { d.pmu g with measSw := true }; d); let x := s.d.pmu g; let free := s.d.ownerHolding g = false; (free) ∧ (x.measSw = true)) ∧
    (let g : Fin 1024 := 100; let s := served fun d => (let d := d.setPmu g { d.pmu g with sw := true }; let d := d.setPmu g { d.pmu g with seq := .connect }; d); let x := s.d.pmu g; let free := s.d.ownerHolding g = false; (free) ∧ (x.measSw = false) ∧ (x.sw = true) ∧ (x.defer = none) ∧ ((x.seq = .connect ∨ x.seq = .engage ∨ x.seq = .zero)) ∧ (x.centre = x.tgt)) ∧
    (let g : Fin 1024 := 100; let s := served fun d => (let d := d.setPmu g { d.pmu g with sw := true }; let d := d.setPmu g { d.pmu g with seq := .release }; d); let x := s.d.pmu g; let free := s.d.ownerHolding g = false; (free) ∧ (x.measSw = false) ∧ (x.sw = true) ∧ (x.defer = none) ∧ (x.seq = .release)) ∧
    (let g : Fin 1024 := 100; let s := served fun d => (let d := d.setPmu g { d.pmu g with sw := true }; let d := d.setPmu g { d.pmu g with seq := .disconnect }; d); let x := s.d.pmu g; let free := s.d.ownerHolding g = false; (free) ∧ (x.measSw = false) ∧ (x.sw = true) ∧ (x.defer = none) ∧ (x.seq = .disconnect) ∧ (x.park = false) ∧ (x.back = false) ∧ (x.set.span < 2) ∧ (x.set.range < 5)) ∧
    (let g : Fin 1024 := 100; let s := served fun d => (let d := d.setPmu g { d.pmu g with sw := true }; let d := d.setPmu g { d.pmu g with seq := .disconnect }; let d := d.setPmu g { d.pmu g with park := true }; d); let x := s.d.pmu g; let free := s.d.ownerHolding g = false; (free) ∧ (x.measSw = false) ∧ (x.sw = true) ∧ (x.defer = none) ∧ (x.seq = .disconnect) ∧ (x.park = true) ∧ (x.atEna = none)) ∧
    (let g : Fin 1024 := 100; let s := served fun d => (let d := d.setPmu g { d.pmu g with seq := .range }; d); let x := s.d.pmu g; let free := s.d.ownerHolding g = false; (free) ∧ (x.measSw = false) ∧ (x.defer = none) ∧ (x.seq = .range) ∧ (x.set.span < 2) ∧ (x.set.range < 5)) ∧
    (let g : Fin 1024 := 100; let b := pinBase g; let s := served fun d => (let d := d.put (pinBase g) .PMU_STAT_MODE_NOW (1); let d := d.setb (pinBase g) .PMU_STAT_SINE_ON true; d); let x := s.d.pmu g; let m := s.d.get b .PMU_STAT_MODE_NOW; let free := s.d.ownerHolding g = false; let sine := s.d.bit b .PMU_STAT_SINE_ON; (free) ∧ ((m = 1 ∨ m = 2)) ∧ (sine = true) ∧ (x.sineEnd = false)) ∧
    (let g : Fin 1024 := 100; let b := pinBase g; let s := served fun d => (let d := d.setPmu g { d.pmu g with acc := 0x7FFFFFFF, set := { (d.pmu g).set with ftw := 0x1000 } }; let d := d.put (pinBase g) .PMU_STAT_MODE_NOW (1); let d := d.setb (pinBase g) .PMU_STAT_SINE_ON true; let d := d.setPmu g { d.pmu g with sineEnd := true }; d); let x := s.d.pmu g; let m := s.d.get b .PMU_STAT_MODE_NOW; let free := s.d.ownerHolding g = false; let sine := s.d.bit b .PMU_STAT_SINE_ON; (free) ∧ ((m = 1 ∨ m = 2)) ∧ (sine = true) ∧ (x.sineEnd = true) ∧ (x.zWait = false) ∧ ((x.acc + Nat.min x.set.ftw 0x06666666) % 2 ^ 32 / 2 ^ 31 ≠ x.acc / 2 ^ 31)) ∧
    (let g : Fin 1024 := 100; let b := pinBase g; let s := served fun d => (let d := d.put (pinBase g) .PMU_STAT_MODE_NOW (1); let d := d.setPmu g { d.pmu g with sineReq := true }; d); let x := s.d.pmu g; let m := s.d.get b .PMU_STAT_MODE_NOW; let free := s.d.ownerHolding g = false; let sine := s.d.bit b .PMU_STAT_SINE_ON; (free) ∧ ((m = 1 ∨ m = 2)) ∧ (sine = false) ∧ (x.sineReq = true) ∧ (x.centre = x.tgt)) ∧
    (let g : Fin 1024 := 100; let b := pinBase g; let s := served fun d => (let d := d.put (pinBase g) .PMU_STAT_MODE_NOW (1); d); let m := s.d.get b .PMU_STAT_MODE_NOW; let free := s.d.ownerHolding g = false; (free) ∧ ((m = 1 ∨ m = 2))) ∧
    (let g : Fin 1024 := 100; let b := pinBase g; let s : State := served; let m := s.d.get b .PMU_STAT_MODE_NOW; (m = 0 ∨ m = 3)) := by
  refine ⟨?_, ?_, ?_, ?_, ?_, ?_, ?_, ?_, ?_, ?_, ?_, ?_, ?_, ?_, ?_, ?_, ?_, ?_, ?_⟩ <;> (try dsimp only [Dev.recorded, State.walkAt, Dev.atRoutine, Dev.atWord]) <;> decide +kernel

/-- States and operands that meet the hypotheses of clauses of `Obligations.PmuMeasurements`. -/
theorem witness_PmuMeasurements :
    (let g : Fin 1024 := 100; let b := pinBase g; let p := HPort.pcie; let s := served fun d => (let d := d.put (pinBase g) .PMU_ADC_CFG_MODE (1); d); (s.d.reaches p (b + 0x230) = true) ∧ (s.d.get b .PMU_ADC_CFG_MODE = 1)) ∧
    (let g : Fin 1024 := 100; let b := pinBase g; let p := HPort.pcie; let s : State := served; (s.d.reaches p (b + 0x230) = true) ∧ (s.d.get b .PMU_ADC_CFG_MODE ≠ 1)) ∧
    (let g : Fin 1024 := 100; let b := pinBase g; let s := served fun d => (let d := d.setPmu g { d.pmu g with hostLog := 3 }; let d := d.setb (pinBase g) .PMU_ADC_RSTAT_BUSY true; let d := d.put (pinBase g) .PMU_STAT_MODE_NOW ((0) + 1); d); let x := s.d.pmu g; (s.d.clState (g / 32) ≤ 2) ∧ (s.d.bit b .PMU_ADC_RSTAT_BUSY = true) ∧ (s.d.get b .PMU_STAT_MODE_NOW ≠ 0) ∧ (x.measSw = false) ∧ (x.seq ≠ .range) ∧ (x.host.n + 1 < 2 ^ x.hostLog)) ∧
    (let g : Fin 1024 := 100; let b := pinBase g; let s := served fun d => (let d := d.setb (pinBase g) .PMU_ADC_RSTAT_BUSY true; let d := d.put (pinBase g) .PMU_STAT_MODE_NOW ((0) + 1); d); let x := s.d.pmu g; (s.d.clState (g / 32) ≤ 2) ∧ (s.d.bit b .PMU_ADC_RSTAT_BUSY = true) ∧ (s.d.get b .PMU_STAT_MODE_NOW ≠ 0) ∧ (x.measSw = false) ∧ (x.seq ≠ .range) ∧ (2 ^ x.hostLog ≤ x.host.n + 1)) ∧
    (let g : Fin 1024 := 100; let b := pinBase g; let s := served fun d => (let d := d.setb (pinBase g) .PMU_ADC_RSTAT_BUSY true; d); (s.d.bit b .PMU_ADC_RSTAT_BUSY = true) ∧ ((s.d.get b .PMU_STAT_MODE_NOW = 0 ∨ s.d.clState (g / 32) = 3 ∨ s.d.clState (g / 32) = 4))) ∧
    (let g : Fin 1024 := 100; let b := pinBase g; let s := served fun d => (let d := d.put (pwrCl (g / 32)) .PWR_CL_STAT_STATE (3); d); (s.d.bit b .PMU_ADC_RSTAT_BUSY = false) ∧ ((s.d.clState (g / 32) = 3 ∨ s.d.clState (g / 32) = 4))) ∧
    (let g : Fin 1024 := 100; let b := pinBase g; let raw := (5 : BitVec 24); let overlap := false; let c := (100 : Nat); let s := served fun d => (let d := d.setPin g { d.pin g with owner := some 100 }; let d := d.put (ctxBase 100) .CTX_STATE_STATE 3; let d := d.setCx 100 { d.cx 100 with hdr := some { tv := 5000, slots := 1 }, site := [100] }; let d := d.setPmu g { d.pmu g with sched := { on := true } }; let d := d.put (pinBase g) .PMU_ADC_CFG_MODE (3); let d := d.put (pinBase g) .PMU_STAT_MODE_NOW ((0) + 1); d); let x := s.d.pmu g; let v := s.d.pmuAdc g (decide (x.meas = 1) && decide (s.d.get b .PMU_STAT_MODE_NOW ≠ 3)) raw.toInt; (s.d.clState (g / 32) ≤ 1) ∧ (s.d.bit b .PMU_ADC_RSTAT_BUSY = false) ∧ (s.d.get b .PMU_ADC_CFG_MODE = 3) ∧ (s.d.get b .PMU_STAT_MODE_NOW ≠ 0) ∧ (x.sched.on = true) ∧ (x.sched.stop = none) ∧ (s.d.service g = some c) ∧ (s.d.ctxState c = 3) ∧ (x.sched.avgLog = 0) ∧ (x.sched.avg = {}) ∧ (x.sched.miss = false) ∧ (x.measSw = false) ∧ (x.seq ≠ .range) ∧ (overlap = false) ∧ ((-0x7FFFF < v)) ∧ (v < 0x7FFFF)) ∧
    (let g : Fin 1024 := 100; let b := pinBase g; let raw := (5 : BitVec 24); let overlap := false; let s := served fun d => (let d := d.put (pinBase g) .PMU_ADC_CFG_MODE (2); let d := d.put (pinBase g) .PMU_STAT_MODE_NOW ((0) + 1); d); let x := s.d.pmu g; let v := s.d.pmuAdc g (decide (x.meas = 1) && decide (s.d.get b .PMU_STAT_MODE_NOW ≠ 3)) raw.toInt; (s.d.clState (g / 32) ≤ 1) ∧ (s.d.bit b .PMU_ADC_RSTAT_BUSY = false) ∧ (s.d.get b .PMU_ADC_CFG_MODE = 2) ∧ (s.d.get b .PMU_STAT_MODE_NOW ≠ 0) ∧ (s.d.get b .PMU_ADC_CFG_AVG = 0) ∧ (x.free = {}) ∧ (s.d.bit b .PMU_ALARM_CFG_EN = false) ∧ (x.measSw = false) ∧ (x.seq ≠ .range) ∧ (overlap = false) ∧ (-0x7FFFF ≤ v) ∧ (v ≤ 0x7FFFF)) ∧
    (let g : Fin 1024 := 100; let b := pinBase g; let raw := (0x7FFFFF : BitVec 24); let overlap := false; let s := served fun d => (let d := d.put (pinBase g) .PMU_ADC_CFG_MODE (2); let d := d.put (pinBase g) .PMU_STAT_MODE_NOW ((0) + 1); d); let x := s.d.pmu g; let v := s.d.pmuAdc g (decide (x.meas = 1) && decide (s.d.get b .PMU_STAT_MODE_NOW ≠ 3)) raw.toInt; (s.d.clState (g / 32) ≤ 1) ∧ (s.d.bit b .PMU_ADC_RSTAT_BUSY = false) ∧ (s.d.get b .PMU_ADC_CFG_MODE = 2) ∧ (s.d.get b .PMU_STAT_MODE_NOW ≠ 0) ∧ (s.d.get b .PMU_ADC_CFG_AVG = 0) ∧ (x.free = {}) ∧ (s.d.bit b .PMU_ALARM_CFG_EN = false) ∧ (x.measSw = false) ∧ (x.seq ≠ .range) ∧ (overlap = false) ∧ (0x7FFFF < v)) ∧
    (let g : Fin 1024 := 100; let b := pinBase g; let overlap := true; let s := served fun d => (let d := d.put (pinBase g) .PMU_ADC_CFG_MODE (2); let d := d.put (pinBase g) .PMU_STAT_MODE_NOW ((0) + 1); d); let x := s.d.pmu g; (s.d.clState (g / 32) ≤ 1) ∧ (s.d.bit b .PMU_ADC_RSTAT_BUSY = false) ∧ (s.d.get b .PMU_ADC_CFG_MODE = 2) ∧ (s.d.get b .PMU_STAT_MODE_NOW ≠ 0) ∧ (s.d.get b .PMU_ADC_CFG_AVG = 0) ∧ (x.free = {}) ∧ (s.d.bit b .PMU_ALARM_CFG_EN = false) ∧ (overlap = true ∨ x.measSw = true ∨ x.seq = .range)) ∧
    (let g : Fin 1024 := 100; let sw : Bool := true; let s : State := served; (s.d.srcSlice (srcWord 0x28 g (if sw then 17 else 16)) = none)) := by
  refine ⟨?_, ?_, ?_, ?_, ?_, ?_, ?_, ?_, ?_, ?_, ?_⟩ <;> (try dsimp only [Dev.recorded, State.walkAt, Dev.atRoutine, Dev.atWord]) <;> decide +kernel

/-- States and operands that meet the hypotheses of clauses of `Obligations.TimeMeasurements`. -/
theorem witness_TimeMeasurements :
    (let g : Fin 1024 := 100; let b := pinBase g; let p := HPort.pcie; let s : State := served; (s.d.reaches p (b + 0x314) = true) ∧ (s.d.tdcRefused g = true)) ∧
    (let g : Fin 1024 := 100; let b := pinBase g; let p := HPort.pcie; let s := served fun d => (let d := d.put (pinBase g) .TDC_CFG_MODE 1; let d := d.put (pinBase g) .TDC_STAT_STATE (1); d); let x := s.d.tdc g; (s.d.reaches p (b + 0x314) = true) ∧ (s.d.tdcRefused g = false) ∧ (s.d.tdcState g = 1) ∧ (x.nxt = none)) ∧
    (let g : Fin 1024 := 100; let b := pinBase g; let p := HPort.pcie; let s := served fun d => (let d := d.put (pinBase g) .TDC_CFG_MODE 1; let d := d.put (pinBase g) .TDC_STAT_STATE 3; d); let x := s.d.tdc g; (s.d.reaches p (b + 0x314) = true) ∧ (s.d.tdcRefused g = false) ∧ (s.d.tdcBusy g = true) ∧ (x.nxt = none)) ∧
    (let g : Fin 1024 := 100; let b := pinBase g; let p := HPort.pcie; let s := served fun d => (let d := d.put (pinBase g) .TDC_CFG_MODE 1; let d := d.put (pinBase g) .TDC_STAT_STATE (4); d); (s.d.reaches p (b + 0x314) = true) ∧ (s.d.tdcRefused g = false) ∧ (s.d.tdcState g = 4)) ∧
    (let g : Fin 1024 := 100; let c := (100 : Nat); let t := (5000 : BitVec 64); let s := served fun d => (let d := d.setPin 100 { d.pin 100 with owner := some 100 }; let d := d.setCx 100 { d.cx 100 with hdr := some { tv := 5000, slots := 1 }, site := [100], gk := .prog 0, spans := [{ s := 100, hold := false, v := 3 }] }; let d := d.put (ctxBase 100) .CTX_STATE_STATE 3; let d := d.put (pinBase g) .TDC_CFG_MODE 2; let d := d.put (pinBase g) .TDC_STAT_STATE (1); d); let sp := ({ s := 100, hold := false, v := 3 } : Span); (s.d.actCtx g = some c) ∧ (s.d.clState (g / 32) ≤ 1) ∧ (s.d.tdcMode g = 2) ∧ (s.d.tdcState g = 1) ∧ (s.d.spanAt c t.toNat = some sp) ∧ (sp.hold = false)) ∧
    (let g : Fin 1024 := 100; let c := (100 : Nat); let t := (5000 : BitVec 64); let s := served fun d => (let d := d.setPin 100 { d.pin 100 with owner := some 100 }; let d := d.setCx 100 { d.cx 100 with hdr := some { tv := 5000, slots := 1 }, site := [100], gk := .prog 0, spans := [{ s := 100, hold := false, v := 3 }] }; let d := d.put (ctxBase 100) .CTX_STATE_STATE 3; let d := d.put (pinBase g) .TDC_CFG_MODE 2; let d := d.setCx 100 { d.cx 100 with spans := [{ s := 100, hold := true, v := 3 }] }; let d := d.put (pinBase g) .TDC_STAT_STATE (1); d); let sp := ({ s := 100, hold := true, v := 3 } : Span); (s.d.actCtx g = some c) ∧ (s.d.clState (g / 32) ≤ 1) ∧ (s.d.tdcMode g = 2) ∧ ((s.d.tdcState g = 1 ∨ s.d.tdcBusy g = true)) ∧ (s.d.spanAt c t.toNat = some sp) ∧ (sp.hold = true)) ∧
    (let g : Fin 1024 := 100; let b := pinBase g; let c := (100 : Nat); let t := (5000 : BitVec 64); let s := served fun d => (let d := d.setPin 100 { d.pin 100 with owner := some 100 }; let d := d.setCx 100 { d.cx 100 with hdr := some { tv := 5000, slots := 1 }, site := [100], gk := .prog 0, spans := [{ s := 100, hold := false, v := 3 }] }; let d := d.put (ctxBase 100) .CTX_STATE_STATE 3; let d := d.put (pinBase g) .TDC_CFG_MODE 1; let d := (d.put (pinBase g) .TDC_CFG_START_SRC 16).put (pinBase g) .TDC_CFG_STOP_SRC 16; let d := d.put (pinBase g) .TDC_CFG_FUNC 1; let d := d.setTdc g { d.tdc g with lim := 1000000, func := 1 }; let d := d.put (pinBase g) .TDC_STAT_STATE (2); d); let x := s.d.tdc g; (s.d.actCtx g = some c) ∧ (s.d.clState (g / 32) ≤ 1) ∧ (s.d.tdcMode g = 1) ∧ (s.d.tdcState g = 2) ∧ (x.nxt = none) ∧ (s.d.tdcFunc g = 1) ∧ (bitOf (s.d.get b .TDC_CFG_START_SRC) 4 = true) ∧ (x.ta ≤ t.toNat) ∧ (t.toNat ≤ x.ta + x.lim)) ∧
    (let g : Fin 1024 := 100; let b := pinBase g; let c := (100 : Nat); let t := (5000 : BitVec 64); let s := served fun d => (let d := d.setPin 100 { d.pin 100 with owner := some 100 }; let d := d.setCx 100 { d.cx 100 with hdr := some { tv := 5000, slots := 1 }, site := [100], gk := .prog 0, spans := [{ s := 100, hold := false, v := 3 }] }; let d := d.put (ctxBase 100) .CTX_STATE_STATE 3; let d := d.put (pinBase g) .TDC_CFG_MODE 1; let d := (d.put (pinBase g) .TDC_CFG_START_SRC 16).put (pinBase g) .TDC_CFG_STOP_SRC 16; let d := d.put (pinBase g) .TDC_CFG_FUNC 1; let d := d.setTdc g { d.tdc g with lim := 1000000, func := 1 }; let d := d.setTdc g { d.tdc g with func := 1 }; let d := d.put (pinBase g) .TDC_STAT_STATE (3); d); let x := s.d.tdc g; (s.d.actCtx g = some c) ∧ (s.d.clState (g / 32) ≤ 1) ∧ (s.d.tdcMode g = 1) ∧ (s.d.tdcState g = 3) ∧ (x.nxt = none) ∧ (x.func = 1) ∧ (bitOf (s.d.get b .TDC_CFG_STOP_SRC) 4 = true) ∧ (x.ta ≤ t.toNat) ∧ (t.toNat ≤ x.ta + x.lim) ∧ (x.stops = s.d.get b .TDC_CFG_NSTOP)) ∧
    (let g : Fin 1024 := 100; let c := (100 : Nat); let s := served fun d => (let d := d.setPin 100 { d.pin 100 with owner := some 100 }; let d := d.setCx 100 { d.cx 100 with hdr := some { tv := 5000, slots := 1 }, site := [100], gk := .prog 0, spans := [{ s := 100, hold := false, v := 3 }] }; let d := d.put (ctxBase 100) .CTX_STATE_STATE 3; d); (s.d.actCtx g = some c) ∧ (s.d.clState (g / 32) ≤ 1) ∧ (s.d.tdcState g = 0)) ∧
    (let g : Fin 1024 := 100; let s := served fun d => (let d := d.put (pinBase g) .TDC_STAT_STATE 3; d); let x := s.d.tdc g; (s.d.tdcBusy g = true) ∧ (x.nxt = none) ∧ (x.tips = [])) ∧
    (let g : Fin 1024 := 100; let ta := (5000 : Nat); let s := served fun d => (let d := d.put (pinBase g) .TDC_STAT_STATE 3; let d := d.setTdc g { d.tdc g with nxt := (some ta) }; d); let x := s.d.tdc g; (s.d.tdcBusy g = true) ∧ (x.nxt = some ta) ∧ (x.tips = []) ∧ (x.ta + x.lim ≤ ta)) ∧
    (let g : Fin 1024 := 100; let ta := (100 : Nat); let s := served fun d => (let d := d.put (pinBase g) .TDC_STAT_STATE 3; let d := d.setTdc g { d.tdc g with nxt := (some ta) }; d); let x := s.d.tdc g; (s.d.tdcBusy g = true) ∧ (x.nxt = some ta) ∧ (x.res = []) ∧ (ta < x.ta + x.lim) ∧ (x.ctx = none) ∧ (x.func ≤ 1)) ∧
    (let g : Fin 1024 := 100; let s : State := served; let x := s.d.tdc g; (s.d.tdcBusy g = false) ∧ (x.nxt = none)) ∧
    (let g : Fin 1024 := 100; let r := ({ status := 1, n := 3, value := 77, t0 := 5 } : TdcRes); let rs := ([] : List TdcRes); let s := served fun d => (let d := d.setTdc g { d.tdc g with res := r :: rs }; d); let x := s.d.tdc g; (x.nxt = none) ∧ (x.res = r :: rs) ∧ (r.ctx = none)) ∧
    (let g : Fin 1024 := 100; let r := ({ status := 1, n := 3, value := 77, t0 := 5, ctx := some 100 } : TdcRes); let rs := ([] : List TdcRes); let c := (100 : Nat); let s := served fun d => (let d := d.setPin 100 { d.pin 100 with owner := some 100 }; let d := d.setCx 100 { d.cx 100 with hdr := some { tv := 5000, slots := 1 }, site := [100], gk := .prog 0, spans := [{ s := 100, hold := false, v := 3 }] }; let d := d.put (ctxBase 100) .CTX_STATE_STATE 3; let d := d.setTdc g { d.tdc g with res := r :: rs }; d); let x := s.d.tdc g; (x.nxt = none) ∧ (x.res = r :: rs) ∧ (r.ctx = some c) ∧ (0 < x.tok)) ∧
    (let g : Fin 1024 := 100; let r := ({ status := 1, n := 3, value := 77, t0 := 5, ctx := some 100 } : TdcRes); let rs := ([] : List TdcRes); let c := (100 : Nat); let s := served fun d => (let d := d.setPin 100 { d.pin 100 with owner := some 100 }; let d := d.setCx 100 { d.cx 100 with hdr := some { tv := 5000, slots := 1 }, site := [100], gk := .prog 0, spans := [{ s := 100, hold := false, v := 3 }] }; let d := d.put (ctxBase 100) .CTX_STATE_STATE 3; let d := d.setTdc g { d.tdc g with tok := 0 }; let d := d.setTdc g { d.tdc g with res := r :: rs }; let d := d.setTdc g { d.tdc g with tok := 0 }; d); let x := s.d.tdc g; (x.nxt = none) ∧ (x.res = r :: rs) ∧ (r.ctx = some c) ∧ (x.tok = 0)) ∧
    (let g : Fin 1024 := 100; let b := pinBase g; let p := HPort.pcie; let e := ({ time := 9, event := 2, seq := 5 } : TdcEnt); let es := ([] : List TdcEnt); let s := served fun d => (let d := d.put (pinBase g) .TDC_CFG_MODE 1; let d := d.setTdc g { d.tdc g with fifo := e :: es }; d); let x := s.d.tdc g; (s.d.reaches p (b + 0x318) = true) ∧ (x.fifo = e :: es) ∧ (s.d.tdcMode g = 1)) ∧
    (let g : Fin 1024 := 100; let b := pinBase g; let p := HPort.pcie; let s : State := served; let x := s.d.tdc g; (s.d.reaches p (b + 0x318) = true) ∧ (x.fifo = [])) ∧
    (let g : Fin 1024 := 100; let c := (100 : Nat); let s := served fun d => (let d := d.setPin 100 { d.pin 100 with owner := some 100 }; let d := d.setCx 100 { d.cx 100 with hdr := some { tv := 5000, slots := 1 }, site := [100], gk := .prog 0, spans := [{ s := 100, hold := false, v := 3 }] }; let d := d.put (ctxBase 100) .CTX_STATE_STATE 3; let d := d.put (ctxBase c) .CTX_STATE_STATE (3); d); (s.d.service g = some c) ∧ (s.d.ctxState c = 3)) ∧
    (let g : Fin 1024 := 100; let c := (100 : Nat); let s := served fun d => (let d := d.setPin 100 { d.pin 100 with owner := some 100 }; let d := d.setCx 100 { d.cx 100 with hdr := some { tv := 5000, slots := 1 }, site := [100], gk := .prog 0, spans := [{ s := 100, hold := false, v := 3 }] }; let d := d.put (ctxBase 100) .CTX_STATE_STATE 4; let d := d.put (ctxBase c) .CTX_STATE_STATE (4); d); (s.d.service g = some c) ∧ (s.d.ctxState c = 4)) ∧
    (let n : Fin 32 := 3; let s := served fun d => (let d := d.put (tdccBase n) .PG_STAT_STATE (2); d); (s.d.get (tdccBase n) .PG_STAT_STATE = 2)) ∧
    (let n : Fin 32 := 3; let s := served fun d => (let d := d.setb calB .CAL_GAP_OPEN true; let d := d.put (calcBase n) .CAL_CL_DUE_DUE 2; d); let gap := (match s.d.calNext n with | some (_, g) => g | none => none : Option Nat); (s.d.get (tdccBase n) .PG_STAT_STATE ≠ 2) ∧ (s.d.calNext n = some (2, gap)) ∧ (s.d.calPlaces < s.d.calMaxPar) ∧ (s.d.clState n ≤ 1)) ∧
    (let n : Fin 32 := 3; let s : State := served; (s.d.get (tdccBase n) .PG_STAT_STATE ≠ 2) ∧ ((s.d.sliceBarred n = true ∨ s.d.bit calB .CAL_GAP_OPEN = false ∨ (clPins n).any (fun g => s.d.tdcBusy g && s.d.tdcMode g == 1) = true ∨ (s.d.ctxOfCluster n).any s.d.ctxActive = true))) ∧
    (let n : Fin 32 := 3; let s : State := served; (s.d.get (tdccBase n) .PG_STAT_STATE ≠ 2)) := by
  refine ⟨?_, ?_, ?_, ?_, ?_, ?_, ?_, ?_, ?_, ?_, ?_, ?_, ?_, ?_, ?_, ?_, ?_, ?_, ?_, ?_, ?_, ?_, ?_, ?_⟩ <;> (try dsimp only [Dev.recorded, State.walkAt, Dev.atRoutine, Dev.atWord]) <;> decide +kernel

/-- States and operands that meet the hypotheses of clauses of `Obligations.DevicePower`. -/
theorem witness_DevicePower :
    (let k : Fin 64 := 6; let s := served fun d => (let d := d.put (dpsBase k) .PG_STAT_STATE (2); let d := d.put (dpsBase (d.dpsSrc k)) .DPS_SLEW_STEP_STEP ((0) + 1); d); let x := s.d.dp k; let free := s.d.dpsHolding k = false; let step := s.d.get (dpsBase (s.d.dpsSrc k)) .DPS_SLEW_STEP_STEP; (free) ∧ (s.d.dpsState k = 2) ∧ (x.loop = false) ∧ (step ≠ 0) ∧ (s.d.armed 0x11 k 3 = false)) ∧
    (let k : Fin 64 := 6; let s := served fun d => (let d := d.setb fltB .FLT_INJ_CTRL_ARM true; let d := d.put fltB .FLT_INJ_SEL_SOURCE (srcWord 0x11 k 3); let d := d.put (dpsBase k) .PG_STAT_STATE (2); let d := d.put (dpsBase (d.dpsSrc k)) .DPS_SLEW_STEP_STEP ((0) + 1); d); let x := s.d.dp k; let free := s.d.dpsHolding k = false; let step := s.d.get (dpsBase (s.d.dpsSrc k)) .DPS_SLEW_STEP_STEP; (free) ∧ (s.d.dpsState k = 2) ∧ (x.loop = false) ∧ (step ≠ 0) ∧ (s.d.armed 0x11 k 3 = true) ∧ (s.d.srcSlice (srcWord 0x11 k 3) = none)) ∧
    (let k : Fin 64 := 6; let s := served fun d => (let d := d.put (dpsBase k) .PG_STAT_STATE (3); d); let x := s.d.dp k; let free := s.d.dpsHolding k = false; (free) ∧ ((s.d.dpsState k = 3 ∨ s.d.dpsState k = 2 ∧ x.loop = true)) ∧ (x.tgt < 2 ^ 20)) ∧
    (let k : Fin 64 := 6; let s := served fun d => (let d := d.put (dpsBase k) .PG_STAT_STATE (4); d); let x := s.d.dp k; let free := s.d.dpsHolding k = false; let step := s.d.get (dpsBase (s.d.dpsSrc k)) .DPS_SLEW_STEP_STEP; (free) ∧ (s.d.dpsState k = 4) ∧ (x.tgt = 0x80000) ∧ (step = 0)) ∧
    (let k : Fin 64 := 6; let s := served fun d => (let d := d.setCx 100 { d.cx 100 with hdr := some {}, site := [100] }; let d := (d.setb (dpsBase k) .DPS_CFG_OWN_EN true).put (dpsBase k) .DPS_CFG_OWNER 100; let d := d.put (ctxBase 100) .CTX_STATE_STATE 4; d); (s.d.dpsHolding k = true)) ∧
    (let k : Fin 64 := 6; let b := dpsBase k; let s := served fun d => (let d := d.put (dpsBase k) .PG_STAT_STATE (2); let d := d.setDp k { d.dp k with loop := true }; d); let x := s.d.dp k; let free := s.d.dpsHolding k = false; let now := s.d.get b .DPS_FORCE_NOW_CODE; (free) ∧ (x.defer = none) ∧ (s.d.dpsState k = 2) ∧ (x.loop = true) ∧ (now = x.tgt)) ∧
    (let k : Fin 64 := 6; let s := served fun d => (let d := d.put (dpsBase k) .PG_STAT_STATE (5); d); let x := s.d.dp k; (x.defer = none) ∧ (s.d.dpsState k = 5)) ∧
    (let k : Fin 64 := 6; let s := served fun d => (let d := d.setDp k { d.dp k with loop := true }; d); let x := s.d.dp k; (x.loop = true)) ∧
    (let k : Fin 64 := 6; let b := dpsBase k; let s := served fun d => (let d := d.setDp k { d.dp k with loop := true }; let d := d.setb (dpsBase k) .DPS_STAT_LIMITING true; d); let x := s.d.dp k; (x.loop = true) ∧ (s.d.bit b .DPS_STAT_LIMITING = true) ∧ (s.d.srcSlice (srcWord 0x11 k 0) = none)) ∧
    (let k : Fin 64 := 6; let s := served fun d => (let d := d.setDp k { d.dp k with loop := true }; d); let x := s.d.dp k; (x.loop = true) ∧ (s.d.srcSlice (srcWord 0x11 k 1) = none)) ∧
    (let k : Fin 64 := 6; let ph := 1; let s : State := served; let x := s.d.dp k; (x.loop = false) ∧ (ph ≠ 0)) ∧
    (let k : Fin 64 := 6; let s : State := served; let x := s.d.dp k; (x.loop = false)) ∧
    (let k : Fin 64 := 6; let b := dpsBase k; let s := served fun d => (let d := d.put (dpsBase k) .PG_STAT_STATE (3); d); (s.d.dpsState k = 3) ∧ (s.d.bit b .DPS_STAT_LOCAL = false) ∧ (s.d.srcSlice (srcWord 0x11 k 2) = none)) ∧
    (let k : Fin 64 := 6; let s := served fun d => (let d := d.setDp k { d.dp k with loop := true }; d); let x := s.d.dp k; (x.loop = true) ∧ (s.d.armed 0x11 k 3 = false) ∧ (s.d.srcSlice (srcWord 0x11 k 3) = none)) ∧
    (let k : Fin 64 := 6; let p : HPort := .pcie; let b := dpsBase k; let s := served fun d => (let d := d.put (dpsBase k) .DPS_MEAS_CFG_MODE (1); d); (s.d.reaches p (b + 0x80) = true) ∧ (s.d.get b .DPS_MEAS_CFG_MODE = 1)) ∧
    (let k : Fin 64 := 6; let p : HPort := .pcie; let b := dpsBase k; let s : State := served; (s.d.reaches p (b + 0x80) = true) ∧ (s.d.get b .DPS_MEAS_CFG_MODE ≠ 1)) ∧
    (let k : Fin 64 := 6; let s : State := served; ((s.d.dpsState k = 0 ∨ s.d.dpsState k = 6 ∨ s.d.dpsState k = 7))) ∧
    (let k : Fin 64 := 6; let b := dpsBase k; let rv := (5 : BitVec 24); let ri := (6 : BitVec 24); let c := (100 : Nat); let s := served fun d => (let d := d.setCx 100 { d.cx 100 with hdr := some { tv := 5000, slots := 1 }, site := [100] }; let d := (d.setb (dpsBase k) .DPS_CFG_OWN_EN true).put (dpsBase k) .DPS_CFG_OWNER 100; let d := d.put (ctxBase 100) .CTX_STATE_STATE 3; let d := d.setDp k { d.dp k with sched := { on := true } }; let d := d.put (dpsBase k) .PG_STAT_STATE 1; let d := d.put (dpsBase k) .DPS_MEAS_CFG_MODE (3); d); let x := s.d.dp k; let v := s.d.dpsAdc k 1 rv.toInt; let i := s.d.dpsAdc k (2 + x.irange) ri.toInt; (s.d.clState (k / 2) ≤ 2) ∧ (1 ≤ s.d.dpsState k) ∧ (s.d.dpsState k ≤ 5) ∧ (x.hostBusy = false) ∧ (s.d.get b .DPS_MEAS_CFG_MODE = 3) ∧ (x.sched.on = true) ∧ (x.sched.stop = none) ∧ (s.d.dpsOwner k = some c) ∧ (s.d.ctxState c = 3) ∧ (x.sched.avgLog = 0) ∧ (x.sched.avg = {}) ∧ (x.schedI = {}) ∧ (x.sched.miss = false) ∧ (s.d.dpsLeader k = none) ∧ ((-0x7FFFF < v)) ∧ (v < 0x7FFFF) ∧ ((-0x7FFFF < i)) ∧ (i < 0x7FFFF)) ∧
    (let k : Fin 64 := 6; let s := served fun d => (let d := d.setDp k { d.dp k with hostLog := 3 }; let d := d.put (dpsBase k) .PG_STAT_STATE 1; let d := d.setDp k { d.dp k with hostBusy := true }; d); let x := s.d.dp k; (1 ≤ s.d.dpsState k) ∧ (s.d.dpsState k ≤ 5) ∧ (s.d.clState (k / 2) ≤ 2) ∧ (x.hostBusy = true) ∧ (x.host.n + 1 < 2 ^ x.hostLog)) ∧
    (let k : Fin 64 := 6; let s := served fun d => (let d := d.put (dpsBase k) .PG_STAT_STATE 1; let d := d.setDp k { d.dp k with hostBusy := true }; d); let x := s.d.dp k; (1 ≤ s.d.dpsState k) ∧ (s.d.dpsState k ≤ 5) ∧ (s.d.clState (k / 2) ≤ 2) ∧ (x.hostBusy = true) ∧ (2 ^ x.hostLog ≤ x.host.n + 1) ∧ (s.d.dpsLeader k = none)) ∧
    (let k : Fin 64 := 6; let p : HPort := .pcie; let b := dpsBase k; let s : State := served; (s.d.reaches p (b + 0x60) = true) ∧ ((∀ i, i < 8 → s.d.bit (dpsBase (k / 8 * 8 + i)) .DPS_GANG_EN = true → s.d.dpsState (k / 8 * 8 + i) = 1))) ∧
    (let k : Fin 64 := 6; let p : HPort := .pcie; let b := dpsBase k; let i := 2; let s := served fun d => (let d := d.setb (dpsBase (k / 8 * 8 + i)) .DPS_GANG_EN true; d); (s.d.reaches p (b + 0x60) = true) ∧ (i < 8) ∧ (s.d.bit (dpsBase (k / 8 * 8 + i)) .DPS_GANG_EN = true) ∧ (s.d.dpsState (k / 8 * 8 + i) ≠ 1)) ∧
    (let k : Fin 64 := 6; let p : HPort := .pcie; let b := dpsBase k; let s := served fun d => (let d := d.setb (dpsBase k) .PG_CTRL_EN true; let d := d.put (dpsBase k) .PG_STAT_STATE (3); let d := d.put (dpsBase (d.dpsSrc k)) .DPS_SLEW_STEP_STEP ((0) + 1); let d := d.put (dpsBase k) .DPS_FORCE_NOW_CODE ((0x80000) + 1); d); (s.d.reaches p (b + 8) = true) ∧ (s.d.bit b .PG_CTRL_EN = true) ∧ (s.d.dpsState k = 3) ∧ (s.d.get (dpsBase (s.d.dpsSrc k)) .DPS_SLEW_STEP_STEP ≠ 0) ∧ (s.d.get b .DPS_FORCE_NOW_CODE ≠ 0x80000)) ∧
    (let k : Fin 64 := 6; let p : HPort := .pcie; let b := dpsBase k; let s := served fun d => (let d := d.setb (dpsBase k) .PG_CTRL_EN true; let d := d.put (dpsBase k) .PG_STAT_STATE (1); d); (s.d.reaches p (b + 8) = true) ∧ (s.d.bit b .PG_CTRL_EN = true) ∧ (s.d.dpsState k = 1 ∨ s.d.dpsState k = 6)) ∧
    (let k : Fin 64 := 6; let p : HPort := .pcie; let b := dpsBase k; let s := served fun d => (let d := d.setb (dpsBase k) .PG_CTRL_EN true; let d := d.put (dpsBase k) .PG_STAT_STATE (4); d); (s.d.reaches p (b + 8) = true) ∧ (s.d.bit b .PG_CTRL_EN = true) ∧ (s.d.dpsState k = 4 ∨ s.d.dpsState k = 5)) := by
  refine ⟨?_, ?_, ?_, ?_, ?_, ?_, ?_, ?_, ?_, ?_, ?_, ?_, ?_, ?_, ?_, ?_, ?_, ?_, ?_, ?_, ?_, ?_, ?_, ?_, ?_⟩ <;> (try dsimp only [Dev.recorded, State.walkAt, Dev.atRoutine, Dev.atWord]) <;> decide +kernel

/-- States and operands that meet the hypotheses of clauses of `Obligations.Generators`. -/
theorem witness_Generators :
    (let n : Fin 32 := 3; let x : Fin 4 := 1; let p : HPort := .pcie; let w := 4 * n.val + x.val; let b := genBase w; let s : State := served; let clean := s.d.armed 0x25 n x = false; let first := s.d.get b .WFG_CTRL_FIRST; (s.d.reaches p (wfgBase n + 0x104 + x.val * 0x40) = true) ∧ (s.d.forced n = false) ∧ (s.d.wfgSlice n = false) ∧ (s.d.genActive w = false) ∧ (clean) ∧ (4 ≤ s.d.get (entryBase w first) .WFG_E_LEN_LEN)) ∧
    (let n : Fin 32 := 3; let x : Fin 4 := 1; let p : HPort := .pcie; let w := 4 * n.val + x.val; let b := genBase w; let s := served fun d => (let d := d.put (entryBase 13 0) .WFG_E_LEN_LEN 3; d); let clean := s.d.armed 0x25 n x = false; let first := s.d.get b .WFG_CTRL_FIRST; (s.d.reaches p (wfgBase n + 0x104 + x.val * 0x40) = true) ∧ (s.d.forced n = false) ∧ (s.d.wfgSlice n = false) ∧ (s.d.genActive w = false) ∧ (clean) ∧ (s.d.get (entryBase w first) .WFG_E_LEN_LEN < 4)) ∧
    (let n : Fin 32 := 3; let x : Fin 4 := 1; let p : HPort := .pcie; let w := 4 * n.val + x.val; let s := served fun d => (let d := d.put (genBase 13) .WFG_STAT_STATE 1; d); let g := s.d.gen w; let own := ((s.d.genOwn w).gen w).own; (s.d.reaches p (wfgBase n + 0x104 + x.val * 0x40) = true) ∧ (s.d.forced n = false) ∧ (s.d.genActive w = true) ∧ (own = g.own)) ∧
    (let n : Fin 32 := 3; let x : Fin 4 := 1; let p : HPort := .pcie; let w := 4 * n.val + x.val; let s := served fun d => (let d := d.setBitN fltB .FLT_SAFE_MAP_CLUSTER n true; d); let g := s.d.gen w; let own := ((s.d.genOwn w).gen w).own; (s.d.reaches p (wfgBase n + 0x104 + x.val * 0x40) = true) ∧ (s.d.forced n = true) ∧ (own = g.own)) ∧
    (let n : Fin 32 := 3; let x : Fin 4 := 1; let p : HPort := .pcie; let w := 4 * n.val + x.val; let s := served fun d => (let d := d.setClu n { d.clu n with slice := 6 }; d); (s.d.reaches p (wfgBase n + 0x104 + x.val * 0x40) = true) ∧ (s.d.forced n = false) ∧ (s.d.genActive w = false) ∧ (s.d.wfgSlice n = true)) ∧
    (let n : Fin 32 := 3; let x : Fin 4 := 1; let p : HPort := .pcie; let w := 4 * n.val + x.val; let s := served fun d => (let d := d.put (genBase 13) .WFG_STAT_STATE 1; d); (s.d.reaches p (wfgBase n + 0x108 + x.val * 0x40) = true) ∧ (s.d.genActive w = true)) ∧
    (let n : Fin 32 := 3; let x : Fin 4 := 1; let p : HPort := .pcie; let w := 4 * n.val + x.val; let s : State := served; (s.d.reaches p (wfgBase n + 0x108 + x.val * 0x40) = true) ∧ (s.d.genActive w = false)) ∧
    (let n : Fin 32 := 3; let x : Fin 4 := 1; let p : HPort := .pcie; let w := 4 * n.val + x.val; let s := served fun d => (let d := d.put (genBase 13) .WFG_STAT_STATE 1; d); (s.d.reaches p (wfgBase n + 0x10C + x.val * 0x40) = true) ∧ (s.d.genActive w = true)) ∧
    (let n : Fin 32 := 3; let x : Fin 4 := 1; let p : HPort := .pcie; let w := 4 * n.val + x.val; let s : State := served; (s.d.reaches p (wfgBase n + 0x10C + x.val * 0x40) = true) ∧ (s.d.genActive w = false)) ∧
    (let n : Fin 32 := 3; let x : Fin 4 := 1; let w := 4 * n.val + x.val; let q := ({ entry := 1, ftw := 0, phase := 0, amp := 0, offset := 0, len := 8, next := 2, stop := false } : Seg); let s := served fun d => (let d := d.setGen (4 * n.val + x.val) { d.gen (4 * n.val + x.val) with seg := (some q) }; let d := d.put (genBase (4 * n.val + x.val)) .WFG_STAT_STATE (1); let d := d.setGen (4 * n.val + x.val) { d.gen (4 * n.val + x.val) with stop := true }; d); let g := s.d.gen w; (g.seg = some q) ∧ (s.d.genState w = 1) ∧ (g.lat = none) ∧ (g.stop = true)) ∧
    (let n : Fin 32 := 3; let x : Fin 4 := 1; let w := 4 * n.val + x.val; let q := ({ entry := 1, ftw := 0, phase := 0, amp := 0, offset := 0, len := 8, next := 2, stop := false } : Seg); let s := served fun d => (let d := d.setGen (4 * n.val + x.val) { d.gen (4 * n.val + x.val) with seg := (some q) }; let d := d.put (genBase (4 * n.val + x.val)) .WFG_STAT_STATE (1); d); let g := s.d.gen w; (g.seg = some q) ∧ (s.d.genState w = 1) ∧ (g.lat = none) ∧ (g.stop = false) ∧ (g.jump = none) ∧ (g.gran + 1 < q.len)) ∧
    (let n : Fin 32 := 3; let x : Fin 4 := 1; let w := 4 * n.val + x.val; let q := ({ entry := 1, ftw := 0, phase := 0, amp := 0, offset := 0, len := 8, next := 2, stop := true } : Seg); let s := served fun d => (let d := d.setGen 13 { d.gen 13 with gran := 7 }; let d := d.setGen (4 * n.val + x.val) { d.gen (4 * n.val + x.val) with seg := (some q) }; let d := d.put (genBase (4 * n.val + x.val)) .WFG_STAT_STATE (1); d); let g := s.d.gen w; (g.seg = some q) ∧ (s.d.genState w = 1) ∧ (g.lat = none) ∧ (g.stop = false) ∧ (g.jump = none) ∧ (q.len ≤ g.gran + 1) ∧ (q.stop = true)) ∧
    (let n : Fin 32 := 3; let x : Fin 4 := 1; let w := 4 * n.val + x.val; let q := ({ entry := 1, ftw := 0, phase := 0, amp := 0, offset := 0, len := 8, next := 2, stop := false } : Seg); let e := 2; let jump := false; let s := served fun d => (let d := d.setGen 13 { d.gen 13 with gran := 7 }; let d := d.setGen 13 { d.gen 13 with seg := some q }; let d := d.put (genBase 13) .WFG_STAT_STATE 1; let d := d.put (entryBase 13 2) .WFG_E_LEN_LEN 9; d); let g := s.d.gen w; let clean := s.d.armed 0x25 n x = false; (g.seg = some q) ∧ (s.d.genState w = 1) ∧ (g.lat = none) ∧ (g.stop = false) ∧ (clean) ∧ (4 ≤ s.d.get (entryBase w e) .WFG_E_LEN_LEN) ∧ ((jump = true ∧ g.jump = some e ∨ jump = false ∧ g.jump = none ∧ q.len ≤ g.gran + 1 ∧ q.stop = false ∧ q.next = e))) ∧
    (let n : Fin 32 := 3; let x : Fin 4 := 1; let w := 4 * n.val + x.val; let q := ({ entry := 1, ftw := 0, phase := 0, amp := 0, offset := 0, len := 8, next := 2, stop := false } : Seg); let s := served fun d => (let d := d.setGen (4 * n.val + x.val) { d.gen (4 * n.val + x.val) with seg := (some q) }; let d := d.put (genBase (4 * n.val + x.val)) .WFG_STAT_STATE (1); let d := d.setGen (4 * n.val + x.val) { d.gen (4 * n.val + x.val) with lat := (some .cont) }; d); let g := s.d.gen w; (g.seg = some q) ∧ (s.d.genState w = 1) ∧ (g.lat = some .cont) ∧ (g.stop = false)) ∧
    (let n : Fin 32 := 3; let x : Fin 4 := 1; let w := 4 * n.val + x.val; let q := ({ entry := 1, ftw := 0, phase := 0, amp := 0, offset := 0, len := 8, next := 2, stop := false } : Seg); let q' := ({ entry := 1, ftw := 0, phase := 0, amp := 0, offset := 0, len := 8, next := 2, stop := false } : Seg); let j := true; let s := served fun d => (let d := d.setGen (4 * n.val + x.val) { d.gen (4 * n.val + x.val) with seg := (some q) }; let d := d.put (genBase (4 * n.val + x.val)) .WFG_STAT_STATE (1); let d := d.setGen (4 * n.val + x.val) { d.gen (4 * n.val + x.val) with lat := (some (.seg q' j)) }; d); let g := s.d.gen w; (g.seg = some q) ∧ (s.d.genState w = 1) ∧ (g.lat = some (.seg q' j)) ∧ (g.stop = false)) ∧
    (let n : Fin 32 := 3; let x : Fin 4 := 1; let w := 4 * n.val + x.val; let q := ({ entry := 1, ftw := 0, phase := 0, amp := 0, offset := 0, len := 8, next := 2, stop := false } : Seg); let c := 1; let s := served fun d => (let d := d.setGen (4 * n.val + x.val) { d.gen (4 * n.val + x.val) with seg := (some q) }; let d := d.put (genBase (4 * n.val + x.val)) .WFG_STAT_STATE (1); let d := d.setGen (4 * n.val + x.val) { d.gen (4 * n.val + x.val) with lat := (some (.stop c)) }; d); let g := s.d.gen w; (g.seg = some q) ∧ (s.d.genState w = 1) ∧ (g.lat = some (.stop c)) ∧ (g.stopC ≠ 5)) ∧
    (let n : Fin 32 := 3; let x : Fin 4 := 1; let w := 4 * n.val + x.val; let s : State := served; (s.d.genState w ≠ 1)) ∧
    (let n : Fin 32 := 3; let x : Fin 4 := 1; let s : State := served; (s.d.srcSlice (srcWord 0x25 n (4 + x)) = none)) := by
  refine ⟨?_, ?_, ?_, ?_, ?_, ?_, ?_, ?_, ?_, ?_, ?_, ?_, ?_, ?_, ?_, ?_, ?_, ?_⟩ <;> (try dsimp only [Dev.recorded, State.walkAt, Dev.atRoutine, Dev.atWord]) <;> decide +kernel

/-- States and operands that meet the hypotheses of clauses of `Obligations.Acquisition`. -/
theorem witness_Acquisition :
    (let c : Fin 1024 := 100; let v := (5 : Nat); let i := ({ src := .pmu, slot := 3, val := 7 } : Inp); let rest := ([] : List (Nat × Inp)); let s := served fun d => (let d := d.put (ctxBase c) .CTX_VIDX_INDEX 20; let d := d.setCx c { d.cx c with inbox := (v, i) :: rest, aTo := 9, vec := 20 }; d); let x := s.d.cx c; let clean := s.d.armed 0x23 (c.val / 32) 0 = false ∧ s.d.armed 0x23 (c.val / 32) 1 = false; (clean) ∧ (x.endSt = none) ∧ (x.inbox = (v, i) :: rest) ∧ (v < s.d.vidx c) ∧ (v ≤ x.aTo) ∧ ((∀ k, k < 8 → (x.aslot k).takes v i = false))) ∧
    (let c : Fin 1024 := 100; let v := (5 : Nat); let i := ({ src := .strobe, slot := 3, fail := true } : Inp); let rest := ([] : List (Nat × Inp)); let k := (2 : Nat); let s := served fun d => (let d := d.put (ctxBase c) .CTX_VIDX_INDEX 20; let d := d.setCx c { d.cx c with inbox := (v, i) :: rest, aTo := 9, vec := 20 }; let d := d.setCx c { d.cx c with slots := [(2, { st := .live, kind := 1, src := 0, sel := 8 })] }; d); let x := s.d.cx c; let clean := s.d.armed 0x23 (c.val / 32) 0 = false ∧ s.d.armed 0x23 (c.val / 32) 1 = false; (clean) ∧ (x.endSt = none) ∧ (x.inbox = (v, i) :: rest) ∧ (v < s.d.vidx c) ∧ (v ≤ x.aTo) ∧ (k < 8) ∧ ((∀ j, j < 8 → ((x.aslot j).takes v i = true ↔ j = k))) ∧ ((x.aslot k).perPin = false) ∧ ((x.aslot k).kind = 1)) ∧
    (let c : Fin 1024 := 100; let v := (5 : Nat); let i := ({ src := .pmu, slot := 3, val := 7 } : Inp); let rest := ([] : List (Nat × Inp)); let k := (2 : Nat); let s := served fun d => (let d := d.put (ctxBase c) .CTX_VIDX_INDEX 20; let d := d.setCx c { d.cx c with inbox := (v, i) :: rest, aTo := 9, vec := 20 }; let d := d.setCx c { d.cx c with slots := [(2, { st := .live, kind := 3, src := 2, sel := 8 })] }; d); let x := s.d.cx c; let clean := s.d.armed 0x23 (c.val / 32) 0 = false ∧ s.d.armed 0x23 (c.val / 32) 1 = false; let a := (x.aslot k).acc 0xFF; (clean) ∧ (x.endSt = none) ∧ (x.inbox = (v, i) :: rest) ∧ (v < s.d.vidx c) ∧ (v ≤ x.aTo) ∧ (k < 8) ∧ ((∀ j, j < 8 → ((x.aslot j).takes v i = true ↔ j = k))) ∧ ((x.aslot k).perPin = false) ∧ ((x.aslot k).kind = 3) ∧ (i.src = .pmu) ∧ (a.n + 1 < 16777215)) ∧
    (let c : Fin 1024 := 100; let v := (5 : Nat); let i := ({ src := .tdcRes, slot := 3, val := 7, status := 1 } : Inp); let rest := ([] : List (Nat × Inp)); let k := (2 : Nat); let s := served fun d => (let d := d.put (ctxBase c) .CTX_VIDX_INDEX 20; let d := d.setCx c { d.cx c with inbox := (v, i) :: rest, aTo := 9, vec := 20 }; let d := d.setCx c { d.cx c with slots := [(2, { st := .live, kind := 3, src := 5, sel := 8 })] }; let d := d.setCx c { d.cx c with inbox := (v, i) :: rest }; let d := d.setCx c { d.cx c with aTo := v }; d); let x := s.d.cx c; let clean := s.d.armed 0x23 (c.val / 32) 0 = false ∧ s.d.armed 0x23 (c.val / 32) 1 = false; let a := (x.aslot k).acc 0xFF; (clean) ∧ (x.endSt = none) ∧ (x.inbox = (v, i) :: rest) ∧ (v < s.d.vidx c) ∧ (v ≤ x.aTo) ∧ (k < 8) ∧ ((∀ j, j < 8 → ((x.aslot j).takes v i = true ↔ j = k))) ∧ ((x.aslot k).perPin = false) ∧ ((x.aslot k).kind = 3) ∧ (i.src = .tdcRes) ∧ (i.inv = false) ∧ (a.n + 1 < 16777215)) ∧
    (let c : Fin 1024 := 100; let s : State := served; let x := s.d.cx c; (x.endSt = none) ∧ ((∀ e ∈ x.inbox, s.d.vidx c ≤ e.1))) ∧
    (let c : Fin 1024 := 100; let k : Fin 8 := 2; let s := served fun d => (let d := d.setCx c { d.cx c with slots := [(2, { kind := 7 })] }; d); let x := s.d.cx c; let a := x.aslot k; (a.kind = 7 ∨ a.kind = 2) ∧ (a.st ≠ .error)) ∧
    (let c : Fin 1024 := 100; let k : Fin 8 := 2; let s : State := served; let x := s.d.cx c; let a := x.aslot k; (a.kind ≠ 7) ∧ (a.kind ≠ 2)) ∧
    (let c : Fin 1024 := 100; let st := (5 : Nat); let cause := (0 : Nat); let s := served fun d => (let d := d.setCx c { d.cx c with aTo := d.vidx c }; let d := d.setCx c { d.cx c with endSt := (some (st, cause)) }; d); let x := s.d.cx c; let clean := s.d.armed 0x23 (c.val / 32) 0 = false ∧ s.d.armed 0x23 (c.val / 32) 1 = false; (clean) ∧ (x.endSt = some (st, cause))) ∧
    (let c : Fin 1024 := 100; let s : State := served; let x := s.d.cx c; (x.endSt = none)) := by
  refine ⟨?_, ?_, ?_, ?_, ?_, ?_, ?_, ?_, ?_⟩ <;> (try dsimp only [Dev.recorded, State.walkAt, Dev.atRoutine, Dev.atWord]) <;> decide +kernel

/-- States and operands that meet the hypotheses of clauses of `Obligations.RingsAndMailboxes`. -/
theorem witness_RingsAndMailboxes :
    (let k : Fin 64 := 5; let n : Fin 32 := 3; let r := ({ cl := 3, ctx := 100, run := 1, annot := false, dest := .ring k, words := [1,2,3,4,5,6,7,8] } : BRec); let rest := ([] : List BRec); let s := served fun d => (let d := (d.setb (ringBase k) .RES_RING_CFG_EN true).put (ringBase k) .RES_RING_CFG_LOG2 10; let d := { d with bufs := r :: rest }; d); (s.d.dmaUp = true) ∧ (s.d.bufs = r :: rest) ∧ (r.cl = n.val) ∧ (r.dest = .ring k) ∧ (s.d.ringOpen k = true) ∧ (s.d.recFree [] r = true) ∧ (s.d.armed 0x0C 0 0 = false)) ∧
    (let s := served fun d => (let d := d.setb hifB .HIF_LINK_UP false; d); (s.d.dmaUp = false)) ∧
    (let k : Fin 64 := 5; let b := ringBase k; let s := served fun d => (let d := { d with coal := [(5, 1)] }; let d := d.setb (ringBase k) .RES_RING_CFG_IRQ_EN true; d); (Tab.get (fun _ => 0) s.d.coal k ≠ 0) ∧ (s.d.bit b .RES_RING_CFG_IRQ_EN = true)) ∧
    (let k : Fin 64 := 5; let b := ringBase k; let s : State := served; (Tab.get (fun _ => 0) s.d.coal k = 0 ∨ s.d.bit b .RES_RING_CFG_IRQ_EN = false)) ∧
    (let k : Fin 64 := 5; let b := ringBase k; let p := HPort.pcie; let v := (0 : Word); let s : State := served; let prod := s.d.get b .RES_RING_PROD_PROD; (s.d.reaches p (b + 0x10C) = true) ∧ ((prod + 2 ^ 32 - v.toNat) % 2 ^ 32 ≤ 2 ^ s.d.ringLog k)) ∧
    (let k : Fin 64 := 5; let b := ringBase k; let p := HPort.pcie; let v := (0xFFF00000 : Word); let s : State := served; let prod := s.d.get b .RES_RING_PROD_PROD; (s.d.reaches p (b + 0x10C) = true) ∧ (2 ^ s.d.ringLog k < (prod + 2 ^ 32 - v.toNat) % 2 ^ 32)) ∧
    (let k : Fin 64 := 5; let b := ringBase k; let p := HPort.pcie; let v := (0x10A : Word); let s : State := served; (s.d.reaches p (b + 0x108) = true) ∧ (s.d.bit b .RES_RING_CFG_EN = false) ∧ (bitOf v.toNat 8 = true)) ∧
    (let k : Fin 64 := 5; let b := ringBase k; let p := HPort.pcie; let s := served fun d => (let d := d.setb (ringBase k) .RES_RING_CFG_EN true; d); (s.d.reaches p (b + 0x108) = true) ∧ (s.d.bit b .RES_RING_CFG_EN = true)) ∧
    (let m : Fin 8 := 2; let n : Fin 32 := 3; let r := ({ cl := 3, ctx := 100, run := 1, annot := false, dest := .mb m, words := [1,2,3,4,5,6,7,8] } : BRec); let rest := ([] : List BRec); let s := served fun d => (let d := { d with bufs := r :: rest }; d); (s.d.bufs = r :: rest) ∧ (r.cl = n.val) ∧ (r.dest = .mb m) ∧ ((s.d.mb m).length < 64) ∧ (s.d.recFree [] r = true) ∧ (s.d.armed 0x0C 0 0 = false)) ∧
    (let s : State := served; (s.d.bufs = [])) ∧
    (let m : Fin 8 := 2; let p : HPort := HPort.pcie; let b := mbBase m; let r := ({ cl := 3, ctx := 100, run := 1, annot := false, dest := .mb m, words := [1,2,3,4,5,6,7,8] } : BRec); let rs := ([] : List BRec); let s := served fun d => (let d := d.setMb m (r :: rs); d); (s.d.reaches p (b + 0x908) = true) ∧ (s.d.mb m = r :: rs) ∧ (r.words.length = 8) ∧ (rs.length < 64)) ∧
    (let m : Fin 8 := 2; let p : HPort := HPort.pcie; let b := mbBase m; let s : State := served; (s.d.reaches p (b + 0x908) = true) ∧ (s.d.mb m = [])) ∧
    (let m : Fin 8 := 2; let p : HPort := HPort.pcie; let b := mbBase m; let r := ({ cl := 3, ctx := 100, run := 1, annot := false, dest := .mb m, words := [1,2,3,4,5,6,7,8] } : BRec); let rs := ([] : List BRec); let s := served fun d => (let d := d.setMb m (r :: rs); d); (s.d.reaches p (b + 0x910) = true) ∧ (s.d.mb m = r :: rs) ∧ (rs.length < 64)) ∧
    (let m : Fin 8 := 2; let p : HPort := HPort.pcie; let b := mbBase m; let s : State := served; (s.d.reaches p (b + 0x910) = true) ∧ (s.d.mb m = [])) ∧
    (let m : Fin 8 := 2; let p : HPort := HPort.pcie; let b := mbBase m; let v := (0xC0000064 : Word); let s : State := served; (s.d.reaches p (b + 0x900) = true) ∧ (s.d.ctxOwning (s.d.get b .RES_MB_CFG_CTX) = false) ∧ (s.d.ctxOwning (v.toNat % 1024) = false)) ∧
    (let m : Fin 8 := 2; let p : HPort := HPort.pcie; let b := mbBase m; let v := (0 : Word); let s := served fun d => (let d := (d.put (mbBase m) .RES_MB_CFG_CTX 100).put (ctxBase 100) .CTX_STATE_STATE 3; let d := d.setb (mbBase m) .RES_MB_CFG_EN true; let d := d.put (mbBase m) .RES_MB_CFG_CTX 100; let d := d.put (ctxBase 100) .CTX_STATE_STATE 3; d); (s.d.reaches p (b + 0x900) = true) ∧ (s.d.mbOf (s.d.get b .RES_MB_CFG_CTX) = some m.val) ∧ (s.d.ctxOwning (s.d.get b .RES_MB_CFG_CTX) = true) ∧ ((bitOf v.toNat 31 = false ∨ s.d.get b .RES_MB_CFG_CTX ≠ v.toNat % 1024))) ∧
    (let p : HPort := HPort.pcie; let j : Fin 256 := 25; let s : State := served; (s.d.reaches p (resB + 0xC00 + 4 * j) = true) ∧ ((∀ i, i < 4 → s.d.ctxOwning (4 * j + i) = false))) ∧
    (let p : HPort := HPort.pcie; let j : Fin 256 := 25; let v := (0 : Word); let a := resB + 0xC00 + 4 * j.val; let i := (1 : Nat); let s := served fun d => (let d := d.setWord (resB + 0xC00 + 4 * 25) 0x85868788; let d := d.put (ctxBase 101) .CTX_STATE_STATE 3; d); (s.d.reaches p (resB + 0xC00 + 4 * j) = true) ∧ (i < 4) ∧ (s.d.ctxOwning (4 * j + i) = true) ∧ (s.d.mbOf (4 * j + i) = none) ∧ (s.d.word a / 256 ^ i % 256 / 128 = 1) ∧ (bitOf v.toNat (8 * i + 7) = false)) := by
  refine ⟨?_, ?_, ?_, ?_, ?_, ?_, ?_, ?_, ?_, ?_, ?_, ?_, ?_, ?_, ?_, ?_, ?_, ?_⟩ <;> (try dsimp only [Dev.recorded, State.walkAt, Dev.atRoutine, Dev.atWord]) <;> decide +kernel

/-- States and operands that meet the hypotheses of clauses of `Obligations.ContextCommands`. -/
theorem witness_ContextCommands :
    (let p : HPort := .pcie; let c : Fin 1024 := 100; let b := ctxBase c; let s : State := served; (s.d.reaches p (b + 0x10) = true) ∧ (s.d.ctxState c ∈ [0, 1, 5, 6])) ∧
    (let p : HPort := .pcie; let c : Fin 1024 := 100; let b := ctxBase c; let s := served fun d => (let d := d.put (ctxBase c) .CTX_STATE_STATE 3; d); (s.d.reaches p (b + 0x10) = true) ∧ (s.d.ctxState c ∉ [0, 1, 5, 6])) ∧
    (let p : HPort := .pcie; let c : Fin 1024 := 100; let b := ctxBase c; let s := served fun d => (let d := d.put (ctxBase c) .CTX_STATE_STATE (1); d); (s.d.reaches p (b + 0x14) = true) ∧ (s.d.ctxState c ∈ [1, 5, 6])) ∧
    (let p : HPort := .pcie; let c : Fin 1024 := 100; let b := ctxBase c; let s := served fun d => (let d := d.put (ctxBase c) .CTX_STATE_STATE 2; d); (s.d.reaches p (b + 0x14) = true) ∧ (s.d.ctxState c ∉ [1, 5, 6])) ∧
    (let p : HPort := .pcie; let c : Fin 1024 := 100; let b := ctxBase c; let s := served fun d => (let d := d.put (ctxBase c) .CTX_STATE_STATE (2); d); (s.d.reaches p (b + 0x18) = true) ∧ (s.d.ctxState c = 2)) ∧
    (let p : HPort := .pcie; let c : Fin 1024 := 100; let b := ctxBase c; let s := served fun d => (let d := d.put (ctxBase c) .CTX_STATE_STATE (7); d); (s.d.reaches p (b + 0x18) = true) ∧ (s.d.ctxState c = 7) ∧ (s.d.clkState ≠ 3) ∧ (s.d.bit hifB .HIF_ERR_FIRST_VALID = false)) ∧
    (let p : HPort := .pcie; let c : Fin 1024 := 100; let b := ctxBase c; let s : State := served; (s.d.reaches p (b + 0x18) = true) ∧ (s.d.ctxState c ≠ 2) ∧ (s.d.ctxState c ≠ 7)) ∧
    (let p : HPort := .pcie; let c : Fin 1024 := 100; let b := ctxBase c; let s := served fun d => (let d := d.put (ctxBase c) .CTX_STATE_STATE 3; d); (s.d.reaches p (b + 0x1C) = true) ∧ (s.d.ctxActive c = true) ∧ ((s.d.cx c).req ≠ 2)) ∧
    (let p : HPort := .pcie; let c : Fin 1024 := 100; let b := ctxBase c; let s : State := served; (s.d.reaches p (b + 0x1C) = true) ∧ (s.d.ctxActive c = false)) ∧
    (let p : HPort := .pcie; let c : Fin 1024 := 100; let b := ctxBase c; let s := served fun d => (let d := d.put (ctxBase c) .CTX_STATE_STATE 3; d); (s.d.reaches p (b + 0x20) = true) ∧ (s.d.ctxActive c = true) ∧ ((s.d.cx c).req ≠ 2)) ∧
    (let p : HPort := .pcie; let c : Fin 1024 := 100; let b := ctxBase c; let s := served fun d => (let d := d.put (ctxBase c) .CTX_STATE_STATE 3; let d := d.setCx c { d.cx c with req := 2 }; d); (s.d.reaches p (b + 0x20) = true) ∧ (s.d.ctxActive c = true) ∧ ((s.d.cx c).req = 2)) ∧
    (let p : HPort := .pcie; let c : Fin 1024 := 100; let b := ctxBase c; let s : State := served; (s.d.reaches p (b + 0x20) = true) ∧ (s.d.ctxActive c = false)) ∧
    (let p : HPort := .pcie; let c : Fin 1024 := 100; let b := ctxBase c; let s := served fun d => (let d := d.put (ctxBase c) .CTX_STATE_STATE (2); d); (s.d.reaches p (b + 0x24) = true) ∧ (s.d.ctxState c ∈ [2, 5, 6, 7])) ∧
    (let p : HPort := .pcie; let c : Fin 1024 := 100; let b := ctxBase c; let s := served fun d => (let d := d.put (ctxBase c) .CTX_STATE_STATE 3; let d := d.put (ctxBase c) .CTX_STATE_STATE 3; d); (s.d.reaches p (b + 0x24) = true) ∧ (s.d.ctxState c ∉ [2, 5, 6, 7])) ∧
    (let p : HPort := .pcie; let c : Fin 1024 := 100; let b := ctxBase c; let s : State := served; (s.d.reaches p (b + 0x24) = true) ∧ (s.d.ctxActive c = false)) ∧
    (let p : HPort := .pcie; let c : Fin 1024 := 100; let b := ctxBase c; let s := served fun d => (let d := d.put (ctxBase c) .CTX_STATE_STATE 3; d); (s.d.reaches p (b + 0x24) = true) ∧ (s.d.ctxActive c = true)) := by
  refine ⟨?_, ?_, ?_, ?_, ?_, ?_, ?_, ?_, ?_, ?_, ?_, ?_, ?_, ?_, ?_, ?_⟩ <;> (try dsimp only [Dev.recorded, State.walkAt, Dev.atRoutine, Dev.atWord]) <;> decide +kernel

/-- States and operands that meet the hypotheses of clauses of `Obligations.ContextRoutines`. -/
theorem witness_ContextRoutines :
    (let n : Fin 32 := 3; let r : URun := ({ rtn := { slot := 0x20, ctx := 100, arg := 65536 } } : URun); let c := r.rtn.ctx; let s := served fun d => (let d := d.setEng n { d.eng n with run := some r }; let d := d.setb patB .PAT_STORE_READY true; d); let s : State := { s with store := ([(65536, 49), (65537, 86), (65538, 72), (65539, 90), (65540, 1), (65542, 1), (65543, 1), (65544, 136), (65545, 19), (65553, 4), (65560, 3), (65564, 64), (65569, 8), (65576, 8), (65585, 12), (65592, 1), (65594, 1), (65601, 16), (65609, 20), (65617, 24), (65624, 1), (65626, 1), (65660, 63), (65661, 153), (65662, 17), (65663, 218), (66565, 4), (66567, 8), (66568, 1), (66573, 4), (66575, 16), (66583, 144)] : Tab Byte) }; let h := readHdr (s.d.view s.store) r.rtn.arg; (s.d.atRoutine n r 0x20) ∧ (s.d.ctxState c ∈ [0, 1, 5, 6]) ∧ (hdrOk (s.d.view s.store) h = true)) ∧
    (let n : Fin 32 := 3; let r : URun := ({ rtn := { slot := 0x20, ctx := 100, arg := 0 } } : URun); let c := r.rtn.ctx; let s := served fun d => (let d := d.setEng n { d.eng n with run := some r }; let d := d.setb patB .PAT_STORE_READY true; d); let s : State := { s with store := ([(65536, 49), (65537, 86), (65538, 72), (65539, 90), (65540, 1), (65542, 1), (65543, 1), (65544, 136), (65545, 19), (65553, 4), (65560, 3), (65564, 64), (65569, 8), (65576, 8), (65585, 12), (65592, 1), (65594, 1), (65601, 16), (65609, 20), (65617, 24), (65624, 1), (65626, 1), (65660, 63), (65661, 153), (65662, 17), (65663, 218), (66565, 4), (66567, 8), (66568, 1), (66573, 4), (66575, 16), (66583, 144)] : Tab Byte) }; let h := readHdr (s.d.view s.store) r.rtn.arg; (s.d.atRoutine n r 0x20) ∧ (s.d.ctxState c ∈ [0, 1, 5, 6]) ∧ (hdrOk (s.d.view s.store) h = false)) ∧
    (let n : Fin 32 := 3; let r : URun := ({ rtn := { slot := 0x21, ctx := 100, arg := 0 } } : URun); let c := r.rtn.ctx; let h := ({ base := 0x10000, slots := 1, tv := 5001, opsOff := 0x400, opsCount := 3, granBytes := 64, symOff := 0x800, symCount := 8, timOff := 0xC00, timCount := 1, wsmCount := 1, wsmOff := 0x1000, auxOff := 0x1400, redOff := 0x1800, redCount := 1, maskCount := 1 } : Hdr); let cause := (3 : Nat); let slot := (0xFF : Nat); let s := served fun d => (let d := d.setEng n { d.eng n with run := some r }; let d := d.setb patB .PAT_STORE_READY true; let d := d.setWord (ctxBase c + 0x40) 0x81; let d := d.put (vpBase 0) .CLK_VP_PERIOD_PERIOD 5000; let d := d.setCx r.rtn.ctx { d.cx r.rtn.ctx with hdr := (some h) }; let d := d.put (ctxBase r.rtn.ctx) .CTX_STATE_STATE (1); d); let s : State := { s with store := ([(65536, 49), (65537, 86), (65538, 72), (65539, 90), (65540, 1), (65542, 1), (65543, 1), (65544, 136), (65545, 19), (65553, 4), (65560, 3), (65564, 64), (65569, 8), (65576, 8), (65585, 12), (65592, 1), (65594, 1), (65601, 16), (65609, 20), (65617, 24), (65624, 1), (65626, 1), (65660, 63), (65661, 153), (65662, 17), (65663, 218), (66565, 4), (66567, 8), (66568, 1), (66573, 4), (66575, 16), (66583, 144)] : Tab Byte) }; let x := s.d.cx c; (x.hdr = some h) ∧ (s.d.atRoutine n r 0x21) ∧ (s.d.ctxState c ∈ [1, 5, 6]) ∧ (s.d.armCause c h = some (cause, slot)) ∧ (n.val = c / 32)) ∧
    (let n : Fin 32 := 3; let r : URun := ({ rtn := { slot := 0x21, ctx := 100, arg := 0 } } : URun); let c := r.rtn.ctx; let h := ({ base := 0x10000, slots := 1, tv := 5000, opsOff := 0x400, opsCount := 3, granBytes := 64, symOff := 0x800, symCount := 8, timOff := 0xC00, timCount := 1, wsmCount := 1, wsmOff := 0x1000, auxOff := 0x1400, redOff := 0x1800, redCount := 1, maskCount := 1 } : Hdr); let s := served fun d => (let d := d.setEng n { d.eng n with run := some r }; let d := d.setb patB .PAT_STORE_READY true; let d := d.setWord (ctxBase c + 0x40) 0x81; let d := d.put (vpBase 0) .CLK_VP_PERIOD_PERIOD 5000; let d := d.setCx r.rtn.ctx { d.cx r.rtn.ctx with hdr := (some h) }; let d := d.put (ctxBase r.rtn.ctx) .CTX_STATE_STATE (1); d); let s : State := { s with store := ([(65536, 49), (65537, 86), (65538, 72), (65539, 90), (65540, 1), (65542, 1), (65543, 1), (65544, 136), (65545, 19), (65553, 4), (65560, 3), (65564, 64), (65569, 8), (65576, 8), (65585, 12), (65592, 1), (65594, 1), (65601, 16), (65609, 20), (65617, 24), (65624, 1), (65626, 1), (65660, 63), (65661, 153), (65662, 17), (65663, 218), (66565, 4), (66567, 8), (66568, 1), (66573, 4), (66575, 16), (66583, 144)] : Tab Byte) }; let x := s.d.cx c; (x.hdr = some h) ∧ (s.d.atRoutine n r 0x21) ∧ (s.d.ctxState c ∈ [1, 5, 6]) ∧ (s.d.armCause c h = none) ∧ (n.val = c / 32) ∧ (((s.d.armStages s.store c h).walkAll s.store h r.rtn).ovf = false)) ∧
    (let n : Fin 32 := 3; let r : URun := ({ rtn := { slot := 0x22, ctx := 100, arg := 0 } } : URun); let c := r.rtn.ctx; let h := ({ tv := 5000, slots := 1 } : Hdr); let s := served fun d => (let d := d.setEng n { d.eng n with run := some r }; let d := d.setb patB .PAT_STORE_READY true; let d := d.setCx r.rtn.ctx { d.cx r.rtn.ctx with hdr := (some h) }; let d := d.put (ctxBase r.rtn.ctx) .CTX_STATE_STATE (2); d); let s : State := { s with store := ([(65536, 49), (65537, 86), (65538, 72), (65539, 90), (65540, 1), (65542, 1), (65543, 1), (65544, 136), (65545, 19), (65553, 4), (65560, 3), (65564, 64), (65569, 8), (65576, 8), (65585, 12), (65592, 1), (65594, 1), (65601, 16), (65609, 20), (65617, 24), (65624, 1), (65626, 1), (65660, 63), (65661, 153), (65662, 17), (65663, 218), (66565, 4), (66567, 8), (66568, 1), (66573, 4), (66575, 16), (66583, 144)] : Tab Byte) }; let x := s.d.cx c; (x.hdr = some h) ∧ (s.d.atRoutine n r 0x22) ∧ (s.d.ctxState c = 2)) ∧
    (let n : Fin 32 := 3; let r : URun := ({ rtn := { slot := 0x23, ctx := 100, arg := 0 } } : URun); let c := r.rtn.ctx; let h := ({ base := 0x10000, slots := 1, tv := 5000, opsOff := 0x400, opsCount := 3, granBytes := 64, symOff := 0x800, symCount := 8, timOff := 0xC00, timCount := 1, wsmCount := 1, wsmOff := 0x1000, auxOff := 0x1400, redOff := 0x1800, redCount := 1, maskCount := 1 } : Hdr); let l := ({ next := 1 } : Leaf); let s := served fun d => (let d := d.setEng n { d.eng n with run := some r }; let d := d.setb patB .PAT_STORE_READY true; let d := d.put (ctxBase 100) .CTX_STATE_STATE 3; let d := d.setCx r.rtn.ctx { d.cx r.rtn.ctx with hdr := (some h) }; let d := d.setCx r.rtn.ctx { d.cx r.rtn.ctx with chosen := (some l) }; d); let s : State := { s with store := ([(65536, 49), (65537, 86), (65538, 72), (65539, 90), (65540, 1), (65542, 1), (65543, 1), (65544, 136), (65545, 19), (65553, 4), (65560, 3), (65564, 64), (65569, 8), (65576, 8), (65585, 12), (65592, 1), (65594, 1), (65601, 16), (65609, 20), (65617, 24), (65624, 1), (65626, 1), (65660, 63), (65661, 153), (65662, 17), (65663, 218), (66565, 4), (66567, 8), (66568, 1), (66573, 4), (66575, 16), (66583, 144)] : Tab Byte) }; let x := s.d.cx c; (x.hdr = some h) ∧ (x.chosen = some l) ∧ (s.d.atRoutine n r 0x23) ∧ (s.d.ctxActive c = true) ∧ ((s.d.walkAll s.store h r.rtn).ovf = false) ∧ (x.table = none)) ∧
    (let n : Fin 32 := 3; let r : URun := ({ rtn := { slot := 0x24, ctx := 100, arg := 0 } } : URun); let c := r.rtn.ctx; let h := ({ base := 0x10000, slots := 1, tv := 5000, opsOff := 0x400, opsCount := 3, granBytes := 64, symOff := 0x800, symCount := 8, timOff := 0xC00, timCount := 1, wsmCount := 1, wsmOff := 0x1000, auxOff := 0x1400, redOff := 0x1800, redCount := 1, maskCount := 1 } : Hdr); let s := served fun d => (let d := d.setEng n { d.eng n with run := some r }; let d := d.setb patB .PAT_STORE_READY true; let d := d.put (ctxBase 100) .CTX_STATE_STATE 3; let d := d.setCx r.rtn.ctx { d.cx r.rtn.ctx with hdr := (some h) }; let d := d.setCx r.rtn.ctx { d.cx r.rtn.ctx with req := 1 }; d); let s : State := { s with store := ([(65536, 49), (65537, 86), (65538, 72), (65539, 90), (65540, 1), (65542, 1), (65543, 1), (65544, 136), (65545, 19), (65553, 4), (65560, 3), (65564, 64), (65569, 8), (65576, 8), (65585, 12), (65592, 1), (65594, 1), (65601, 16), (65609, 20), (65617, 24), (65624, 1), (65626, 1), (65660, 63), (65661, 153), (65662, 17), (65663, 218), (66565, 4), (66567, 8), (66568, 1), (66573, 4), (66575, 16), (66583, 144)] : Tab Byte) }; let x := s.d.cx c; (x.hdr = some h) ∧ (s.d.atRoutine n r 0x24) ∧ (s.d.ctxActive c = true) ∧ (x.req = 1) ∧ ((s.d.walkAll s.store h r.rtn).ovf = false) ∧ (x.table = none)) ∧
    (let n : Fin 32 := 3; let r : URun := ({ rtn := { slot := 0x25, ctx := 100, arg := 0 } } : URun); let c := r.rtn.ctx; let s := served fun d => (let d := d.setEng n { d.eng n with run := some r }; let d := d.setb patB .PAT_STORE_READY true; let d := d.put (ctxBase 100) .CTX_STATE_STATE 3; let d := d.setCx r.rtn.ctx { d.cx r.rtn.ctx with req := 2 }; d); let s : State := { s with store := ([(65536, 49), (65537, 86), (65538, 72), (65539, 90), (65540, 1), (65542, 1), (65543, 1), (65544, 136), (65545, 19), (65553, 4), (65560, 3), (65564, 64), (65569, 8), (65576, 8), (65585, 12), (65592, 1), (65594, 1), (65601, 16), (65609, 20), (65617, 24), (65624, 1), (65626, 1), (65660, 63), (65661, 153), (65662, 17), (65663, 218), (66565, 4), (66567, 8), (66568, 1), (66573, 4), (66575, 16), (66583, 144)] : Tab Byte) }; let x := s.d.cx c; (s.d.atRoutine n r 0x25) ∧ (s.d.ctxActive c = true) ∧ (x.req = 2) ∧ ((∀ t, x.table = some t → t.tag ≠ .react))) ∧
    (let n : Fin 32 := 3; let r : URun := ({ rtn := { slot := 0x26, ctx := 100, arg := 1 } } : URun); let c := r.rtn.ctx; let s := served fun d => (let d := d.setEng n { d.eng n with run := some r }; let d := d.setb patB .PAT_STORE_READY true; d); let s : State := { s with store := ([(65536, 49), (65537, 86), (65538, 72), (65539, 90), (65540, 1), (65542, 1), (65543, 1), (65544, 136), (65545, 19), (65553, 4), (65560, 3), (65564, 64), (65569, 8), (65576, 8), (65585, 12), (65592, 1), (65594, 1), (65601, 16), (65609, 20), (65617, 24), (65624, 1), (65626, 1), (65660, 63), (65661, 153), (65662, 17), (65663, 218), (66565, 4), (66567, 8), (66568, 1), (66573, 4), (66575, 16), (66583, 144)] : Tab Byte) }; (s.d.atRoutine n r 0x26) ∧ (r.rtn.arg = 1) ∧ (s.d.ctxActive c = false)) ∧
    (let n : Fin 32 := 3; let r : URun := ({ rtn := { slot := 0x26, ctx := 100, arg := 0 } } : URun); let c := r.rtn.ctx; let s := served fun d => (let d := d.setEng n { d.eng n with run := some r }; let d := d.setb patB .PAT_STORE_READY true; let d := d.put (ctxBase r.rtn.ctx) .CTX_STATE_STATE (2); d); let s : State := { s with store := ([(65536, 49), (65537, 86), (65538, 72), (65539, 90), (65540, 1), (65542, 1), (65543, 1), (65544, 136), (65545, 19), (65553, 4), (65560, 3), (65564, 64), (65569, 8), (65576, 8), (65585, 12), (65592, 1), (65594, 1), (65601, 16), (65609, 20), (65617, 24), (65624, 1), (65626, 1), (65660, 63), (65661, 153), (65662, 17), (65663, 218), (66565, 4), (66567, 8), (66568, 1), (66573, 4), (66575, 16), (66583, 144)] : Tab Byte) }; (s.d.atRoutine n r 0x26) ∧ (r.rtn.arg ≠ 1) ∧ (s.d.ctxState c ∈ [2, 5, 6, 7])) ∧
    (let n : Fin 32 := 3; let r : URun := ({ rtn := { slot := 0x27, ctx := 100, arg := 9 } } : URun); let c := r.rtn.ctx; let s := served fun d => (let d := d.setEng n { d.eng n with run := some r }; let d := d.setb patB .PAT_STORE_READY true; let d := d.put (ctxBase 100) .CTX_STATE_STATE 3; d); let s : State := { s with store := ([(65536, 49), (65537, 86), (65538, 72), (65539, 90), (65540, 1), (65542, 1), (65543, 1), (65544, 136), (65545, 19), (65553, 4), (65560, 3), (65564, 64), (65569, 8), (65576, 8), (65585, 12), (65592, 1), (65594, 1), (65601, 16), (65609, 20), (65617, 24), (65624, 1), (65626, 1), (65660, 63), (65661, 153), (65662, 17), (65663, 218), (66565, 4), (66567, 8), (66568, 1), (66573, 4), (66575, 16), (66583, 144)] : Tab Byte) }; let x := s.d.cx c; (s.d.atRoutine n r 0x27) ∧ (s.d.ctxActive c = true) ∧ (n.val = c / 32) ∧ ((∀ t, x.table = some t → t.tag ≠ .react))) ∧
    (let n : Fin 32 := 3; let r : URun := ({ rtn := { slot := 0x27, ctx := 100, arg := 9 } } : URun); let c := r.rtn.ctx; let s := served fun d => (let d := d.setEng n { d.eng n with run := some r }; let d := d.setb patB .PAT_STORE_READY true; let d := d.put (ctxBase r.rtn.ctx) .CTX_STATE_STATE (2); d); let s : State := { s with store := ([(65536, 49), (65537, 86), (65538, 72), (65539, 90), (65540, 1), (65542, 1), (65543, 1), (65544, 136), (65545, 19), (65553, 4), (65560, 3), (65564, 64), (65569, 8), (65576, 8), (65585, 12), (65592, 1), (65594, 1), (65601, 16), (65609, 20), (65617, 24), (65624, 1), (65626, 1), (65660, 63), (65661, 153), (65662, 17), (65663, 218), (66565, 4), (66567, 8), (66568, 1), (66573, 4), (66575, 16), (66583, 144)] : Tab Byte) }; (s.d.atRoutine n r 0x27) ∧ (s.d.ctxState c = 2) ∧ (n.val = c / 32)) := by
  refine ⟨?_, ?_, ?_, ?_, ?_, ?_, ?_, ?_, ?_, ?_, ?_, ?_⟩ <;> (try dsimp only [Dev.recorded, State.walkAt, Dev.atRoutine, Dev.atWord]) <;> decide +kernel

/-- States and operands that meet the hypotheses of clauses of `Obligations.ServiceRoutines`. -/
theorem witness_ServiceRoutines :
    (let n : Fin 32 := 3; let r : URun := ({ rtn := { slot := 0x28, ctx := 100, arg := 0 } } : URun); let b := calcBase n; let s := served fun d => (let d := d.setEng n { d.eng n with run := some r }; let d := d.put (calcBase n) .CAL_CL_PEND_PEND ((0) + 1); let d := d.setBitN (calcBase n) .CAL_CL_CTRL_ACT_AT 2 false; d); (s.d.atRoutine n r 0x28) ∧ (s.d.get b .CAL_CL_PEND_PEND ≠ 0) ∧ ((s.d.clu n).calEnd = none) ∧ (s.d.calForeign n = false) ∧ (s.d.bitN b .CAL_CL_CTRL_ACT_AT 2 = false)) ∧
    (let n : Fin 32 := 3; let r : URun := ({ rtn := { slot := 0x28, ctx := 100, arg := 0 } } : URun); let b := calcBase n; let s := served fun d => (let d := d.setEng n { d.eng n with run := some r }; let d := { d with calS := [(3 * calSize + 2, 9)] }; let d := d.put (calcBase n) .CAL_CL_PEND_PEND ((0) + 1); d); (s.d.atRoutine n r 0x28) ∧ (s.d.get b .CAL_CL_PEND_PEND ≠ 0) ∧ ((s.d.clu n).calEnd = none) ∧ (s.d.calForeign n = true)) ∧
    (let n : Fin 32 := 3; let r : URun := ({ rtn := { slot := 0x29, ctx := 100, arg := 0 } } : URun); let w0 := (1 : Word); let w1 := (2 : Word); let w2 := (3 : Word); let w3 := (4 : Word); let s := served fun d => (let d := d.setEng n { d.eng n with run := some r }; let d := d.setClu n { d.clu n with cap := (some [w0, w1, w2, w3]) }; d); let k := s.d.get (pmccBase n) .PMC_SMP_STAT_LEVEL; (s.d.atRoutine n r 0x29) ∧ ((s.d.clu n).cap = some [w0, w1, w2, w3]) ∧ (k < 64)) ∧
    (let n : Fin 32 := 3; let r : URun := ({ rtn := { slot := 0x29, ctx := 100, arg := 0 } } : URun); let ws := [(1 : Word), 2, 3, 4]; let s := served fun d => (let d := d.setEng n { d.eng n with run := some r }; let d := d.setClu n { d.clu n with cap := (some ws) }; let d := d.put (pmccBase n) .PMC_SMP_STAT_LEVEL (64); d); let k := s.d.get (pmccBase n) .PMC_SMP_STAT_LEVEL; (s.d.atRoutine n r 0x29) ∧ ((s.d.clu n).cap = some ws) ∧ (k = 64)) := by
  refine ⟨?_, ?_, ?_, ?_⟩ <;> (try dsimp only [Dev.recorded, State.walkAt, Dev.atRoutine, Dev.atWord]) <;> decide +kernel

/-- States and operands that meet the hypotheses of clauses of `Obligations.WalkLeaves`. -/
theorem witness_WalkLeaves :
    (let n : Fin 32 := 3; let r : URun := ({ rtn := { slot := 0x23, ctx := 100 }, begun := true, work := ({ opidx := 1, stack := [], map := 2, hf := 9, care := 0, value := 0 } : Path) :: [{ opidx := 2, stack := [], map := 0, hf := 0 }] } : URun); let h : Hdr := ({ base := 0x10000, slots := 1, tv := 5000, opsOff := 0x400, opsCount := 4, granBytes := 64, symCount := 40, maskCount := 2, wsmCount := 3, redOff := 0x1800, redCount := 4 } : Hdr); let p : Path := ({ opidx := 1, stack := [], map := 2, hf := 9, care := 0, value := 0 } : Path); let rest : List Path := ([{ opidx := 2, stack := [], map := 0, hf := 0 }] : List Path); let o : OpW := (opW 576465150349934628); let gran := o.b * 2 ^ 20 + o.c; let s := served fun d => (let d := d.setEng n { d.eng n with run := some r }; let d := d.setb patB .PAT_STORE_READY true; let d := d.put (ctxBase 100) .CTX_STATE_STATE 3; let d := d.setCx 100 { d.cx 100 with hdr := some h }; let d := d.put (ctxBase 100) .CTX_MAILBOX_DATA 0x1234; d); let s : State := { s with store := ([(66568, 36), (66573, 4), (66575, 8)] : Tab Byte) }; (s.walkAt n r h p rest o) ∧ (o.op = 0x01) ∧ (4 ≤ o.a) ∧ (gran + o.a ≤ h.symCount)) ∧
    (let n : Fin 32 := 3; let r : URun := ({ rtn := { slot := 0x23, ctx := 100 }, begun := true, work := ({ opidx := 1, stack := [], map := 2, hf := 9, care := 0, value := 0 } : Path) :: [{ opidx := 2, stack := [], map := 0, hf := 0 }] } : URun); let h : Hdr := ({ base := 0x10000, slots := 1, tv := 5000, opsOff := 0x400, opsCount := 4, granBytes := 64, symCount := 40, maskCount := 2, wsmCount := 3, redOff := 0x1800, redCount := 4 } : Hdr); let p : Path := ({ opidx := 1, stack := [], map := 2, hf := 9, care := 0, value := 0 } : Path); let rest : List Path := ([{ opidx := 2, stack := [], map := 0, hf := 0 }] : List Path); let o : OpW := (opW 576466249861562404); let gran := o.b * 2 ^ 20 + o.c; let s := served fun d => (let d := d.setEng n { d.eng n with run := some r }; let d := d.setb patB .PAT_STORE_READY true; let d := d.put (ctxBase 100) .CTX_STATE_STATE 3; let d := d.setCx 100 { d.cx 100 with hdr := some h }; let d := d.put (ctxBase 100) .CTX_MAILBOX_DATA 0x1234; d); let s : State := { s with store := ([(66568, 36), (66573, 5), (66575, 8)] : Tab Byte) }; (s.walkAt n r h p rest o) ∧ (o.op = 0x01) ∧ (4 ≤ o.a) ∧ (h.symCount < gran + o.a)) ∧
    (let n : Fin 32 := 3; let r : URun := ({ rtn := { slot := 0x23, ctx := 100 }, begun := true, work := ({ opidx := 1, stack := [], map := 2, hf := 9, care := 0, value := 0 } : Path) :: [{ opidx := 2, stack := [], map := 0, hf := 0 }] } : URun); let h : Hdr := ({ base := 0x10000, slots := 1, tv := 5000, opsOff := 0x400, opsCount := 4, granBytes := 64, symCount := 40, maskCount := 2, wsmCount := 3, redOff := 0x1800, redCount := 4 } : Hdr); let p : Path := ({ opidx := 1, stack := [], map := 2, hf := 9, care := 0, value := 0 } : Path); let rest : List Path := ([{ opidx := 2, stack := [], map := 0, hf := 0 }] : List Path); let o : OpW := (opW 576464050838306817); let s := served fun d => (let d := d.setEng n { d.eng n with run := some r }; let d := d.setb patB .PAT_STORE_READY true; let d := d.put (ctxBase 100) .CTX_STATE_STATE 3; let d := d.setCx 100 { d.cx 100 with hdr := some h }; let d := d.put (ctxBase 100) .CTX_MAILBOX_DATA 0x1234; d); let s : State := { s with store := ([(66568, 1), (66573, 3), (66575, 8)] : Tab Byte) }; (s.walkAt n r h p rest o) ∧ (o.op = 0x01) ∧ (o.a < 4)) ∧
    (let n : Fin 32 := 3; let r : URun := ({ rtn := { slot := 0x23, ctx := 100 }, begun := true, work := ({ opidx := 1, stack := [], map := 2, hf := 9, care := 0, value := 0 } : Path) :: [{ opidx := 2, stack := [], map := 0, hf := 0 }] } : URun); let h : Hdr := ({ base := 0x10000, slots := 1, tv := 5000, opsOff := 0x400, opsCount := 4, granBytes := 64, symCount := 40, maskCount := 2, wsmCount := 3, redOff := 0x1800, redCount := 4 } : Hdr); let p : Path := ({ opidx := 1, stack := [], map := 2, hf := 9, care := 0, value := 0 } : Path); let rest : List Path := ([{ opidx := 2, stack := [], map := 0, hf := 0 }] : List Path); let o : OpW := (opW 1152925902653358119); let gran := o.b * 2 ^ 20 + o.c; let s := served fun d => (let d := d.setEng n { d.eng n with run := some r }; let d := d.setb patB .PAT_STORE_READY true; let d := d.put (ctxBase 100) .CTX_STATE_STATE 3; let d := d.setCx 100 { d.cx 100 with hdr := some h }; let d := d.put (ctxBase 100) .CTX_MAILBOX_DATA 0x1234; d); let s : State := { s with store := ([(66568, 39), (66573, 4), (66575, 16)] : Tab Byte) }; (s.walkAt n r h p rest o) ∧ (o.op = 0x02) ∧ (4 ≤ o.a) ∧ (gran < h.symCount)) ∧
    (let n : Fin 32 := 3; let r : URun := ({ rtn := { slot := 0x23, ctx := 100 }, begun := true, work := ({ opidx := 1, stack := [], map := 2, hf := 9, care := 0, value := 0 } : Path) :: [{ opidx := 2, stack := [], map := 0, hf := 0 }] } : URun); let h : Hdr := ({ base := 0x10000, slots := 1, tv := 5000, opsOff := 0x400, opsCount := 4, granBytes := 64, symCount := 40, maskCount := 2, wsmCount := 3, redOff := 0x1800, redCount := 4 } : Hdr); let p : Path := ({ opidx := 1, stack := [], map := 2, hf := 9, care := 0, value := 0 } : Path); let rest : List Path := ([{ opidx := 2, stack := [], map := 0, hf := 0 }] : List Path); let o : OpW := (opW 1152924803141730343); let s := served fun d => (let d := d.setEng n { d.eng n with run := some r }; let d := d.setb patB .PAT_STORE_READY true; let d := d.put (ctxBase 100) .CTX_STATE_STATE 3; let d := d.setCx 100 { d.cx 100 with hdr := some h }; let d := d.put (ctxBase 100) .CTX_MAILBOX_DATA 0x1234; d); let s : State := { s with store := ([(66568, 39), (66573, 3), (66575, 16)] : Tab Byte) }; (s.walkAt n r h p rest o) ∧ (o.op = 0x02) ∧ (o.a < 4)) ∧
    (let n : Fin 32 := 3; let r : URun := ({ rtn := { slot := 0x23, ctx := 100 }, begun := true, work := ({ opidx := 1, stack := [], map := 2, hf := 9, care := 0, value := 0 } : Path) :: [{ opidx := 2, stack := [], map := 0, hf := 0 }] } : URun); let h : Hdr := ({ base := 0x10000, slots := 1, tv := 5000, opsOff := 0x400, opsCount := 4, granBytes := 64, symCount := 40, maskCount := 2, wsmCount := 3, redOff := 0x1800, redCount := 4 } : Hdr); let p : Path := ({ opidx := 1, stack := [], map := 2, hf := 9, care := 0, value := 0 } : Path); let rest : List Path := ([{ opidx := 2, stack := [], map := 0, hf := 0 }] : List Path); let o : OpW := (opW 7493990879456133124); let s := served fun d => (let d := d.setEng n { d.eng n with run := some r }; let d := d.setb patB .PAT_STORE_READY true; let d := d.put (ctxBase 100) .CTX_STATE_STATE 3; let d := d.setCx 100 { d.cx 100 with hdr := some h }; let d := d.put (ctxBase 100) .CTX_MAILBOX_DATA 0x1234; d); let s : State := { s with store := ([(66568, 4), (66573, 1), (66575, 104)] : Tab Byte) }; (s.walkAt n r h p rest o) ∧ (o.op = 0x0D) ∧ (4 ≤ o.c)) ∧
    (let n : Fin 32 := 3; let r : URun := ({ rtn := { slot := 0x23, ctx := 100 }, begun := true, work := ({ opidx := 1, stack := [], map := 2, hf := 9, care := 0, value := 0 } : Path) :: [{ opidx := 2, stack := [], map := 0, hf := 0 }] } : URun); let h : Hdr := ({ base := 0x10000, slots := 1, tv := 5000, opsOff := 0x400, opsCount := 4, granBytes := 64, symCount := 40, maskCount := 2, wsmCount := 3, redOff := 0x1800, redCount := 4 } : Hdr); let p : Path := ({ opidx := 1, stack := [], map := 2, hf := 9, care := 0, value := 0 } : Path); let rest : List Path := ([{ opidx := 2, stack := [], map := 0, hf := 0 }] : List Path); let o : OpW := (opW 10376293541461622784); let s := served fun d => (let d := d.setEng n { d.eng n with run := some r }; let d := d.setb patB .PAT_STORE_READY true; let d := d.put (ctxBase 100) .CTX_STATE_STATE 3; let d := d.setCx 100 { d.cx 100 with hdr := some h }; let d := d.put (ctxBase 100) .CTX_MAILBOX_DATA 0x1234; d); let s : State := { s with store := ([(66575, 144)] : Tab Byte) }; (s.walkAt n r h p rest o) ∧ (o.op = 0x12)) ∧
    (let n : Fin 32 := 3; let r : URun := ({ rtn := { slot := 0x23, ctx := 100 }, begun := true, work := ({ opidx := 1, stack := [], map := 2, hf := 9, care := 0, value := 0 } : Path) :: [{ opidx := 2, stack := [], map := 0, hf := 0 }] } : URun); let h : Hdr := ({ base := 0x10000, slots := 1, tv := 5000, opsOff := 0x400, opsCount := 4, granBytes := 64, symCount := 40, maskCount := 2, wsmCount := 3, redOff := 0x1800, redCount := 4 } : Hdr); let p : Path := ({ opidx := 1, stack := [], map := 2, hf := 9, care := 0, value := 0 } : Path); let rest : List Path := ([{ opidx := 2, stack := [], map := 0, hf := 0 }] : List Path); let o : OpW := (opW 10952754293765046272); let s := served fun d => (let d := d.setEng n { d.eng n with run := some r }; let d := d.setb patB .PAT_STORE_READY true; let d := d.put (ctxBase 100) .CTX_STATE_STATE 3; let d := d.setCx 100 { d.cx 100 with hdr := some h }; let d := d.put (ctxBase 100) .CTX_MAILBOX_DATA 0x1234; d); let s : State := { s with store := ([(66575, 152)] : Tab Byte) }; (s.walkAt n r h p rest o) ∧ (0x13 ≤ o.op)) ∧
    (let n : Fin 32 := 3; let r : URun := ({ rtn := { slot := 0x23, ctx := 100 }, begun := true, work := ({ opidx := 1, stack := [], map := 2, hf := 9, care := 0, value := 0 } : Path) :: [{ opidx := 2, stack := [], map := 0, hf := 0 }] } : URun); let h : Hdr := ({ base := 0x10000, slots := 1, tv := 5000, opsOff := 0x400, opsCount := 4, granBytes := 64, symCount := 40, maskCount := 2, wsmCount := 3, redOff := 0x1800, redCount := 4 } : Hdr); let p : Path := ({ opidx := 1, stack := [], map := 2, hf := 9, care := 0, value := 0 } : Path); let rest : List Path := ([{ opidx := 2, stack := [], map := 0, hf := 0 }] : List Path); let o : OpW := (opW 8358680908399640576); let s := served fun d => (let d := d.setEng n { d.eng n with run := some r }; let d := d.setb patB .PAT_STORE_READY true; let d := d.put (ctxBase 100) .CTX_STATE_STATE 3; let d := d.setCx 100 { d.cx 100 with hdr := some h }; let d := d.put (ctxBase 100) .CTX_MAILBOX_DATA 0x1234; d); let s : State := { s with store := ([(66575, 116)] : Tab Byte) }; (s.walkAt n r h p rest o) ∧ (o.op = 0x0E) ∧ (4 ≤ o.sub)) := by
  refine ⟨?_, ?_, ?_, ?_, ?_, ?_, ?_, ?_, ?_⟩ <;> (try dsimp only [Dev.recorded, State.walkAt, Dev.atRoutine, Dev.atWord]) <;> decide +kernel

/-- States and operands that meet the hypotheses of clauses of `Obligations.WalkControl`. -/
theorem witness_WalkControl :
    (let n : Fin 32 := 3; let r : URun := ({ rtn := { slot := 0x23, ctx := 100 }, begun := true, work := ({ opidx := 1, stack := [], map := 2, hf := 9, care := 0, value := 0 } : Path) :: [{ opidx := 2, stack := [], map := 0, hf := 0 }] } : URun); let h : Hdr := ({ base := 0x10000, slots := 1, tv := 5000, opsOff := 0x400, opsCount := 4, granBytes := 64, symCount := 40, maskCount := 2, wsmCount := 3, redOff := 0x1800, redCount := 4 } : Hdr); let p : Path := ({ opidx := 1, stack := [], map := 2, hf := 9, care := 0, value := 0 } : Path); let rest : List Path := ([{ opidx := 2, stack := [], map := 0, hf := 0 }] : List Path); let o : OpW := (opW 0); let s := served fun d => (let d := d.setEng n { d.eng n with run := some r }; let d := d.setb patB .PAT_STORE_READY true; let d := d.put (ctxBase 100) .CTX_STATE_STATE 3; let d := d.setCx 100 { d.cx 100 with hdr := some h }; let d := d.put (ctxBase 100) .CTX_MAILBOX_DATA 0x1234; d); let s : State := { s with store := ([] : Tab Byte) }; (s.walkAt n r h p rest o) ∧ (o.op = 0x00)) ∧
    (let n : Fin 32 := 3; let r : URun := ({ rtn := { slot := 0x23, ctx := 100 }, begun := true, work := ({ opidx := 1, stack := [], map := 2, hf := 9, care := 0, value := 0 } : Path) :: [{ opidx := 2, stack := [], map := 0, hf := 0 }] } : URun); let h : Hdr := ({ base := 0x10000, slots := 1, tv := 5000, opsOff := 0x400, opsCount := 4, granBytes := 64, symCount := 40, maskCount := 2, wsmCount := 3, redOff := 0x1800, redCount := 4 } : Hdr); let p : Path := ({ opidx := 1, stack := [], map := 2, hf := 9, care := 0, value := 0 } : Path); let rest : List Path := ([{ opidx := 2, stack := [], map := 0, hf := 0 }] : List Path); let o : OpW := (opW 1729382256912367616); let s := served fun d => (let d := d.setEng n { d.eng n with run := some r }; let d := d.setb patB .PAT_STORE_READY true; let d := d.put (ctxBase 100) .CTX_STATE_STATE 3; let d := d.setCx 100 { d.cx 100 with hdr := some h }; let d := d.put (ctxBase 100) .CTX_MAILBOX_DATA 0x1234; d); let s : State := { s with store := ([(66570, 32), (66575, 24)] : Tab Byte) }; (s.walkAt n r h p rest o) ∧ (o.op = 0x03) ∧ (o.c = 0)) ∧
    (let n : Fin 32 := 3; let r : URun := ({ rtn := { slot := 0x23, ctx := 100 }, begun := true, work := ({ opidx := 1, stack := [], map := 2, hf := 9, care := 0, value := 0 } : Path) :: [{ opidx := 2, stack := [], map := 0, hf := 0 }] } : URun); let h : Hdr := ({ base := 0x10000, slots := 1, tv := 5000, opsOff := 0x400, opsCount := 4, granBytes := 64, symCount := 40, maskCount := 2, wsmCount := 3, redOff := 0x1800, redCount := 4 } : Hdr); let p : Path := ({ opidx := 1, stack := [], map := 2, hf := 9, care := 0, value := 0 } : Path); let rest : List Path := ([{ opidx := 2, stack := [], map := 0, hf := 0 }] : List Path); let o : OpW := (opW 1729382256912367623); let s := served fun d => (let d := d.setEng n { d.eng n with run := some r }; let d := d.setb patB .PAT_STORE_READY true; let d := d.put (ctxBase 100) .CTX_STATE_STATE 3; let d := d.setCx 100 { d.cx 100 with hdr := some h }; let d := d.put (ctxBase 100) .CTX_MAILBOX_DATA 0x1234; d); let s : State := { s with store := ([(66568, 7), (66570, 32), (66575, 24)] : Tab Byte) }; (s.walkAt n r h p rest o) ∧ (o.op = 0x03) ∧ (o.c ≠ 0) ∧ (p.stack.length < 16)) ∧
    (let n : Fin 32 := 3; let r : URun := ({ rtn := { slot := 0x23, ctx := 100 }, begun := true, work := ({ opidx := 1, stack := (List.replicate 16 { kind := .loop, op := 0, count := 2 }), map := 2, hf := 9, care := 0, value := 0 } : Path) :: [{ opidx := 2, stack := [], map := 0, hf := 0 }] } : URun); let h : Hdr := ({ base := 0x10000, slots := 1, tv := 5000, opsOff := 0x400, opsCount := 4, granBytes := 64, symCount := 40, maskCount := 2, wsmCount := 3, redOff := 0x1800, redCount := 4 } : Hdr); let p : Path := ({ opidx := 1, stack := (List.replicate 16 { kind := .loop, op := 0, count := 2 }), map := 2, hf := 9, care := 0, value := 0 } : Path); let rest : List Path := ([{ opidx := 2, stack := [], map := 0, hf := 0 }] : List Path); let o : OpW := (opW 1729382256912367623); let s := served fun d => (let d := d.setEng n { d.eng n with run := some r }; let d := d.setb patB .PAT_STORE_READY true; let d := d.put (ctxBase 100) .CTX_STATE_STATE 3; let d := d.setCx 100 { d.cx 100 with hdr := some h }; let d := d.put (ctxBase 100) .CTX_MAILBOX_DATA 0x1234; d); let s : State := { s with store := ([(66568, 7), (66570, 32), (66575, 24)] : Tab Byte) }; (s.walkAt n r h p rest o) ∧ (o.op = 0x03) ∧ (o.c ≠ 0) ∧ (16 ≤ p.stack.length)) ∧
    (let n : Fin 32 := 3; let r : URun := ({ rtn := { slot := 0x23, ctx := 100 }, begun := true, work := ({ opidx := 1, stack := [{ kind := .ret, op := 2, count := 0 }, { kind := .loop, op := 0, count := 1 }], map := 2, hf := 9, care := 0, value := 0 } : Path) :: [{ opidx := 2, stack := [], map := 0, hf := 0 }] } : URun); let h : Hdr := ({ base := 0x10000, slots := 1, tv := 5000, opsOff := 0x400, opsCount := 4, granBytes := 64, symCount := 40, maskCount := 2, wsmCount := 3, redOff := 0x1800, redCount := 4 } : Hdr); let p : Path := ({ opidx := 1, stack := [{ kind := .ret, op := 2, count := 0 }, { kind := .loop, op := 0, count := 1 }], map := 2, hf := 9, care := 0, value := 0 } : Path); let rest : List Path := ([{ opidx := 2, stack := [], map := 0, hf := 0 }] : List Path); let o : OpW := (opW 2305843009213693952); let below := ([{ kind := .ret, op := 2, count := 0 }] : List Frame); let f := ({ kind := .loop, op := 0, count := 1 } : Frame); let s := served fun d => (let d := d.setEng n { d.eng n with run := some r }; let d := d.setb patB .PAT_STORE_READY true; let d := d.put (ctxBase 100) .CTX_STATE_STATE 3; let d := d.setCx 100 { d.cx 100 with hdr := some h }; let d := d.put (ctxBase 100) .CTX_MAILBOX_DATA 0x1234; d); let s : State := { s with store := ([(66575, 32)] : Tab Byte) }; (s.walkAt n r h p rest o) ∧ (p.stack = below ++ [f]) ∧ (o.op = 0x04) ∧ (f.kind = .loop) ∧ (f.count ≤ 1)) ∧
    (let n : Fin 32 := 3; let r : URun := ({ rtn := { slot := 0x23, ctx := 100 }, begun := true, work := ({ opidx := 1, stack := [{ kind := .ret, op := 2, count := 0 }, { kind := .loop, op := 0, count := 3 }], map := 2, hf := 9, care := 0, value := 0 } : Path) :: [{ opidx := 2, stack := [], map := 0, hf := 0 }] } : URun); let h : Hdr := ({ base := 0x10000, slots := 1, tv := 5000, opsOff := 0x400, opsCount := 4, granBytes := 64, symCount := 40, maskCount := 2, wsmCount := 3, redOff := 0x1800, redCount := 4 } : Hdr); let p : Path := ({ opidx := 1, stack := [{ kind := .ret, op := 2, count := 0 }, { kind := .loop, op := 0, count := 3 }], map := 2, hf := 9, care := 0, value := 0 } : Path); let rest : List Path := ([{ opidx := 2, stack := [], map := 0, hf := 0 }] : List Path); let o : OpW := (opW 2305843009213693952); let below := ([{ kind := .ret, op := 2, count := 0 }] : List Frame); let f := ({ kind := .loop, op := 0, count := 3 } : Frame); let s := served fun d => (let d := d.setEng n { d.eng n with run := some r }; let d := d.setb patB .PAT_STORE_READY true; let d := d.put (ctxBase 100) .CTX_STATE_STATE 3; let d := d.setCx 100 { d.cx 100 with hdr := some h }; let d := d.put (ctxBase 100) .CTX_MAILBOX_DATA 0x1234; d); let s : State := { s with store := ([(66575, 32)] : Tab Byte) }; (s.walkAt n r h p rest o) ∧ (p.stack = below ++ [f]) ∧ (o.op = 0x04) ∧ (f.kind = .loop) ∧ (1 < f.count)) ∧
    (let n : Fin 32 := 3; let r : URun := ({ rtn := { slot := 0x23, ctx := 100 }, begun := true, work := ({ opidx := 1, stack := [{ kind := .ret, op := 2, count := 0 }, { kind := .ret, op := 0, count := 3 }], map := 2, hf := 9, care := 0, value := 0 } : Path) :: [{ opidx := 2, stack := [], map := 0, hf := 0 }] } : URun); let h : Hdr := ({ base := 0x10000, slots := 1, tv := 5000, opsOff := 0x400, opsCount := 4, granBytes := 64, symCount := 40, maskCount := 2, wsmCount := 3, redOff := 0x1800, redCount := 4 } : Hdr); let p : Path := ({ opidx := 1, stack := [{ kind := .ret, op := 2, count := 0 }, { kind := .ret, op := 0, count := 3 }], map := 2, hf := 9, care := 0, value := 0 } : Path); let rest : List Path := ([{ opidx := 2, stack := [], map := 0, hf := 0 }] : List Path); let o : OpW := (opW 2305843009213693952); let below := ([{ kind := .ret, op := 2, count := 0 }] : List Frame); let f := ({ kind := .ret, op := 0, count := 3 } : Frame); let s := served fun d => (let d := d.setEng n { d.eng n with run := some r }; let d := d.setb patB .PAT_STORE_READY true; let d := d.put (ctxBase 100) .CTX_STATE_STATE 3; let d := d.setCx 100 { d.cx 100 with hdr := some h }; let d := d.put (ctxBase 100) .CTX_MAILBOX_DATA 0x1234; d); let s : State := { s with store := ([(66575, 32)] : Tab Byte) }; (s.walkAt n r h p rest o) ∧ (p.stack = below ++ [f]) ∧ (o.op = 0x04) ∧ (f.kind ≠ .loop)) ∧
    (let n : Fin 32 := 3; let r : URun := ({ rtn := { slot := 0x23, ctx := 100 }, begun := true, work := ({ opidx := 1, stack := [{ kind := .ret, op := 2, count := 0 }, { kind := .ret, op := 0, count := 3 }], map := 2, hf := 9, care := 0, value := 0 } : Path) :: [{ opidx := 2, stack := [], map := 0, hf := 0 }] } : URun); let h : Hdr := ({ base := 0x10000, slots := 1, tv := 5000, opsOff := 0x400, opsCount := 4, granBytes := 64, symCount := 40, maskCount := 2, wsmCount := 3, redOff := 0x1800, redCount := 4 } : Hdr); let p : Path := ({ opidx := 1, stack := [{ kind := .ret, op := 2, count := 0 }, { kind := .ret, op := 0, count := 3 }], map := 2, hf := 9, care := 0, value := 0 } : Path); let rest : List Path := ([{ opidx := 2, stack := [], map := 0, hf := 0 }] : List Path); let o : OpW := (opW 3458764513820540928); let below := ([{ kind := .ret, op := 2, count := 0 }] : List Frame); let f := ({ kind := .ret, op := 0, count := 3 } : Frame); let s := served fun d => (let d := d.setEng n { d.eng n with run := some r }; let d := d.setb patB .PAT_STORE_READY true; let d := d.put (ctxBase 100) .CTX_STATE_STATE 3; let d := d.setCx 100 { d.cx 100 with hdr := some h }; let d := d.put (ctxBase 100) .CTX_MAILBOX_DATA 0x1234; d); let s : State := { s with store := ([(66575, 48)] : Tab Byte) }; (s.walkAt n r h p rest o) ∧ (p.stack = below ++ [f]) ∧ (o.op = 0x06) ∧ (f.kind = .ret)) ∧
    (let n : Fin 32 := 3; let r : URun := ({ rtn := { slot := 0x23, ctx := 100 }, begun := true, work := ({ opidx := 1, stack := [{ kind := .ret, op := 2, count := 0 }, { kind := .mtch, op := 0, count := 3 }], map := 2, hf := 9, care := 0, value := 0 } : Path) :: [{ opidx := 2, stack := [], map := 0, hf := 0 }] } : URun); let h : Hdr := ({ base := 0x10000, slots := 1, tv := 5000, opsOff := 0x400, opsCount := 4, granBytes := 64, symCount := 40, maskCount := 2, wsmCount := 3, redOff := 0x1800, redCount := 4 } : Hdr); let p : Path := ({ opidx := 1, stack := [{ kind := .ret, op := 2, count := 0 }, { kind := .mtch, op := 0, count := 3 }], map := 2, hf := 9, care := 0, value := 0 } : Path); let rest : List Path := ([{ opidx := 2, stack := [], map := 0, hf := 0 }] : List Path); let o : OpW := (opW 3458764513820540928); let below := ([{ kind := .ret, op := 2, count := 0 }] : List Frame); let f := ({ kind := .mtch, op := 0, count := 3 } : Frame); let s := served fun d => (let d := d.setEng n { d.eng n with run := some r }; let d := d.setb patB .PAT_STORE_READY true; let d := d.put (ctxBase 100) .CTX_STATE_STATE 3; let d := d.setCx 100 { d.cx 100 with hdr := some h }; let d := d.put (ctxBase 100) .CTX_MAILBOX_DATA 0x1234; d); let s : State := { s with store := ([(66575, 48)] : Tab Byte) }; (s.walkAt n r h p rest o) ∧ (p.stack = below ++ [f]) ∧ (o.op = 0x06) ∧ (f.kind ≠ .ret)) ∧
    (let n : Fin 32 := 3; let r : URun := ({ rtn := { slot := 0x23, ctx := 100 }, begun := true, work := ({ opidx := 1, stack := [{ kind := .ret, op := 2, count := 0 }, { kind := .loop, op := 0, count := 3 }], map := 2, hf := 9, care := 0, value := 0 } : Path) :: [{ opidx := 2, stack := [], map := 0, hf := 0 }] } : URun); let h : Hdr := ({ base := 0x10000, slots := 1, tv := 5000, opsOff := 0x400, opsCount := 4, granBytes := 64, symCount := 40, maskCount := 2, wsmCount := 3, redOff := 0x1800, redCount := 4 } : Hdr); let p : Path := ({ opidx := 1, stack := [{ kind := .ret, op := 2, count := 0 }, { kind := .loop, op := 0, count := 3 }], map := 2, hf := 9, care := 0, value := 0 } : Path); let rest : List Path := ([{ opidx := 2, stack := [], map := 0, hf := 0 }] : List Path); let o : OpW := (opW 5764607523034234880); let below := ([{ kind := .ret, op := 2, count := 0 }] : List Frame); let f := ({ kind := .loop, op := 0, count := 3 } : Frame); let s := served fun d => (let d := d.setEng n { d.eng n with run := some r }; let d := d.setb patB .PAT_STORE_READY true; let d := d.put (ctxBase 100) .CTX_STATE_STATE 3; let d := d.setCx 100 { d.cx 100 with hdr := some h }; let d := d.put (ctxBase 100) .CTX_MAILBOX_DATA 0x1234; d); let s : State := { s with store := ([(66575, 80)] : Tab Byte) }; (s.walkAt n r h p rest o) ∧ (p.stack = below ++ [f]) ∧ (o.op = 0x0A) ∧ (f.kind ≠ .mtch)) ∧
    (let n : Fin 32 := 3; let r : URun := ({ rtn := { slot := 0x23, ctx := 100 }, begun := true, work := ({ opidx := 1, stack := [], map := 2, hf := 9, care := 0, value := 0 } : Path) :: [{ opidx := 2, stack := [], map := 0, hf := 0 }] } : URun); let h : Hdr := ({ base := 0x10000, slots := 1, tv := 5000, opsOff := 0x400, opsCount := 4, granBytes := 64, symCount := 40, maskCount := 2, wsmCount := 3, redOff := 0x1800, redCount := 4 } : Hdr); let p : Path := ({ opidx := 1, stack := [], map := 2, hf := 9, care := 0, value := 0 } : Path); let rest : List Path := ([{ opidx := 2, stack := [], map := 0, hf := 0 }] : List Path); let o : OpW := (opW 2305843009213693952); let s := served fun d => (let d := d.setEng n { d.eng n with run := some r }; let d := d.setb patB .PAT_STORE_READY true; let d := d.put (ctxBase 100) .CTX_STATE_STATE 3; let d := d.setCx 100 { d.cx 100 with hdr := some h }; let d := d.put (ctxBase 100) .CTX_MAILBOX_DATA 0x1234; d); let s : State := { s with store := ([(66575, 32)] : Tab Byte) }; (s.walkAt n r h p rest o) ∧ (o.op = 0x04) ∧ (p.stack = [])) ∧
    (let n : Fin 32 := 3; let r : URun := ({ rtn := { slot := 0x23, ctx := 100 }, begun := true, work := ({ opidx := 1, stack := [], map := 2, hf := 9, care := 0, value := 0 } : Path) :: [{ opidx := 2, stack := [], map := 0, hf := 0 }] } : URun); let h : Hdr := ({ base := 0x10000, slots := 1, tv := 5000, opsOff := 0x400, opsCount := 4, granBytes := 64, symCount := 40, maskCount := 2, wsmCount := 3, redOff := 0x1800, redCount := 4 } : Hdr); let p : Path := ({ opidx := 1, stack := [], map := 2, hf := 9, care := 0, value := 0 } : Path); let rest : List Path := ([{ opidx := 2, stack := [], map := 0, hf := 0 }] : List Path); let o : OpW := (opW 2882303761517117443); let s := served fun d => (let d := d.setEng n { d.eng n with run := some r }; let d := d.setb patB .PAT_STORE_READY true; let d := d.put (ctxBase 100) .CTX_STATE_STATE 3; let d := d.setCx 100 { d.cx 100 with hdr := some h }; let d := d.put (ctxBase 100) .CTX_MAILBOX_DATA 0x1234; d); let s : State := { s with store := ([(66568, 3), (66575, 40)] : Tab Byte) }; (s.walkAt n r h p rest o) ∧ (o.op = 0x05) ∧ (p.stack.length < 16)) ∧
    (let n : Fin 32 := 3; let r : URun := ({ rtn := { slot := 0x23, ctx := 100 }, begun := true, work := ({ opidx := 1, stack := (List.replicate 16 { kind := .loop, op := 0, count := 2 }), map := 2, hf := 9, care := 0, value := 0 } : Path) :: [{ opidx := 2, stack := [], map := 0, hf := 0 }] } : URun); let h : Hdr := ({ base := 0x10000, slots := 1, tv := 5000, opsOff := 0x400, opsCount := 4, granBytes := 64, symCount := 40, maskCount := 2, wsmCount := 3, redOff := 0x1800, redCount := 4 } : Hdr); let p : Path := ({ opidx := 1, stack := (List.replicate 16 { kind := .loop, op := 0, count := 2 }), map := 2, hf := 9, care := 0, value := 0 } : Path); let rest : List Path := ([{ opidx := 2, stack := [], map := 0, hf := 0 }] : List Path); let o : OpW := (opW 2882303761517117443); let s := served fun d => (let d := d.setEng n { d.eng n with run := some r }; let d := d.setb patB .PAT_STORE_READY true; let d := d.put (ctxBase 100) .CTX_STATE_STATE 3; let d := d.setCx 100 { d.cx 100 with hdr := some h }; let d := d.put (ctxBase 100) .CTX_MAILBOX_DATA 0x1234; d); let s : State := { s with store := ([(66568, 3), (66575, 40)] : Tab Byte) }; (s.walkAt n r h p rest o) ∧ (o.op = 0x05) ∧ (16 ≤ p.stack.length)) ∧
    (let n : Fin 32 := 3; let r : URun := ({ rtn := { slot := 0x23, ctx := 100 }, begun := true, work := ({ opidx := 1, stack := [], map := 2, hf := 9, care := 0, value := 0 } : Path) :: [{ opidx := 2, stack := [], map := 0, hf := 0 }] } : URun); let h : Hdr := ({ base := 0x10000, slots := 1, tv := 5000, opsOff := 0x400, opsCount := 4, granBytes := 64, symCount := 40, maskCount := 2, wsmCount := 3, redOff := 0x1800, redCount := 4 } : Hdr); let p : Path := ({ opidx := 1, stack := [], map := 2, hf := 9, care := 0, value := 0 } : Path); let rest : List Path := ([{ opidx := 2, stack := [], map := 0, hf := 0 }] : List Path); let o : OpW := (opW 4035225266123964419); let s := served fun d => (let d := d.setEng n { d.eng n with run := some r }; let d := d.setb patB .PAT_STORE_READY true; let d := d.put (ctxBase 100) .CTX_STATE_STATE 3; let d := d.setCx 100 { d.cx 100 with hdr := some h }; let d := d.put (ctxBase 100) .CTX_MAILBOX_DATA 0x1234; d); let s : State := { s with store := ([(66568, 3), (66575, 56)] : Tab Byte) }; (s.walkAt n r h p rest o) ∧ (o.op = 0x07)) ∧
    (let n : Fin 32 := 3; let r : URun := ({ rtn := { slot := 0x23, ctx := 100 }, begun := true, work := ({ opidx := 1, stack := [], map := 2, hf := 9, care := 0, value := 0 } : Path) :: [{ opidx := 2, stack := [], map := 0, hf := 0 }] } : URun); let h : Hdr := ({ base := 0x10000, slots := 1, tv := 5000, opsOff := 0x400, opsCount := 4, granBytes := 64, symCount := 40, maskCount := 2, wsmCount := 3, redOff := 0x1800, redCount := 4 } : Hdr); let p : Path := ({ opidx := 1, stack := [], map := 2, hf := 9, care := 0, value := 0 } : Path); let rest : List Path := ([{ opidx := 2, stack := [], map := 0, hf := 0 }] : List Path); let o : OpW := (opW 5260205464282464259); let s := served fun d => (let d := d.setEng n { d.eng n with run := some r }; let d := d.setb patB .PAT_STORE_READY true; let d := d.put (ctxBase 100) .CTX_STATE_STATE 3; let d := d.setCx 100 { d.cx 100 with hdr := some h }; let d := d.put (ctxBase 100) .CTX_MAILBOX_DATA 0x1234; d); let s : State := { s with store := ([(66568, 3), (66570, 32), (66573, 1), (66575, 73)] : Tab Byte) }; (s.walkAt n r h p rest o) ∧ (o.op = 0x09) ∧ (o.a % 16 < h.maskCount) ∧ (p.stack.length < 16)) ∧
    (let n : Fin 32 := 3; let r : URun := ({ rtn := { slot := 0x23, ctx := 100 }, begun := true, work := ({ opidx := 1, stack := [], map := 2, hf := 9, care := 0, value := 0 } : Path) :: [{ opidx := 2, stack := [], map := 0, hf := 0 }] } : URun); let h : Hdr := ({ base := 0x10000, slots := 1, tv := 5000, opsOff := 0x400, opsCount := 4, granBytes := 64, symCount := 40, maskCount := 2, wsmCount := 3, redOff := 0x1800, redCount := 4 } : Hdr); let p : Path := ({ opidx := 1, stack := [], map := 2, hf := 9, care := 0, value := 0 } : Path); let rest : List Path := ([{ opidx := 2, stack := [], map := 0, hf := 0 }] : List Path); let o : OpW := (opW 5260206563794092035); let s := served fun d => (let d := d.setEng n { d.eng n with run := some r }; let d := d.setb patB .PAT_STORE_READY true; let d := d.put (ctxBase 100) .CTX_STATE_STATE 3; let d := d.setCx 100 { d.cx 100 with hdr := some h }; let d := d.put (ctxBase 100) .CTX_MAILBOX_DATA 0x1234; d); let s : State := { s with store := ([(66568, 3), (66570, 32), (66573, 2), (66575, 73)] : Tab Byte) }; (s.walkAt n r h p rest o) ∧ (o.op = 0x09) ∧ (h.maskCount ≤ o.a % 16)) ∧
    (let n : Fin 32 := 3; let r : URun := ({ rtn := { slot := 0x23, ctx := 100 }, begun := true, work := ({ opidx := 1, stack := [], map := 2, hf := 9, care := 0, value := 0 } : Path) :: [{ opidx := 2, stack := [], map := 0, hf := 0 }] } : URun); let h : Hdr := ({ base := 0x10000, slots := 1, tv := 5000, opsOff := 0x400, opsCount := 4, granBytes := 64, symCount := 40, maskCount := 2, wsmCount := 3, redOff := 0x1800, redCount := 4 } : Hdr); let p : Path := ({ opidx := 1, stack := [], map := 2, hf := 9, care := 0, value := 0 } : Path); let rest : List Path := ([{ opidx := 2, stack := [], map := 0, hf := 0 }] : List Path); let o : OpW := (opW 6341070474360913920); let s := served fun d => (let d := d.setEng n { d.eng n with run := some r }; let d := d.setb patB .PAT_STORE_READY true; let d := d.put (ctxBase 100) .CTX_STATE_STATE 3; let d := d.setCx 100 { d.cx 100 with hdr := some h }; let d := d.put (ctxBase 100) .CTX_MAILBOX_DATA 0x1234; d); let s : State := { s with store := ([(66573, 2), (66575, 88)] : Tab Byte) }; (s.walkAt n r h p rest o) ∧ (o.op = 0x0B) ∧ (o.a % 16 < h.wsmCount)) ∧
    (let n : Fin 32 := 3; let r : URun := ({ rtn := { slot := 0x23, ctx := 100 }, begun := true, work := ({ opidx := 1, stack := [], map := 2, hf := 9, care := 0, value := 0 } : Path) :: [{ opidx := 2, stack := [], map := 0, hf := 0 }] } : URun); let h : Hdr := ({ base := 0x10000, slots := 1, tv := 5000, opsOff := 0x400, opsCount := 4, granBytes := 64, symCount := 40, maskCount := 2, wsmCount := 3, redOff := 0x1800, redCount := 4 } : Hdr); let p : Path := ({ opidx := 1, stack := [], map := 2, hf := 9, care := 0, value := 0 } : Path); let rest : List Path := ([{ opidx := 2, stack := [], map := 0, hf := 0 }] : List Path); let o : OpW := (opW 6341071573872541696); let s := served fun d => (let d := d.setEng n { d.eng n with run := some r }; let d := d.setb patB .PAT_STORE_READY true; let d := d.put (ctxBase 100) .CTX_STATE_STATE 3; let d := d.setCx 100 { d.cx 100 with hdr := some h }; let d := d.put (ctxBase 100) .CTX_MAILBOX_DATA 0x1234; d); let s : State := { s with store := ([(66573, 3), (66575, 88)] : Tab Byte) }; (s.walkAt n r h p rest o) ∧ (o.op = 0x0B) ∧ (h.wsmCount ≤ o.a % 16)) ∧
    (let n : Fin 32 := 3; let r : URun := ({ rtn := { slot := 0x23, ctx := 100 }, begun := true, work := ({ opidx := 1, stack := [], map := 2, hf := 9, care := 0, value := 0 } : Path) :: [{ opidx := 2, stack := [], map := 0, hf := 0 }] } : URun); let h : Hdr := ({ base := 0x10000, slots := 1, tv := 5000, opsOff := 0x400, opsCount := 4, granBytes := 64, symCount := 40, maskCount := 2, wsmCount := 3, redOff := 0x1800, redCount := 4 } : Hdr); let p : Path := ({ opidx := 1, stack := [], map := 2, hf := 9, care := 0, value := 0 } : Path); let rest : List Path := ([{ opidx := 2, stack := [], map := 0, hf := 0 }] : List Path); let o : OpW := (opW 6917668665617809408); let s := served fun d => (let d := d.setEng n { d.eng n with run := some r }; let d := d.setb patB .PAT_STORE_READY true; let d := d.put (ctxBase 100) .CTX_STATE_STATE 3; let d := d.setCx 100 { d.cx 100 with hdr := some h }; let d := d.put (ctxBase 100) .CTX_MAILBOX_DATA 0x1234; d); let s : State := { s with store := ([(66573, 127), (66575, 96)] : Tab Byte) }; (s.walkAt n r h p rest o) ∧ (o.op = 0x0C)) ∧
    (let n : Fin 32 := 3; let r : URun := ({ rtn := { slot := 0x23, ctx := 100 }, begun := true, work := ({ opidx := 1, stack := [], map := 2, hf := 9, care := 0, value := 0 } : Path) :: [{ opidx := 2, stack := [], map := 0, hf := 0 }] } : URun); let h : Hdr := ({ base := 0x10000, slots := 1, tv := 5000, opsOff := 0x400, opsCount := 4, granBytes := 64, symCount := 40, maskCount := 2, wsmCount := 3, redOff := 0x1800, redCount := 4 } : Hdr); let p : Path := ({ opidx := 1, stack := [], map := 2, hf := 9, care := 0, value := 0 } : Path); let rest : List Path := ([{ opidx := 2, stack := [], map := 0, hf := 0 }] : List Path); let o : OpW := (opW 8070453830783860736); let s := served fun d => (let d := d.setEng n { d.eng n with run := some r }; let d := d.setb patB .PAT_STORE_READY true; let d := d.put (ctxBase 100) .CTX_STATE_STATE 3; let d := d.setCx 100 { d.cx 100 with hdr := some h }; let d := d.put (ctxBase 100) .CTX_MAILBOX_DATA 0x1234; d); let s : State := { s with store := ([(66570, 16), (66573, 3), (66575, 112)] : Tab Byte) }; (s.walkAt n r h p rest o) ∧ (o.op = 0x0E) ∧ (o.sub = 0) ∧ (descsOk (s.d.opView n s.store) h (bits8 (o.a % 256)) (o.b % 256) = true)) ∧
    (let n : Fin 32 := 3; let r : URun := ({ rtn := { slot := 0x23, ctx := 100 }, begun := true, work := ({ opidx := 1, stack := [], map := 2, hf := 9, care := 0, value := 0 } : Path) :: [{ opidx := 2, stack := [], map := 0, hf := 0 }] } : URun); let h : Hdr := ({ base := 0x10000, slots := 1, tv := 5000, opsOff := 0x400, opsCount := 4, granBytes := 64, symCount := 40, maskCount := 2, wsmCount := 3, redOff := 0x1800, redCount := 4 } : Hdr); let p : Path := ({ opidx := 1, stack := [], map := 2, hf := 9, care := 0, value := 0 } : Path); let rest : List Path := ([{ opidx := 2, stack := [], map := 0, hf := 0 }] : List Path); let o : OpW := (opW 8070458228831420416); let s := served fun d => (let d := d.setEng n { d.eng n with run := some r }; let d := d.setb patB .PAT_STORE_READY true; let d := d.put (ctxBase 100) .CTX_STATE_STATE 3; let d := d.setCx 100 { d.cx 100 with hdr := some h }; let d := d.put (ctxBase 100) .CTX_MAILBOX_DATA 0x1234; d); let s : State := { s with store := ([(66570, 32), (66573, 7), (66575, 112)] : Tab Byte) }; (s.walkAt n r h p rest o) ∧ (o.op = 0x0E) ∧ (o.sub = 0) ∧ (descsOk (s.d.opView n s.store) h (bits8 (o.a % 256)) (o.b % 256) = false)) ∧
    (let n : Fin 32 := 3; let r : URun := ({ rtn := { slot := 0x23, ctx := 100 }, begun := true, work := ({ opidx := 1, stack := [], map := 2, hf := 9, care := 0, value := 0 } : Path) :: [{ opidx := 2, stack := [], map := 0, hf := 0 }] } : URun); let h : Hdr := ({ base := 0x10000, slots := 1, tv := 5000, opsOff := 0x400, opsCount := 4, granBytes := 64, symCount := 40, maskCount := 2, wsmCount := 3, redOff := 0x1800, redCount := 4 } : Hdr); let p : Path := ({ opidx := 1, stack := [], map := 2, hf := 9, care := 0, value := 0 } : Path); let rest : List Path := ([{ opidx := 2, stack := [], map := 0, hf := 0 }] : List Path); let o : OpW := (opW 8142511424821788672); let s := served fun d => (let d := d.setEng n { d.eng n with run := some r }; let d := d.setb patB .PAT_STORE_READY true; let d := d.put (ctxBase 100) .CTX_STATE_STATE 3; let d := d.setCx 100 { d.cx 100 with hdr := some h }; let d := d.put (ctxBase 100) .CTX_MAILBOX_DATA 0x1234; d); let s : State := { s with store := ([(66570, 16), (66573, 3), (66575, 113)] : Tab Byte) }; (s.walkAt n r h p rest o) ∧ (o.op = 0x0E) ∧ (o.sub = 1)) ∧
    (let n : Fin 32 := 3; let r : URun := ({ rtn := { slot := 0x23, ctx := 100 }, begun := true, work := ({ opidx := 1, stack := [], map := 2, hf := 9, care := 0, value := 0 } : Path) :: [{ opidx := 2, stack := [], map := 0, hf := 0 }] } : URun); let h : Hdr := ({ base := 0x10000, slots := 1, tv := 5000, opsOff := 0x400, opsCount := 4, granBytes := 64, symCount := 40, maskCount := 2, wsmCount := 3, redOff := 0x1800, redCount := 4 } : Hdr); let p : Path := ({ opidx := 1, stack := [], map := 2, hf := 9, care := 0, value := 0 } : Path); let rest : List Path := ([{ opidx := 2, stack := [], map := 0, hf := 0 }] : List Path); let o : OpW := (opW 8214569018859716608); let s := served fun d => (let d := d.setEng n { d.eng n with run := some r }; let d := d.setb patB .PAT_STORE_READY true; let d := d.put (ctxBase 100) .CTX_STATE_STATE 3; let d := d.setCx 100 { d.cx 100 with hdr := some h }; let d := d.put (ctxBase 100) .CTX_MAILBOX_DATA 0x1234; d); let s : State := { s with store := ([(66570, 16), (66573, 3), (66575, 114)] : Tab Byte) }; (s.walkAt n r h p rest o) ∧ (o.op = 0x0E) ∧ (o.sub = 2)) ∧
    (let n : Fin 32 := 3; let r : URun := ({ rtn := { slot := 0x23, ctx := 100 }, begun := true, work := ({ opidx := 1, stack := [], map := 2, hf := 9, care := 0, value := 0 } : Path) :: [{ opidx := 2, stack := [], map := 0, hf := 0 }] } : URun); let h : Hdr := ({ base := 0x10000, slots := 1, tv := 5000, opsOff := 0x400, opsCount := 4, granBytes := 64, symCount := 40, maskCount := 2, wsmCount := 3, redOff := 0x1800, redCount := 4 } : Hdr); let p : Path := ({ opidx := 1, stack := [], map := 2, hf := 9, care := 0, value := 0 } : Path); let rest : List Path := ([{ opidx := 2, stack := [], map := 0, hf := 0 }] : List Path); let o : OpW := (opW 8286626612897644544); let s := served fun d => (let d := d.setEng n { d.eng n with run := some r }; let d := d.setb patB .PAT_STORE_READY true; let d := d.put (ctxBase 100) .CTX_STATE_STATE 3; let d := d.setCx 100 { d.cx 100 with hdr := some h }; let d := d.put (ctxBase 100) .CTX_MAILBOX_DATA 0x1234; d); let s : State := { s with store := ([(66570, 16), (66573, 3), (66575, 115)] : Tab Byte) }; (s.walkAt n r h p rest o) ∧ (o.op = 0x0E) ∧ (o.sub = 3)) ∧
    (let n : Fin 32 := 3; let r : URun := ({ rtn := { slot := 0x23, ctx := 100 }, begun := true, work := ({ opidx := 1, stack := [], map := 2, hf := 9, care := 0, value := 0 } : Path) :: [{ opidx := 2, stack := [], map := 0, hf := 0 }] } : URun); let h : Hdr := ({ base := 0x10000, slots := 1, tv := 5000, opsOff := 0x400, opsCount := 4, granBytes := 64, symCount := 40, maskCount := 2, wsmCount := 3, redOff := 0x1800, redCount := 4 } : Hdr); let p : Path := ({ opidx := 1, stack := [], map := 2, hf := 9, care := 0, value := 0 } : Path); let rest : List Path := ([{ opidx := 2, stack := [], map := 0, hf := 0 }] : List Path); let o : OpW := (opW 8646911284551352320); let s := served fun d => (let d := d.setEng n { d.eng n with run := some r }; let d := d.setb patB .PAT_STORE_READY true; let d := d.put (ctxBase 100) .CTX_STATE_STATE 3; let d := d.setCx 100 { d.cx 100 with hdr := some h }; let d := d.put (ctxBase 100) .CTX_MAILBOX_DATA 0x1234; d); let s : State := { s with store := ([(66575, 120)] : Tab Byte) }; (s.walkAt n r h p rest o) ∧ (o.op = 0x0F)) ∧
    (let n : Fin 32 := 3; let r : URun := ({ rtn := { slot := 0x23, ctx := 100 }, begun := true, work := ({ opidx := 1, stack := [], map := 2, hf := 9, care := 0, value := 0 } : Path) :: [{ opidx := 2, stack := [], map := 0, hf := 0 }] } : URun); let h : Hdr := ({ base := 0x10000, slots := 1, tv := 5000, opsOff := 0x400, opsCount := 4, granBytes := 64, symCount := 40, maskCount := 2, wsmCount := 3, redOff := 0x1800, redCount := 4 } : Hdr); let p : Path := ({ opidx := 1, stack := [], map := 2, hf := 9, care := 0, value := 0 } : Path); let rest : List Path := ([{ opidx := 2, stack := [], map := 0, hf := 0 }] : List Path); let o : OpW := (opW 4611686018427387907); let s := served fun d => (let d := d.setEng n { d.eng n with run := some r }; let d := d.setb patB .PAT_STORE_READY true; let d := d.put (ctxBase 100) .CTX_STATE_STATE 3; let d := d.setCx 100 { d.cx 100 with hdr := some h }; let d := d.put (ctxBase 100) .CTX_MAILBOX_DATA 0x1234; d); let s : State := { s with store := ([(66568, 3), (66575, 64)] : Tab Byte) }; (s.walkAt n r h p rest o) ∧ (o.op = 0x08) ∧ (o.sub = 0)) ∧
    (let n : Fin 32 := 3; let r : URun := ({ rtn := { slot := 0x23, ctx := 100 }, begun := true, work := ({ opidx := 1, stack := [], map := 2, hf := 9, care := 0, value := 0 } : Path) :: [{ opidx := 2, stack := [], map := 0, hf := 0 }] } : URun); let h : Hdr := ({ base := 0x10000, slots := 1, tv := 5000, opsOff := 0x400, opsCount := 4, granBytes := 64, symCount := 40, maskCount := 2, wsmCount := 3, redOff := 0x1800, redCount := 4 } : Hdr); let p : Path := ({ opidx := 1, stack := [], map := 2, hf := 9, care := 0, value := 0 } : Path); let rest : List Path := ([{ opidx := 2, stack := [], map := 0, hf := 0 }] : List Path); let o : OpW := (opW 4683743612465315843); let s := served fun d => (let d := d.setEng n { d.eng n with run := some r }; let d := d.setb patB .PAT_STORE_READY true; let d := d.put (ctxBase 100) .CTX_STATE_STATE 3; let d := d.setCx 100 { d.cx 100 with hdr := some h }; let d := d.put (ctxBase 100) .CTX_MAILBOX_DATA 0x1234; d); let s : State := { s with store := ([(66568, 3), (66575, 65)] : Tab Byte) }; (s.walkAt n r h p rest o) ∧ (o.op = 0x08) ∧ (o.sub = 1) ∧ (bitOf p.care 0 = false)) ∧
    (let n : Fin 32 := 3; let r : URun := ({ rtn := { slot := 0x23, ctx := 100 }, begun := true, work := ({ opidx := 1, stack := [], map := 2, hf := 9, care := 1, value := 1 } : Path) :: [{ opidx := 2, stack := [], map := 0, hf := 0 }] } : URun); let h : Hdr := ({ base := 0x10000, slots := 1, tv := 5000, opsOff := 0x400, opsCount := 4, granBytes := 64, symCount := 40, maskCount := 2, wsmCount := 3, redOff := 0x1800, redCount := 4 } : Hdr); let p : Path := ({ opidx := 1, stack := [], map := 2, hf := 9, care := 1, value := 1 } : Path); let rest : List Path := ([{ opidx := 2, stack := [], map := 0, hf := 0 }] : List Path); let o : OpW := (opW 4683743612465315843); let s := served fun d => (let d := d.setEng n { d.eng n with run := some r }; let d := d.setb patB .PAT_STORE_READY true; let d := d.put (ctxBase 100) .CTX_STATE_STATE 3; let d := d.setCx 100 { d.cx 100 with hdr := some h }; let d := d.put (ctxBase 100) .CTX_MAILBOX_DATA 0x1234; d); let s : State := { s with store := ([(66568, 3), (66575, 65)] : Tab Byte) }; (s.walkAt n r h p rest o) ∧ (o.op = 0x08) ∧ (o.sub = 1) ∧ (bitOf p.care 0 = true)) ∧
    (let n : Fin 32 := 3; let r : URun := ({ rtn := { slot := 0x23, ctx := 100 }, begun := true, work := ({ opidx := 1, stack := [], map := 2, hf := 9, care := 0, value := 0 } : Path) :: [{ opidx := 2, stack := [], map := 0, hf := 0 }] } : URun); let h : Hdr := ({ base := 0x10000, slots := 1, tv := 5000, opsOff := 0x400, opsCount := 4, granBytes := 64, symCount := 40, maskCount := 2, wsmCount := 3, redOff := 0x1800, redCount := 4 } : Hdr); let p : Path := ({ opidx := 1, stack := [], map := 2, hf := 9, care := 0, value := 0 } : Path); let rest : List Path := ([{ opidx := 2, stack := [], map := 0, hf := 0 }] : List Path); let o : OpW := (opW 4755801206503243779); let s := served fun d => (let d := d.setEng n { d.eng n with run := some r }; let d := d.setb patB .PAT_STORE_READY true; let d := d.put (ctxBase 100) .CTX_STATE_STATE 3; let d := d.setCx 100 { d.cx 100 with hdr := some h }; let d := d.put (ctxBase 100) .CTX_MAILBOX_DATA 0x1234; d); let s : State := { s with store := ([(66568, 3), (66575, 66)] : Tab Byte) }; (s.walkAt n r h p rest o) ∧ (o.op = 0x08) ∧ (o.sub = 2) ∧ (bitOf p.care 0 = false)) ∧
    (let n : Fin 32 := 3; let r : URun := ({ rtn := { slot := 0x23, ctx := 100 }, begun := true, work := ({ opidx := 1, stack := [], map := 2, hf := 9, care := 0, value := 0 } : Path) :: [{ opidx := 2, stack := [], map := 0, hf := 0 }] } : URun); let h : Hdr := ({ base := 0x10000, slots := 1, tv := 5000, opsOff := 0x400, opsCount := 4, granBytes := 64, symCount := 40, maskCount := 2, wsmCount := 3, redOff := 0x1800, redCount := 4 } : Hdr); let p : Path := ({ opidx := 1, stack := [], map := 2, hf := 9, care := 0, value := 0 } : Path); let rest : List Path := ([{ opidx := 2, stack := [], map := 0, hf := 0 }] : List Path); let o : OpW := (opW 4827858800541171715); let s := served fun d => (let d := d.setEng n { d.eng n with run := some r }; let d := d.setb patB .PAT_STORE_READY true; let d := d.put (ctxBase 100) .CTX_STATE_STATE 3; let d := d.setCx 100 { d.cx 100 with hdr := some h }; let d := d.put (ctxBase 100) .CTX_MAILBOX_DATA 0x1234; d); let s : State := { s with store := ([(66568, 3), (66575, 67)] : Tab Byte) }; (s.walkAt n r h p rest o) ∧ (o.op = 0x08) ∧ (o.sub = 3) ∧ (bitOf p.care 1 = false)) ∧
    (let n : Fin 32 := 3; let r : URun := ({ rtn := { slot := 0x23, ctx := 100 }, begun := true, work := ({ opidx := 1, stack := [], map := 2, hf := 9, care := 0, value := 0 } : Path) :: [{ opidx := 2, stack := [], map := 0, hf := 0 }] } : URun); let h : Hdr := ({ base := 0x10000, slots := 1, tv := 5000, opsOff := 0x400, opsCount := 4, granBytes := 64, symCount := 40, maskCount := 2, wsmCount := 3, redOff := 0x1800, redCount := 4 } : Hdr); let p : Path := ({ opidx := 1, stack := [], map := 2, hf := 9, care := 0, value := 0 } : Path); let rest : List Path := ([{ opidx := 2, stack := [], map := 0, hf := 0 }] : List Path); let o : OpW := (opW 4899916394579099651); let s := served fun d => (let d := d.setEng n { d.eng n with run := some r }; let d := d.setb patB .PAT_STORE_READY true; let d := d.put (ctxBase 100) .CTX_STATE_STATE 3; let d := d.setCx 100 { d.cx 100 with hdr := some h }; let d := d.put (ctxBase 100) .CTX_MAILBOX_DATA 0x1234; d); let s : State := { s with store := ([(66568, 3), (66575, 68)] : Tab Byte) }; (s.walkAt n r h p rest o) ∧ (o.op = 0x08) ∧ (4 ≤ o.sub) ∧ (o.sub ≤ 6) ∧ (bitOf p.care (o.sub - 2) = false)) ∧
    (let n : Fin 32 := 3; let r : URun := ({ rtn := { slot := 0x23, ctx := 100 }, begun := true, work := ({ opidx := 1, stack := [], map := 2, hf := 9, care := 0, value := 0 } : Path) :: [{ opidx := 2, stack := [], map := 0, hf := 0 }] } : URun); let h : Hdr := ({ base := 0x10000, slots := 1, tv := 5000, opsOff := 0x400, opsCount := 4, granBytes := 64, symCount := 40, maskCount := 2, wsmCount := 3, redOff := 0x1800, redCount := 4 } : Hdr); let p : Path := ({ opidx := 1, stack := [], map := 2, hf := 9, care := 0, value := 0 } : Path); let rest : List Path := ([{ opidx := 2, stack := [], map := 0, hf := 0 }] : List Path); let o : OpW := (opW 5116089176692883459); let s := served fun d => (let d := d.setEng n { d.eng n with run := some r }; let d := d.setb patB .PAT_STORE_READY true; let d := d.put (ctxBase 100) .CTX_STATE_STATE 3; let d := d.setCx 100 { d.cx 100 with hdr := some h }; let d := d.put (ctxBase 100) .CTX_MAILBOX_DATA 0x1234; d); let s : State := { s with store := ([(66568, 3), (66575, 71)] : Tab Byte) }; (s.walkAt n r h p rest o) ∧ (o.op = 0x08) ∧ (o.sub = 7)) ∧
    (let n : Fin 32 := 3; let r : URun := ({ rtn := { slot := 0x23, ctx := 100 }, begun := true, work := ({ opidx := 1, stack := [{ kind := .ret, op := 2, count := 0 }, { kind := .mtch, op := 0, count := 1, fresh := true }], map := 2, hf := 9, care := 0, value := 0 } : Path) :: [{ opidx := 2, stack := [], map := 0, hf := 0 }] } : URun); let h : Hdr := ({ base := 0x10000, slots := 1, tv := 5000, opsOff := 0x400, opsCount := 4, granBytes := 64, symCount := 40, maskCount := 2, wsmCount := 3, redOff := 0x1800, redCount := 4 } : Hdr); let p : Path := ({ opidx := 1, stack := [{ kind := .ret, op := 2, count := 0 }, { kind := .mtch, op := 0, count := 1, fresh := true }], map := 2, hf := 9, care := 0, value := 0 } : Path); let rest : List Path := ([{ opidx := 2, stack := [], map := 0, hf := 0 }] : List Path); let o : OpW := (opW 5764607523034234880); let below := ([{ kind := .ret, op := 2, count := 0 }] : List Frame); let f := ({ kind := .mtch, op := 0, count := 1, fresh := true } : Frame); let s := served fun d => (let d := d.setEng n { d.eng n with run := some r }; let d := d.setb patB .PAT_STORE_READY true; let d := d.put (ctxBase 100) .CTX_STATE_STATE 3; let d := d.setCx 100 { d.cx 100 with hdr := some h }; let d := d.put (ctxBase 100) .CTX_MAILBOX_DATA 0x1234; d); let s : State := { s with store := ([(66575, 80)] : Tab Byte) }; (s.walkAt n r h p rest o) ∧ (p.stack = below ++ [f]) ∧ (f.kind = .mtch) ∧ (o.op = 0x0A) ∧ (f.fresh = true)) ∧
    (let n : Fin 32 := 3; let r : URun := ({ rtn := { slot := 0x23, ctx := 100 }, begun := true, work := ({ opidx := 1, stack := [{ kind := .ret, op := 2, count := 0 }, { kind := .mtch, op := 0, count := 1 }], map := 2, hf := 9, care := 0, value := 0 } : Path) :: [{ opidx := 2, stack := [], map := 0, hf := 0 }] } : URun); let h : Hdr := ({ base := 0x10000, slots := 1, tv := 5000, opsOff := 0x400, opsCount := 4, granBytes := 64, symCount := 40, maskCount := 2, wsmCount := 3, redOff := 0x1800, redCount := 4 } : Hdr); let p : Path := ({ opidx := 1, stack := [{ kind := .ret, op := 2, count := 0 }, { kind := .mtch, op := 0, count := 1 }], map := 2, hf := 9, care := 0, value := 0 } : Path); let rest : List Path := ([{ opidx := 2, stack := [], map := 0, hf := 0 }] : List Path); let o : OpW := (opW 5764607523034234880); let below := ([{ kind := .ret, op := 2, count := 0 }] : List Frame); let f := ({ kind := .mtch, op := 0, count := 1 } : Frame); let s := served fun d => (let d := d.setEng n { d.eng n with run := some r }; let d := d.setb patB .PAT_STORE_READY true; let d := d.put (ctxBase 100) .CTX_STATE_STATE 3; let d := d.setCx 100 { d.cx 100 with hdr := some h }; let d := d.put (ctxBase 100) .CTX_MAILBOX_DATA 0x1234; d); let s : State := { s with store := ([(66560, 3), (66562, 32), (66565, 1), (66567, 73), (66575, 80)] : Tab Byte) }; let m := h.opAt (s.d.opView n s.store) f.op; (s.walkAt n r h p rest o) ∧ (p.stack = below ++ [f]) ∧ (f.kind = .mtch) ∧ (o.op = 0x0A) ∧ (f.fresh = false) ∧ (p.judged = false) ∧ (r.mframe = none) ∧ (bitOf p.care 5 = false) ∧ (m.a % 16 < h.maskCount)) ∧
    (let n : Fin 32 := 3; let r : URun := ({ rtn := { slot := 0x23, ctx := 100 }, begun := true, work := ({ opidx := 1, stack := [], map := 2, hf := 9, care := 0, value := 0 } : Path) :: [{ opidx := 2, stack := [], map := 0, hf := 0 }] } : URun); let h : Hdr := ({ base := 0x10000, slots := 1, tv := 5000, opsOff := 0x400, opsCount := 4, granBytes := 64, symCount := 40, maskCount := 2, wsmCount := 3, redOff := 0x1800, redCount := 4 } : Hdr); let p : Path := ({ opidx := 1, stack := [], map := 2, hf := 9, care := 0, value := 0 } : Path); let rest : List Path := ([{ opidx := 2, stack := [], map := 0, hf := 0 }] : List Path); let o : OpW := (opW 9223372036854775808); let s := served fun d => (let d := d.setEng n { d.eng n with run := some r }; let d := d.setb patB .PAT_STORE_READY true; let d := d.put (ctxBase 100) .CTX_STATE_STATE 3; let d := d.setCx 100 { d.cx 100 with hdr := some h }; let d := d.put (ctxBase 100) .CTX_MAILBOX_DATA 0x1234; d); let s : State := { s with store := ([(66575, 128)] : Tab Byte) }; (s.walkAt n r h p rest o) ∧ (o.op = 0x10)) ∧
    (let n : Fin 32 := 3; let r : URun := ({ rtn := { slot := 0x23, ctx := 100 }, begun := true, work := ({ opidx := 1, stack := [], map := 2, hf := 9, care := 0, value := 0 } : Path) :: [{ opidx := 2, stack := [], map := 0, hf := 0 }] } : URun); let h : Hdr := ({ base := 0x10000, slots := 1, tv := 5000, opsOff := 0x400, opsCount := 4, granBytes := 64, symCount := 40, maskCount := 2, wsmCount := 3, redOff := 0x1800, redCount := 4 } : Hdr); let p : Path := ({ opidx := 1, stack := [], map := 2, hf := 9, care := 0, value := 0 } : Path); let rest : List Path := ([{ opidx := 2, stack := [], map := 0, hf := 0 }] : List Path); let o : OpW := (opW 9799832789158199296); let s := served fun d => (let d := d.setEng n { d.eng n with run := some r }; let d := d.setb patB .PAT_STORE_READY true; let d := d.put (ctxBase 100) .CTX_STATE_STATE 3; let d := d.setCx 100 { d.cx 100 with hdr := some h }; let d := d.put (ctxBase 100) .CTX_MAILBOX_DATA 0x1234; d); let s : State := { s with store := ([(66575, 136)] : Tab Byte) }; (s.walkAt n r h p rest o) ∧ (o.op = 0x11)) := by
  refine ⟨?_, ?_, ?_, ?_, ?_, ?_, ?_, ?_, ?_, ?_, ?_, ?_, ?_, ?_, ?_, ?_, ?_, ?_, ?_, ?_, ?_, ?_, ?_, ?_, ?_, ?_, ?_, ?_, ?_, ?_, ?_, ?_, ?_, ?_, ?_, ?_⟩ <;> (try dsimp only [Dev.recorded, State.walkAt, Dev.atRoutine, Dev.atWord]) <;> decide +kernel

/-- States and operands that meet the hypotheses of clauses of `Obligations.MicroArithmetic`. -/
theorem witness_MicroArithmetic :
    (let n : Fin 32 := 3; let r : URun := ({ rtn := { slot := 0x23, ctx := 100, arg := 5 }, upc := 0x100, w := [7, 0xFFFFF, 3, 0xABCDE, 1, 0, 0x80000, 2], latch := 0x123456789ABCDEF0 } : URun); let x : BitVec 15 := 0; let w := x.toNat; let s := served fun d => (let d := d.setEng n { d.eng n with run := some r }; let d := d.setb patB .PAT_STORE_READY true; let d := d.put (ctxBase 100) .CTX_STATE_STATE 3; let d := d.setCx 100 { d.cx 100 with hdr := some ({ base := 0x10000, slots := 1, tv := 5000, opsOff := 0x400, opsCount := 3, granBytes := 64, symOff := 0x800, symCount := 8, timOff := 0xC00, timCount := 1, wsmCount := 1, wsmOff := 0x1000, auxOff := 0x1400, redOff := 0x1800, redCount := 1, maskCount := 1 } : Hdr) }; let d := d.put (ctxBase 100) .CTX_MAILBOX_DATA 0xF1234; d); let s : State := { s with store := ([(65536, 49), (65537, 86), (65538, 72), (65539, 90), (65540, 1), (65542, 1), (65543, 1), (65544, 136), (65545, 19), (65553, 4), (65560, 3), (65564, 64), (65569, 8), (65576, 8), (65585, 12), (65592, 1), (65594, 1), (65601, 16), (65609, 20), (65617, 24), (65624, 1), (65626, 1), (65660, 63), (65661, 153), (65662, 17), (65663, 218), (66565, 4), (66567, 8), (66568, 1), (66573, 4), (66575, 16), (66583, 144)] : Tab Byte) }; (s.d.atWord n r 0x00 w)) ∧
    (let n : Fin 32 := 3; let r : URun := ({ rtn := { slot := 0x23, ctx := 100, arg := 5 }, upc := 0x100, w := [7, 0xFFFFF, 3, 0xABCDE, 1, 0, 0x80000, 2], latch := 0x123456789ABCDEF0 } : URun); let x : BitVec 15 := 25546; let w := x.toNat; let s := served fun d => (let d := d.setEng n { d.eng n with run := some r }; let d := d.setb patB .PAT_STORE_READY true; let d := d.put (ctxBase 100) .CTX_STATE_STATE 3; let d := d.setCx 100 { d.cx 100 with hdr := some ({ base := 0x10000, slots := 1, tv := 5000, opsOff := 0x400, opsCount := 3, granBytes := 64, symOff := 0x800, symCount := 8, timOff := 0xC00, timCount := 1, wsmCount := 1, wsmOff := 0x1000, auxOff := 0x1400, redOff := 0x1800, redCount := 1, maskCount := 1 } : Hdr) }; let d := d.put (ctxBase 100) .CTX_MAILBOX_DATA 0xF1234; d); let s : State := { s with store := ([(65536, 49), (65537, 86), (65538, 72), (65539, 90), (65540, 1), (65542, 1), (65543, 1), (65544, 136), (65545, 19), (65553, 4), (65560, 3), (65564, 64), (65569, 8), (65576, 8), (65585, 12), (65592, 1), (65594, 1), (65601, 16), (65609, 20), (65617, 24), (65624, 1), (65626, 1), (65660, 63), (65661, 153), (65662, 17), (65663, 218), (66565, 4), (66567, 8), (66568, 1), (66573, 4), (66575, 16), (66583, 144)] : Tab Byte) }; (s.d.atWord n r 0x01 w)) ∧
    (let n : Fin 32 := 3; let r : URun := ({ rtn := { slot := 0x23, ctx := 100, arg := 5 }, upc := 0x100, w := [7, 0xFFFFF, 3, 0xABCDE, 1, 0, 0x80000, 2], latch := 0x123456789ABCDEF0 } : URun); let x : BitVec 15 := 24726; let w := x.toNat; let s := served fun d => (let d := d.setEng n { d.eng n with run := some r }; let d := d.setb patB .PAT_STORE_READY true; let d := d.put (ctxBase 100) .CTX_STATE_STATE 3; let d := d.setCx 100 { d.cx 100 with hdr := some ({ base := 0x10000, slots := 1, tv := 5000, opsOff := 0x400, opsCount := 3, granBytes := 64, symOff := 0x800, symCount := 8, timOff := 0xC00, timCount := 1, wsmCount := 1, wsmOff := 0x1000, auxOff := 0x1400, redOff := 0x1800, redCount := 1, maskCount := 1 } : Hdr) }; let d := d.put (ctxBase 100) .CTX_MAILBOX_DATA 0xF1234; d); let s : State := { s with store := ([(65536, 49), (65537, 86), (65538, 72), (65539, 90), (65540, 1), (65542, 1), (65543, 1), (65544, 136), (65545, 19), (65553, 4), (65560, 3), (65564, 64), (65569, 8), (65576, 8), (65585, 12), (65592, 1), (65594, 1), (65601, 16), (65609, 20), (65617, 24), (65624, 1), (65626, 1), (65660, 63), (65661, 153), (65662, 17), (65663, 218), (66565, 4), (66567, 8), (66568, 1), (66573, 4), (66575, 16), (66583, 144)] : Tab Byte) }; (s.d.atWord n r 0x02 w)) ∧
    (let n : Fin 32 := 3; let r : URun := ({ rtn := { slot := 0x23, ctx := 100, arg := 5 }, upc := 0x100, w := [7, 0xFFFFF, 3, 0xABCDE, 1, 0, 0x80000, 2], latch := 0x123456789ABCDEF0 } : URun); let x : BitVec 15 := 18944; let w := x.toNat; let s := served fun d => (let d := d.setEng n { d.eng n with run := some r }; let d := d.setb patB .PAT_STORE_READY true; let d := d.put (ctxBase 100) .CTX_STATE_STATE 3; let d := d.setCx 100 { d.cx 100 with hdr := some ({ base := 0x10000, slots := 1, tv := 5000, opsOff := 0x400, opsCount := 3, granBytes := 64, symOff := 0x800, symCount := 8, timOff := 0xC00, timCount := 1, wsmCount := 1, wsmOff := 0x1000, auxOff := 0x1400, redOff := 0x1800, redCount := 1, maskCount := 1 } : Hdr) }; let d := d.put (ctxBase 100) .CTX_MAILBOX_DATA 0xF1234; d); let s : State := { s with store := ([(65536, 49), (65537, 86), (65538, 72), (65539, 90), (65540, 1), (65542, 1), (65543, 1), (65544, 136), (65545, 19), (65553, 4), (65560, 3), (65564, 64), (65569, 8), (65576, 8), (65585, 12), (65592, 1), (65594, 1), (65601, 16), (65609, 20), (65617, 24), (65624, 1), (65626, 1), (65660, 63), (65661, 153), (65662, 17), (65663, 218), (66565, 4), (66567, 8), (66568, 1), (66573, 4), (66575, 16), (66583, 144)] : Tab Byte) }; (s.d.atWord n r 0x03 w)) ∧
    (let n : Fin 32 := 3; let r : URun := ({ rtn := { slot := 0x23, ctx := 100, arg := 5 }, upc := 0x100, w := [7, 0xFFFFF, 3, 0xABCDE, 1, 0, 0x80000, 2], latch := 0x123456789ABCDEF0 } : URun); let x : BitVec 15 := 32704; let w := x.toNat; let s := served fun d => (let d := d.setEng n { d.eng n with run := some r }; let d := d.setb patB .PAT_STORE_READY true; let d := d.put (ctxBase 100) .CTX_STATE_STATE 3; let d := d.setCx 100 { d.cx 100 with hdr := some ({ base := 0x10000, slots := 1, tv := 5000, opsOff := 0x400, opsCount := 3, granBytes := 64, symOff := 0x800, symCount := 8, timOff := 0xC00, timCount := 1, wsmCount := 1, wsmOff := 0x1000, auxOff := 0x1400, redOff := 0x1800, redCount := 1, maskCount := 1 } : Hdr) }; let d := d.put (ctxBase 100) .CTX_MAILBOX_DATA 0xF1234; d); let s : State := { s with store := ([(65536, 49), (65537, 86), (65538, 72), (65539, 90), (65540, 1), (65542, 1), (65543, 1), (65544, 136), (65545, 19), (65553, 4), (65560, 3), (65564, 64), (65569, 8), (65576, 8), (65585, 12), (65592, 1), (65594, 1), (65601, 16), (65609, 20), (65617, 24), (65624, 1), (65626, 1), (65660, 63), (65661, 153), (65662, 17), (65663, 218), (66565, 4), (66567, 8), (66568, 1), (66573, 4), (66575, 16), (66583, 144)] : Tab Byte) }; (s.d.atWord n r 0x04 w)) ∧
    (let n : Fin 32 := 3; let r : URun := ({ rtn := { slot := 0x23, ctx := 100, arg := 5 }, upc := 0x100, w := [7, 0xFFFFF, 3, 0xABCDE, 1, 0, 0x80000, 2], latch := 0x123456789ABCDEF0 } : URun); let x : BitVec 15 := 7040; let w := x.toNat; let s := served fun d => (let d := d.setEng n { d.eng n with run := some r }; let d := d.setb patB .PAT_STORE_READY true; let d := d.put (ctxBase 100) .CTX_STATE_STATE 3; let d := d.setCx 100 { d.cx 100 with hdr := some ({ base := 0x10000, slots := 1, tv := 5000, opsOff := 0x400, opsCount := 3, granBytes := 64, symOff := 0x800, symCount := 8, timOff := 0xC00, timCount := 1, wsmCount := 1, wsmOff := 0x1000, auxOff := 0x1400, redOff := 0x1800, redCount := 1, maskCount := 1 } : Hdr) }; let d := d.put (ctxBase 100) .CTX_MAILBOX_DATA 0xF1234; d); let s : State := { s with store := ([(65536, 49), (65537, 86), (65538, 72), (65539, 90), (65540, 1), (65542, 1), (65543, 1), (65544, 136), (65545, 19), (65553, 4), (65560, 3), (65564, 64), (65569, 8), (65576, 8), (65585, 12), (65592, 1), (65594, 1), (65601, 16), (65609, 20), (65617, 24), (65624, 1), (65626, 1), (65660, 63), (65661, 153), (65662, 17), (65663, 218), (66565, 4), (66567, 8), (66568, 1), (66573, 4), (66575, 16), (66583, 144)] : Tab Byte) }; (s.d.atWord n r 0x05 w)) ∧
    (let n : Fin 32 := 3; let r : URun := ({ rtn := { slot := 0x23, ctx := 100, arg := 5 }, upc := 0x100, w := [7, 0xFFFFF, 3, 0xABCDE, 1, 0, 0x80000, 2], latch := 0x123456789ABCDEF0 } : URun); let x : BitVec 15 := 14872; let w := x.toNat; let s := served fun d => (let d := d.setEng n { d.eng n with run := some r }; let d := d.setb patB .PAT_STORE_READY true; let d := d.put (ctxBase 100) .CTX_STATE_STATE 3; let d := d.setCx 100 { d.cx 100 with hdr := some ({ base := 0x10000, slots := 1, tv := 5000, opsOff := 0x400, opsCount := 3, granBytes := 64, symOff := 0x800, symCount := 8, timOff := 0xC00, timCount := 1, wsmCount := 1, wsmOff := 0x1000, auxOff := 0x1400, redOff := 0x1800, redCount := 1, maskCount := 1 } : Hdr) }; let d := d.put (ctxBase 100) .CTX_MAILBOX_DATA 0xF1234; d); let s : State := { s with store := ([(65536, 49), (65537, 86), (65538, 72), (65539, 90), (65540, 1), (65542, 1), (65543, 1), (65544, 136), (65545, 19), (65553, 4), (65560, 3), (65564, 64), (65569, 8), (65576, 8), (65585, 12), (65592, 1), (65594, 1), (65601, 16), (65609, 20), (65617, 24), (65624, 1), (65626, 1), (65660, 63), (65661, 153), (65662, 17), (65663, 218), (66565, 4), (66567, 8), (66568, 1), (66573, 4), (66575, 16), (66583, 144)] : Tab Byte) }; (s.d.atWord n r 0x06 w)) ∧
    (let n : Fin 32 := 3; let r : URun := ({ rtn := { slot := 0x23, ctx := 100, arg := 5 }, upc := 0x100, w := [7, 0xFFFFF, 3, 0xABCDE, 1, 0, 0x80000, 2], latch := 0x123456789ABCDEF0 } : URun); let x : BitVec 15 := 13440; let w := x.toNat; let s := served fun d => (let d := d.setEng n { d.eng n with run := some r }; let d := d.setb patB .PAT_STORE_READY true; let d := d.put (ctxBase 100) .CTX_STATE_STATE 3; let d := d.setCx 100 { d.cx 100 with hdr := some ({ base := 0x10000, slots := 1, tv := 5000, opsOff := 0x400, opsCount := 3, granBytes := 64, symOff := 0x800, symCount := 8, timOff := 0xC00, timCount := 1, wsmCount := 1, wsmOff := 0x1000, auxOff := 0x1400, redOff := 0x1800, redCount := 1, maskCount := 1 } : Hdr) }; let d := d.put (ctxBase 100) .CTX_MAILBOX_DATA 0xF1234; d); let s : State := { s with store := ([(65536, 49), (65537, 86), (65538, 72), (65539, 90), (65540, 1), (65542, 1), (65543, 1), (65544, 136), (65545, 19), (65553, 4), (65560, 3), (65564, 64), (65569, 8), (65576, 8), (65585, 12), (65592, 1), (65594, 1), (65601, 16), (65609, 20), (65617, 24), (65624, 1), (65626, 1), (65660, 63), (65661, 153), (65662, 17), (65663, 218), (66565, 4), (66567, 8), (66568, 1), (66573, 4), (66575, 16), (66583, 144)] : Tab Byte) }; (s.d.atWord n r 0x07 w)) ∧
    (let n : Fin 32 := 3; let r : URun := ({ rtn := { slot := 0x23, ctx := 100, arg := 5 }, upc := 0x100, w := [7, 0xFFFFF, 3, 0xABCDE, 1, 0, 0x80000, 2], latch := 0x123456789ABCDEF0 } : URun); let x : BitVec 15 := 21696; let w := x.toNat; let s := served fun d => (let d := d.setEng n { d.eng n with run := some r }; let d := d.setb patB .PAT_STORE_READY true; let d := d.put (ctxBase 100) .CTX_STATE_STATE 3; let d := d.setCx 100 { d.cx 100 with hdr := some ({ base := 0x10000, slots := 1, tv := 5000, opsOff := 0x400, opsCount := 3, granBytes := 64, symOff := 0x800, symCount := 8, timOff := 0xC00, timCount := 1, wsmCount := 1, wsmOff := 0x1000, auxOff := 0x1400, redOff := 0x1800, redCount := 1, maskCount := 1 } : Hdr) }; let d := d.put (ctxBase 100) .CTX_MAILBOX_DATA 0xF1234; d); let s : State := { s with store := ([(65536, 49), (65537, 86), (65538, 72), (65539, 90), (65540, 1), (65542, 1), (65543, 1), (65544, 136), (65545, 19), (65553, 4), (65560, 3), (65564, 64), (65569, 8), (65576, 8), (65585, 12), (65592, 1), (65594, 1), (65601, 16), (65609, 20), (65617, 24), (65624, 1), (65626, 1), (65660, 63), (65661, 153), (65662, 17), (65663, 218), (66565, 4), (66567, 8), (66568, 1), (66573, 4), (66575, 16), (66583, 144)] : Tab Byte) }; (s.d.atWord n r 0x08 w)) ∧
    (let n : Fin 32 := 3; let r : URun := ({ rtn := { slot := 0x23, ctx := 100, arg := 5 }, upc := 0x100, w := [7, 0xFFFFF, 3, 0xABCDE, 1, 0, 0x80000, 2], latch := 0x123456789ABCDEF0 } : URun); let x : BitVec 15 := 29632; let w := x.toNat; let s := served fun d => (let d := d.setEng n { d.eng n with run := some r }; let d := d.setb patB .PAT_STORE_READY true; let d := d.put (ctxBase 100) .CTX_STATE_STATE 3; let d := d.setCx 100 { d.cx 100 with hdr := some ({ base := 0x10000, slots := 1, tv := 5000, opsOff := 0x400, opsCount := 3, granBytes := 64, symOff := 0x800, symCount := 8, timOff := 0xC00, timCount := 1, wsmCount := 1, wsmOff := 0x1000, auxOff := 0x1400, redOff := 0x1800, redCount := 1, maskCount := 1 } : Hdr) }; let d := d.put (ctxBase 100) .CTX_MAILBOX_DATA 0xF1234; d); let s : State := { s with store := ([(65536, 49), (65537, 86), (65538, 72), (65539, 90), (65540, 1), (65542, 1), (65543, 1), (65544, 136), (65545, 19), (65553, 4), (65560, 3), (65564, 64), (65569, 8), (65576, 8), (65585, 12), (65592, 1), (65594, 1), (65601, 16), (65609, 20), (65617, 24), (65624, 1), (65626, 1), (65660, 63), (65661, 153), (65662, 17), (65663, 218), (66565, 4), (66567, 8), (66568, 1), (66573, 4), (66575, 16), (66583, 144)] : Tab Byte) }; (s.d.atWord n r 0x09 w)) ∧
    (let n : Fin 32 := 3; let r : URun := ({ rtn := { slot := 0x23, ctx := 100, arg := 5 }, upc := 0x100, w := [7, 0xFFFFF, 3, 0xABCDE, 1, 0, 0x80000, 2], latch := 0x123456789ABCDEF0 } : URun); let x : BitVec 15 := 16389; let w := x.toNat; let s := served fun d => (let d := d.setEng n { d.eng n with run := some r }; let d := d.setb patB .PAT_STORE_READY true; let d := d.put (ctxBase 100) .CTX_STATE_STATE 3; let d := d.setCx 100 { d.cx 100 with hdr := some ({ base := 0x10000, slots := 1, tv := 5000, opsOff := 0x400, opsCount := 3, granBytes := 64, symOff := 0x800, symCount := 8, timOff := 0xC00, timCount := 1, wsmCount := 1, wsmOff := 0x1000, auxOff := 0x1400, redOff := 0x1800, redCount := 1, maskCount := 1 } : Hdr) }; let d := d.put (ctxBase 100) .CTX_MAILBOX_DATA 0xF1234; d); let s : State := { s with store := ([(65536, 49), (65537, 86), (65538, 72), (65539, 90), (65540, 1), (65542, 1), (65543, 1), (65544, 136), (65545, 19), (65553, 4), (65560, 3), (65564, 64), (65569, 8), (65576, 8), (65585, 12), (65592, 1), (65594, 1), (65601, 16), (65609, 20), (65617, 24), (65624, 1), (65626, 1), (65660, 63), (65661, 153), (65662, 17), (65663, 218), (66565, 4), (66567, 8), (66568, 1), (66573, 4), (66575, 16), (66583, 144)] : Tab Byte) }; (s.d.atWord n r 0x0A w)) ∧
    (let n : Fin 32 := 3; let r : URun := ({ rtn := { slot := 0x23, ctx := 100, arg := 5 }, upc := 0x100, w := [7, 0xFFFFF, 3, 0xABCDE, 1, 0, 0x80000, 2], latch := 0x123456789ABCDEF0 } : URun); let x : BitVec 15 := 1344; let w := x.toNat; let s := served fun d => (let d := d.setEng n { d.eng n with run := some r }; let d := d.setb patB .PAT_STORE_READY true; let d := d.put (ctxBase 100) .CTX_STATE_STATE 3; let d := d.setCx 100 { d.cx 100 with hdr := some ({ base := 0x10000, slots := 1, tv := 5000, opsOff := 0x400, opsCount := 3, granBytes := 64, symOff := 0x800, symCount := 8, timOff := 0xC00, timCount := 1, wsmCount := 1, wsmOff := 0x1000, auxOff := 0x1400, redOff := 0x1800, redCount := 1, maskCount := 1 } : Hdr) }; let d := d.put (ctxBase 100) .CTX_MAILBOX_DATA 0xF1234; d); let s : State := { s with store := ([(65536, 49), (65537, 86), (65538, 72), (65539, 90), (65540, 1), (65542, 1), (65543, 1), (65544, 136), (65545, 19), (65553, 4), (65560, 3), (65564, 64), (65569, 8), (65576, 8), (65585, 12), (65592, 1), (65594, 1), (65601, 16), (65609, 20), (65617, 24), (65624, 1), (65626, 1), (65660, 63), (65661, 153), (65662, 17), (65663, 218), (66565, 4), (66567, 8), (66568, 1), (66573, 4), (66575, 16), (66583, 144)] : Tab Byte) }; (s.d.atWord n r 0x0B w)) := by
  refine ⟨?_, ?_, ?_, ?_, ?_, ?_, ?_, ?_, ?_, ?_, ?_, ?_⟩ <;> (try dsimp only [Dev.recorded, State.walkAt, Dev.atRoutine, Dev.atWord]) <;> decide +kernel

/-- States and operands that meet the hypotheses of clauses of `Obligations.MicroControl`. -/
theorem witness_MicroControl :
    (let n : Fin 32 := 3; let r : URun := ({ rtn := { slot := 0x23, ctx := 100, arg := 5 }, upc := 0x100, w := [7, 0xFFFFF, 3, 0xABCDE, 1, 0, 0x80000, 2], latch := 0x123456789ABCDEF0, z := true, c := true } : URun); let x : BitVec 15 := 0; let w := x.toNat; let s := served fun d => (let d := d.setEng n { d.eng n with run := some r }; let d := d.setb patB .PAT_STORE_READY true; let d := d.put (ctxBase 100) .CTX_STATE_STATE 3; let d := d.setCx 100 { d.cx 100 with hdr := some ({ base := 0x10000, slots := 1, tv := 5000, opsOff := 0x400, opsCount := 3, granBytes := 64, symOff := 0x800, symCount := 8, timOff := 0xC00, timCount := 1, wsmCount := 1, wsmOff := 0x1000, auxOff := 0x1400, redOff := 0x1800, redCount := 1, maskCount := 1 } : Hdr) }; let d := d.put (ctxBase 100) .CTX_MAILBOX_DATA 0xF1234; d); let s : State := { s with store := ([(65536, 49), (65537, 86), (65538, 72), (65539, 90), (65540, 1), (65542, 1), (65543, 1), (65544, 136), (65545, 19), (65553, 4), (65560, 3), (65564, 64), (65569, 8), (65576, 8), (65585, 12), (65592, 1), (65594, 1), (65601, 16), (65609, 20), (65617, 24), (65624, 1), (65626, 1), (65660, 63), (65661, 153), (65662, 17), (65663, 218), (66565, 4), (66567, 8), (66568, 1), (66573, 4), (66575, 16), (66583, 144)] : Tab Byte) }; (s.d.atWord n r 0x0C w) ∧ (w < 6)) ∧
    (let n : Fin 32 := 3; let r : URun := ({ rtn := { slot := 0x23, ctx := 100, arg := 5 }, upc := 0x100, w := [7, 0xFFFFF, 3, 0xABCDE, 1, 0, 0x80000, 2], latch := 0x123456789ABCDEF0 } : URun); let x : BitVec 15 := 6; let w := x.toNat; let s := served fun d => (let d := d.setEng n { d.eng n with run := some r }; let d := d.setb patB .PAT_STORE_READY true; let d := d.put (ctxBase 100) .CTX_STATE_STATE 3; let d := d.setCx 100 { d.cx 100 with hdr := some ({ base := 0x10000, slots := 1, tv := 5000, opsOff := 0x400, opsCount := 3, granBytes := 64, symOff := 0x800, symCount := 8, timOff := 0xC00, timCount := 1, wsmCount := 1, wsmOff := 0x1000, auxOff := 0x1400, redOff := 0x1800, redCount := 1, maskCount := 1 } : Hdr) }; let d := d.put (ctxBase 100) .CTX_MAILBOX_DATA 0xF1234; d); let s : State := { s with store := ([(65536, 49), (65537, 86), (65538, 72), (65539, 90), (65540, 1), (65542, 1), (65543, 1), (65544, 136), (65545, 19), (65553, 4), (65560, 3), (65564, 64), (65569, 8), (65576, 8), (65585, 12), (65592, 1), (65594, 1), (65601, 16), (65609, 20), (65617, 24), (65624, 1), (65626, 1), (65660, 63), (65661, 153), (65662, 17), (65663, 218), (66565, 4), (66567, 8), (66568, 1), (66573, 4), (66575, 16), (66583, 144)] : Tab Byte) }; (s.d.atWord n r 0x0C w) ∧ (6 ≤ w) ∧ (w ≤ 9)) ∧
    (let n : Fin 32 := 3; let r : URun := ({ rtn := { slot := 0x23, ctx := 100, arg := 5 }, upc := 0x100, w := [7, 0xFFFFF, 3, 0xABCDE, 1, 0, 0x80000, 2], latch := 0x123456789ABCDEF0 } : URun); let x : BitVec 15 := 10; let w := x.toNat; let s := served fun d => (let d := d.setEng n { d.eng n with run := some r }; let d := d.setb patB .PAT_STORE_READY true; let d := d.put (ctxBase 100) .CTX_STATE_STATE 3; let d := d.setCx 100 { d.cx 100 with hdr := some ({ base := 0x10000, slots := 1, tv := 5000, opsOff := 0x400, opsCount := 3, granBytes := 64, symOff := 0x800, symCount := 8, timOff := 0xC00, timCount := 1, wsmCount := 1, wsmOff := 0x1000, auxOff := 0x1400, redOff := 0x1800, redCount := 1, maskCount := 1 } : Hdr) }; let d := d.put (ctxBase 100) .CTX_MAILBOX_DATA 0xF1234; d); let s : State := { s with store := ([(65536, 49), (65537, 86), (65538, 72), (65539, 90), (65540, 1), (65542, 1), (65543, 1), (65544, 136), (65545, 19), (65553, 4), (65560, 3), (65564, 64), (65569, 8), (65576, 8), (65585, 12), (65592, 1), (65594, 1), (65601, 16), (65609, 20), (65617, 24), (65624, 1), (65626, 1), (65660, 63), (65661, 153), (65662, 17), (65663, 218), (66565, 4), (66567, 8), (66568, 1), (66573, 4), (66575, 16), (66583, 144)] : Tab Byte) }; (s.d.atWord n r 0x0C w) ∧ (w = 10)) ∧
    (let n : Fin 32 := 3; let r : URun := ({ rtn := { slot := 0x23, ctx := 100, arg := 5 }, upc := 0x100, w := [7, 0xFFFFF, 3, 0xABCDE, 1, 0, 0x80000, 2], latch := 0x123456789ABCDEF0, outside := true } : URun); let x : BitVec 15 := 11; let w := x.toNat; let s := served fun d => (let d := d.setEng n { d.eng n with run := some r }; let d := d.setb patB .PAT_STORE_READY true; let d := d.put (ctxBase 100) .CTX_STATE_STATE 3; let d := d.setCx 100 { d.cx 100 with hdr := some ({ base := 0x10000, slots := 1, tv := 5000, opsOff := 0x400, opsCount := 3, granBytes := 64, symOff := 0x800, symCount := 8, timOff := 0xC00, timCount := 1, wsmCount := 1, wsmOff := 0x1000, auxOff := 0x1400, redOff := 0x1800, redCount := 1, maskCount := 1 } : Hdr) }; let d := d.put (ctxBase 100) .CTX_MAILBOX_DATA 0xF1234; d); let s : State := { s with store := ([(65536, 49), (65537, 86), (65538, 72), (65539, 90), (65540, 1), (65542, 1), (65543, 1), (65544, 136), (65545, 19), (65553, 4), (65560, 3), (65564, 64), (65569, 8), (65576, 8), (65585, 12), (65592, 1), (65594, 1), (65601, 16), (65609, 20), (65617, 24), (65624, 1), (65626, 1), (65660, 63), (65661, 153), (65662, 17), (65663, 218), (66565, 4), (66567, 8), (66568, 1), (66573, 4), (66575, 16), (66583, 144)] : Tab Byte) }; (s.d.atWord n r 0x0C w) ∧ (w = 11)) ∧
    (let n : Fin 32 := 3; let r : URun := ({ rtn := { slot := 0x23, ctx := 100, arg := 5 }, upc := 0x100, w := [7, 0xFFFFF, 3, 0xABCDE, 1, 0, 0x80000, 2], latch := 0x123456789ABCDEF0 } : URun); let x : BitVec 15 := 17185; let w := x.toNat; let s := served fun d => (let d := d.setEng n { d.eng n with run := some r }; let d := d.setb patB .PAT_STORE_READY true; let d := d.put (ctxBase 100) .CTX_STATE_STATE 3; let d := d.setCx 100 { d.cx 100 with hdr := some ({ base := 0x10000, slots := 1, tv := 5000, opsOff := 0x400, opsCount := 3, granBytes := 64, symOff := 0x800, symCount := 8, timOff := 0xC00, timCount := 1, wsmCount := 1, wsmOff := 0x1000, auxOff := 0x1400, redOff := 0x1800, redCount := 1, maskCount := 1 } : Hdr) }; let d := d.put (ctxBase 100) .CTX_MAILBOX_DATA 0xF1234; d); let s : State := { s with store := ([(65536, 49), (65537, 86), (65538, 72), (65539, 90), (65540, 1), (65542, 1), (65543, 1), (65544, 136), (65545, 19), (65553, 4), (65560, 3), (65564, 64), (65569, 8), (65576, 8), (65585, 12), (65592, 1), (65594, 1), (65601, 16), (65609, 20), (65617, 24), (65624, 1), (65626, 1), (65660, 63), (65661, 153), (65662, 17), (65663, 218), (66565, 4), (66567, 8), (66568, 1), (66573, 4), (66575, 16), (66583, 144)] : Tab Byte) }; (s.d.atWord n r 0x0D w)) ∧
    (let n : Fin 32 := 3; let r : URun := ({ rtn := { slot := 0x23, ctx := 100, arg := 5 }, upc := 0x100, w := [7, 0xFFFFF, 3, 0xABCDE, 1, 0, 0x80000, 2], latch := 0x123456789ABCDEF0, calls := [5, 6, 7] } : URun); let x : BitVec 15 := 4660; let w := x.toNat; let s := served fun d => (let d := d.setEng n { d.eng n with run := some r }; let d := d.setb patB .PAT_STORE_READY true; let d := d.put (ctxBase 100) .CTX_STATE_STATE 3; let d := d.setCx 100 { d.cx 100 with hdr := some ({ base := 0x10000, slots := 1, tv := 5000, opsOff := 0x400, opsCount := 3, granBytes := 64, symOff := 0x800, symCount := 8, timOff := 0xC00, timCount := 1, wsmCount := 1, wsmOff := 0x1000, auxOff := 0x1400, redOff := 0x1800, redCount := 1, maskCount := 1 } : Hdr) }; let d := d.put (ctxBase 100) .CTX_MAILBOX_DATA 0xF1234; d); let s : State := { s with store := ([(65536, 49), (65537, 86), (65538, 72), (65539, 90), (65540, 1), (65542, 1), (65543, 1), (65544, 136), (65545, 19), (65553, 4), (65560, 3), (65564, 64), (65569, 8), (65576, 8), (65585, 12), (65592, 1), (65594, 1), (65601, 16), (65609, 20), (65617, 24), (65624, 1), (65626, 1), (65660, 63), (65661, 153), (65662, 17), (65663, 218), (66565, 4), (66567, 8), (66568, 1), (66573, 4), (66575, 16), (66583, 144)] : Tab Byte) }; (s.d.atWord n r 0x0E w) ∧ (r.calls.length < 4)) ∧
    (let n : Fin 32 := 3; let r : URun := ({ rtn := { slot := 0x23, ctx := 100, arg := 5 }, upc := 0x100, w := [7, 0xFFFFF, 3, 0xABCDE, 1, 0, 0x80000, 2], latch := 0x123456789ABCDEF0, calls := [5, 6] } : URun); let x : BitVec 15 := 0; let w := x.toNat; let y := (5 : Nat); let ys := ([6] : List Nat); let s := served fun d => (let d := d.setEng n { d.eng n with run := some r }; let d := d.setb patB .PAT_STORE_READY true; let d := d.put (ctxBase 100) .CTX_STATE_STATE 3; let d := d.setCx 100 { d.cx 100 with hdr := some ({ base := 0x10000, slots := 1, tv := 5000, opsOff := 0x400, opsCount := 3, granBytes := 64, symOff := 0x800, symCount := 8, timOff := 0xC00, timCount := 1, wsmCount := 1, wsmOff := 0x1000, auxOff := 0x1400, redOff := 0x1800, redCount := 1, maskCount := 1 } : Hdr) }; let d := d.put (ctxBase 100) .CTX_MAILBOX_DATA 0xF1234; d); let s : State := { s with store := ([(65536, 49), (65537, 86), (65538, 72), (65539, 90), (65540, 1), (65542, 1), (65543, 1), (65544, 136), (65545, 19), (65553, 4), (65560, 3), (65564, 64), (65569, 8), (65576, 8), (65585, 12), (65592, 1), (65594, 1), (65601, 16), (65609, 20), (65617, 24), (65624, 1), (65626, 1), (65660, 63), (65661, 153), (65662, 17), (65663, 218), (66565, 4), (66567, 8), (66568, 1), (66573, 4), (66575, 16), (66583, 144)] : Tab Byte) }; (s.d.atWord n r 0x0F w) ∧ (r.calls = y :: ys)) ∧
    (let n : Fin 32 := 3; let r : URun := ({ rtn := { slot := 0x23, ctx := 100, arg := 5 }, upc := 0x100, w := [7, 0xFFFFF, 3, 0xABCDE, 1, 0, 0x80000, 2], latch := 0x123456789ABCDEF0 } : URun); let x : BitVec 15 := 1536; let w := x.toNat; let s := served fun d => (let d := d.setEng n { d.eng n with run := some r }; let d := d.setb patB .PAT_STORE_READY true; let d := d.put (ctxBase 100) .CTX_STATE_STATE 3; let d := d.setCx 100 { d.cx 100 with hdr := some ({ base := 0x10000, slots := 1, tv := 5000, opsOff := 0x400, opsCount := 3, granBytes := 64, symOff := 0x800, symCount := 8, timOff := 0xC00, timCount := 1, wsmCount := 1, wsmOff := 0x1000, auxOff := 0x1400, redOff := 0x1800, redCount := 1, maskCount := 1 } : Hdr) }; let d := d.put (ctxBase 100) .CTX_MAILBOX_DATA 0xF1234; d); let s : State := { s with store := ([(65536, 49), (65537, 86), (65538, 72), (65539, 90), (65540, 1), (65542, 1), (65543, 1), (65544, 136), (65545, 19), (65553, 4), (65560, 3), (65564, 64), (65569, 8), (65576, 8), (65585, 12), (65592, 1), (65594, 1), (65601, 16), (65609, 20), (65617, 24), (65624, 1), (65626, 1), (65660, 63), (65661, 153), (65662, 17), (65663, 218), (66565, 4), (66567, 8), (66568, 1), (66573, 4), (66575, 16), (66583, 144)] : Tab Byte) }; (s.d.atWord n r 0x10 w)) ∧
    (let n : Fin 32 := 3; let r : URun := ({ rtn := { slot := 0x23, ctx := 100, arg := 5 }, upc := 0x100, w := [7, 0xFFFFF, 3, 0xABCDE, 1, 0, 0x80000, 2], latch := 0x123456789ABCDEF0 } : URun); let x : BitVec 15 := 0; let w := x.toNat; let s := served fun d => (let d := d.setEng n { d.eng n with run := some r }; let d := d.setb patB .PAT_STORE_READY true; let d := d.put (ctxBase 100) .CTX_STATE_STATE 3; let d := d.setCx 100 { d.cx 100 with hdr := some ({ base := 0x10000, slots := 1, tv := 5000, opsOff := 0x400, opsCount := 3, granBytes := 64, symOff := 0x800, symCount := 8, timOff := 0xC00, timCount := 1, wsmCount := 1, wsmOff := 0x1000, auxOff := 0x1400, redOff := 0x1800, redCount := 1, maskCount := 1 } : Hdr) }; let d := d.put (ctxBase 100) .CTX_MAILBOX_DATA 0xF1234; d); let s : State := { s with store := ([(65536, 49), (65537, 86), (65538, 72), (65539, 90), (65540, 1), (65542, 1), (65543, 1), (65544, 136), (65545, 19), (65553, 4), (65560, 3), (65564, 64), (65569, 8), (65576, 8), (65585, 12), (65592, 1), (65594, 1), (65601, 16), (65609, 20), (65617, 24), (65624, 1), (65626, 1), (65660, 63), (65661, 153), (65662, 17), (65663, 218), (66565, 4), (66567, 8), (66568, 1), (66573, 4), (66575, 16), (66583, 144)] : Tab Byte) }; (s.d.atWord n r 0x1D w)) ∧
    (let n : Fin 32 := 3; let r : URun := ({ rtn := { slot := 0x23, ctx := 100, arg := 5 }, upc := 0x100, w := [7, 0xFFFFF, 3, 0xABCDE, 1, 0, 0x80000, 2], latch := 0x123456789ABCDEF0 } : URun); let x : BitVec 15 := 0x77; let w := x.toNat; let s := served fun d => (let d := d.setEng n { d.eng n with run := some r }; let d := d.setb patB .PAT_STORE_READY true; let d := d.put (ctxBase 100) .CTX_STATE_STATE 3; let d := d.setCx 100 { d.cx 100 with hdr := some ({ base := 0x10000, slots := 1, tv := 5000, opsOff := 0x400, opsCount := 3, granBytes := 64, symOff := 0x800, symCount := 8, timOff := 0xC00, timCount := 1, wsmCount := 1, wsmOff := 0x1000, auxOff := 0x1400, redOff := 0x1800, redCount := 1, maskCount := 1 } : Hdr) }; let d := d.put (ctxBase 100) .CTX_MAILBOX_DATA 0xF1234; d); let s : State := { s with store := ([(65536, 49), (65537, 86), (65538, 72), (65539, 90), (65540, 1), (65542, 1), (65543, 1), (65544, 136), (65545, 19), (65553, 4), (65560, 3), (65564, 64), (65569, 8), (65576, 8), (65585, 12), (65592, 1), (65594, 1), (65601, 16), (65609, 20), (65617, 24), (65624, 1), (65626, 1), (65660, 63), (65661, 153), (65662, 17), (65663, 218), (66565, 4), (66567, 8), (66568, 1), (66573, 4), (66575, 16), (66583, 144)] : Tab Byte) }; (s.d.atWord n r 0x1E w)) ∧
    (let n : Fin 32 := 3; let r : URun := ({ rtn := { slot := 0x23, ctx := 100, arg := 5 }, upc := 0x100, w := [7, 0xFFFFF, 3, 0xABCDE, 1, 0, 0x80000, 2], latch := 0x123456789ABCDEF0 } : URun); let x : BitVec 15 := 0; let w := x.toNat; let s := served fun d => (let d := d.setEng n { d.eng n with run := some r }; let d := d.setb patB .PAT_STORE_READY true; let d := d.put (ctxBase 100) .CTX_STATE_STATE 3; let d := d.setCx 100 { d.cx 100 with hdr := some ({ base := 0x10000, slots := 1, tv := 5000, opsOff := 0x400, opsCount := 3, granBytes := 64, symOff := 0x800, symCount := 8, timOff := 0xC00, timCount := 1, wsmCount := 1, wsmOff := 0x1000, auxOff := 0x1400, redOff := 0x1800, redCount := 1, maskCount := 1 } : Hdr) }; let d := d.put (ctxBase 100) .CTX_MAILBOX_DATA 0xF1234; d); let s : State := { s with store := ([(65536, 49), (65537, 86), (65538, 72), (65539, 90), (65540, 1), (65542, 1), (65543, 1), (65544, 136), (65545, 19), (65553, 4), (65560, 3), (65564, 64), (65569, 8), (65576, 8), (65585, 12), (65592, 1), (65594, 1), (65601, 16), (65609, 20), (65617, 24), (65624, 1), (65626, 1), (65660, 63), (65661, 153), (65662, 17), (65663, 218), (66565, 4), (66567, 8), (66568, 1), (66573, 4), (66575, 16), (66583, 144)] : Tab Byte) }; (s.d.atWord n r 0x1C (w / 2 * 2))) ∧
    (let n : Fin 32 := 3; let r : URun := ({ rtn := { slot := 0x25, ctx := 100, arg := 5 }, upc := 0x100, w := [7, 0xFFFFF, 3, 0xABCDE, 1, 0, 0x80000, 2], latch := 0x123456789ABCDEF0 } : URun); let x : BitVec 15 := 0; let w := x.toNat; let s := served fun d => (let d := d.setEng n { d.eng n with run := some r }; let d := d.setb patB .PAT_STORE_READY true; let d := d.put (ctxBase 100) .CTX_STATE_STATE 3; let d := d.setCx 100 { d.cx 100 with hdr := some ({ base := 0x10000, slots := 1, tv := 5000, opsOff := 0x400, opsCount := 3, granBytes := 64, symOff := 0x800, symCount := 8, timOff := 0xC00, timCount := 1, wsmCount := 1, wsmOff := 0x1000, auxOff := 0x1400, redOff := 0x1800, redCount := 1, maskCount := 1 } : Hdr) }; let d := d.put (ctxBase 100) .CTX_MAILBOX_DATA 0xF1234; let d := d.setCx 100 { d.cx 100 with req := 2 }; d); let s : State := { s with store := ([(65536, 49), (65537, 86), (65538, 72), (65539, 90), (65540, 1), (65542, 1), (65543, 1), (65544, 136), (65545, 19), (65553, 4), (65560, 3), (65564, 64), (65569, 8), (65576, 8), (65585, 12), (65592, 1), (65594, 1), (65601, 16), (65609, 20), (65617, 24), (65624, 1), (65626, 1), (65660, 63), (65661, 153), (65662, 17), (65663, 218), (66565, 4), (66567, 8), (66568, 1), (66573, 4), (66575, 16), (66583, 144)] : Tab Byte) }; (s.d.atWord n r 0x1C (w / 2 * 2 + 1))) := by
  refine ⟨?_, ?_, ?_, ?_, ?_, ?_, ?_, ?_, ?_, ?_, ?_, ?_⟩ <;> (try dsimp only [Dev.recorded, State.walkAt, Dev.atRoutine, Dev.atWord]) <;> decide +kernel

/-- States and operands that meet the hypotheses of clauses of `Obligations.MicroState`. -/
theorem witness_MicroState :
    (let n : Fin 32 := 3; let r : URun := ({ rtn := { slot := 0x23, ctx := 100, arg := 5 }, upc := 0x100, w := [5, 0xFFFFF, 2, 0xABCDE, 1, 0, 0x80000, 2], latch := 0x123456789ABCDEF0 } : URun); let x : BitVec 15 := 1024; let w := x.toNat; let a := r.reg (w / 2 ^ 9 % 8); let h := ({ base := 0x10000, slots := 1, tv := 5000, opsOff := 0x400, opsCount := 3, granBytes := 64, symOff := 0x800, symCount := 8, timOff := 0xC00, timCount := 1, wsmCount := 1, wsmOff := 0x1000, auxOff := 0x1400, redOff := 0x1800, redCount := 1, maskCount := 1 } : Hdr); let s := served fun d => (let d := d.setEng n { d.eng n with run := some r }; let d := d.setb patB .PAT_STORE_READY true; let d := d.put (ctxBase 100) .CTX_STATE_STATE 3; let d := d.setCx 100 { d.cx 100 with hdr := some ({ base := 0x10000, slots := 1, tv := 5000, opsOff := 0x400, opsCount := 3, granBytes := 64, symOff := 0x800, symCount := 8, timOff := 0xC00, timCount := 1, wsmCount := 1, wsmOff := 0x1000, auxOff := 0x1400, redOff := 0x1800, redCount := 1, maskCount := 1 } : Hdr) }; let d := d.put (ctxBase 100) .CTX_MAILBOX_DATA 0xF1234; d); let s : State := { s with store := ([(65536, 49), (65537, 86), (65538, 72), (65539, 90), (65540, 1), (65542, 1), (65543, 1), (65544, 136), (65545, 19), (65553, 4), (65560, 3), (65564, 64), (65569, 8), (65576, 8), (65585, 12), (65592, 1), (65594, 1), (65601, 16), (65609, 20), (65617, 24), (65624, 1), (65626, 1), (65660, 63), (65661, 153), (65662, 17), (65663, 218), (66565, 4), (66567, 8), (66568, 1), (66573, 4), (66575, 16), (66583, 144)] : Tab Byte) }; ((s.d.cx r.rtn.ctx).hdr = some h) ∧ (s.d.atWord n r 0x11 w) ∧ (a < (h.section (w / 2 ^ 12)).1)) ∧
    (let n : Fin 32 := 3; let r : URun := ({ rtn := { slot := 0x23, ctx := 100, arg := 5 }, upc := 0x100, w := [7, 0xFFFFF, 3, 0xABCDE, 1, 0, 0x80000, 2], latch := 0x123456789ABCDEF0 } : URun); let x : BitVec 15 := 512; let w := x.toNat; let a := r.reg (w / 2 ^ 9 % 8); let h := ({ base := 0x10000, slots := 1, tv := 5000, opsOff := 0x400, opsCount := 3, granBytes := 64, symOff := 0x800, symCount := 8, timOff := 0xC00, timCount := 1, wsmCount := 1, wsmOff := 0x1000, auxOff := 0x1400, redOff := 0x1800, redCount := 1, maskCount := 1 } : Hdr); let s := served fun d => (let d := d.setEng n { d.eng n with run := some r }; let d := d.setb patB .PAT_STORE_READY true; let d := d.put (ctxBase 100) .CTX_STATE_STATE 3; let d := d.setCx 100 { d.cx 100 with hdr := some ({ base := 0x10000, slots := 1, tv := 5000, opsOff := 0x400, opsCount := 3, granBytes := 64, symOff := 0x800, symCount := 8, timOff := 0xC00, timCount := 1, wsmCount := 1, wsmOff := 0x1000, auxOff := 0x1400, redOff := 0x1800, redCount := 1, maskCount := 1 } : Hdr) }; let d := d.put (ctxBase 100) .CTX_MAILBOX_DATA 0xF1234; d); let s : State := { s with store := ([(65536, 49), (65537, 86), (65538, 72), (65539, 90), (65540, 1), (65542, 1), (65543, 1), (65544, 136), (65545, 19), (65553, 4), (65560, 3), (65564, 64), (65569, 8), (65576, 8), (65585, 12), (65592, 1), (65594, 1), (65601, 16), (65609, 20), (65617, 24), (65624, 1), (65626, 1), (65660, 63), (65661, 153), (65662, 17), (65663, 218), (66565, 4), (66567, 8), (66568, 1), (66573, 4), (66575, 16), (66583, 144)] : Tab Byte) }; ((s.d.cx r.rtn.ctx).hdr = some h) ∧ (s.d.atWord n r 0x11 w) ∧ ((h.section (w / 2 ^ 12)).1 ≤ a)) ∧
    (let n : Fin 32 := 3; let r : URun := ({ rtn := { slot := 0x23, ctx := 100, arg := 5 }, upc := 0x100, w := [7, 0xFFFFF, 3, 0xABCDE, 1, 0, 0x80000, 2], latch := 0x123456789ABCDEF0 } : URun); let x : BitVec 15 := 12290; let w := x.toNat; let s := served fun d => (let d := d.setEng n { d.eng n with run := some r }; let d := d.setb patB .PAT_STORE_READY true; let d := d.put (ctxBase 100) .CTX_STATE_STATE 3; let d := d.setCx 100 { d.cx 100 with hdr := some ({ base := 0x10000, slots := 1, tv := 5000, opsOff := 0x400, opsCount := 3, granBytes := 64, symOff := 0x800, symCount := 8, timOff := 0xC00, timCount := 1, wsmCount := 1, wsmOff := 0x1000, auxOff := 0x1400, redOff := 0x1800, redCount := 1, maskCount := 1 } : Hdr) }; let d := d.put (ctxBase 100) .CTX_MAILBOX_DATA 0xF1234; d); let s : State := { s with store := ([(65536, 49), (65537, 86), (65538, 72), (65539, 90), (65540, 1), (65542, 1), (65543, 1), (65544, 136), (65545, 19), (65553, 4), (65560, 3), (65564, 64), (65569, 8), (65576, 8), (65585, 12), (65592, 1), (65594, 1), (65601, 16), (65609, 20), (65617, 24), (65624, 1), (65626, 1), (65660, 63), (65661, 153), (65662, 17), (65663, 218), (66565, 4), (66567, 8), (66568, 1), (66573, 4), (66575, 16), (66583, 144)] : Tab Byte) }; (s.d.atWord n r 0x12 w)) ∧
    (let n : Fin 32 := 3; let r : URun := ({ rtn := { slot := 0x23, ctx := 100, arg := 5 }, upc := 0x100, w := [7, 0xFFFFF, 3, 0xABCDE, 1, 0, 0x80000, 2], latch := 0x123456789ABCDEF0 } : URun); let x : BitVec 15 := 12288; let w := x.toNat; let s := served fun d => (let d := d.setEng n { d.eng n with run := some r }; let d := d.setb patB .PAT_STORE_READY true; let d := d.put (ctxBase 100) .CTX_STATE_STATE 3; let d := d.setCx 100 { d.cx 100 with hdr := some ({ base := 0x10000, slots := 1, tv := 5000, opsOff := 0x400, opsCount := 3, granBytes := 64, symOff := 0x800, symCount := 8, timOff := 0xC00, timCount := 1, wsmCount := 1, wsmOff := 0x1000, auxOff := 0x1400, redOff := 0x1800, redCount := 1, maskCount := 1 } : Hdr) }; let d := d.put (ctxBase 100) .CTX_MAILBOX_DATA 0xF1234; d); let s : State := { s with store := ([(65536, 49), (65537, 86), (65538, 72), (65539, 90), (65540, 1), (65542, 1), (65543, 1), (65544, 136), (65545, 19), (65553, 4), (65560, 3), (65564, 64), (65569, 8), (65576, 8), (65585, 12), (65592, 1), (65594, 1), (65601, 16), (65609, 20), (65617, 24), (65624, 1), (65626, 1), (65660, 63), (65661, 153), (65662, 17), (65663, 218), (66565, 4), (66567, 8), (66568, 1), (66573, 4), (66575, 16), (66583, 144)] : Tab Byte) }; (s.d.atWord n r 0x13 w)) ∧
    (let n : Fin 32 := 3; let r : URun := ({ rtn := { slot := 0x23, ctx := 100, arg := 5 }, upc := 0x100, w := [7, 0xFFFFF, 3, 0xABCDE, 1, 0, 0x80000, 2], latch := 0x123456789ABCDEF0 } : URun); let x : BitVec 15 := 1536; let w := x.toNat; let s := served fun d => (let d := d.setEng n { d.eng n with run := some r }; let d := d.setb patB .PAT_STORE_READY true; let d := d.put (ctxBase 100) .CTX_STATE_STATE 3; let d := d.setCx 100 { d.cx 100 with hdr := some ({ base := 0x10000, slots := 1, tv := 5000, opsOff := 0x400, opsCount := 3, granBytes := 64, symOff := 0x800, symCount := 8, timOff := 0xC00, timCount := 1, wsmCount := 1, wsmOff := 0x1000, auxOff := 0x1400, redOff := 0x1800, redCount := 1, maskCount := 1 } : Hdr) }; let d := d.put (ctxBase 100) .CTX_MAILBOX_DATA 0xF1234; d); let s : State := { s with store := ([(65536, 49), (65537, 86), (65538, 72), (65539, 90), (65540, 1), (65542, 1), (65543, 1), (65544, 136), (65545, 19), (65553, 4), (65560, 3), (65564, 64), (65569, 8), (65576, 8), (65585, 12), (65592, 1), (65594, 1), (65601, 16), (65609, 20), (65617, 24), (65624, 1), (65626, 1), (65660, 63), (65661, 153), (65662, 17), (65663, 218), (66565, 4), (66567, 8), (66568, 1), (66573, 4), (66575, 16), (66583, 144)] : Tab Byte) }; (s.d.atWord n r 0x14 w) ∧ (w % 64 = 0)) ∧
    (let n : Fin 32 := 3; let r : URun := ({ rtn := { slot := 0x23, ctx := 100, arg := 5 }, upc := 0x100, w := [7, 0xFFFFF, 3, 0xABCDE, 1, 0, 0x80000, 2], latch := 0x123456789ABCDEF0 } : URun); let x : BitVec 15 := 1537; let w := x.toNat; let s := served fun d => (let d := d.setEng n { d.eng n with run := some r }; let d := d.setb patB .PAT_STORE_READY true; let d := d.put (ctxBase 100) .CTX_STATE_STATE 3; let d := d.setCx 100 { d.cx 100 with hdr := some ({ base := 0x10000, slots := 1, tv := 5000, opsOff := 0x400, opsCount := 3, granBytes := 64, symOff := 0x800, symCount := 8, timOff := 0xC00, timCount := 1, wsmCount := 1, wsmOff := 0x1000, auxOff := 0x1400, redOff := 0x1800, redCount := 1, maskCount := 1 } : Hdr) }; let d := d.put (ctxBase 100) .CTX_MAILBOX_DATA 0xF1234; d); let s : State := { s with store := ([(65536, 49), (65537, 86), (65538, 72), (65539, 90), (65540, 1), (65542, 1), (65543, 1), (65544, 136), (65545, 19), (65553, 4), (65560, 3), (65564, 64), (65569, 8), (65576, 8), (65585, 12), (65592, 1), (65594, 1), (65601, 16), (65609, 20), (65617, 24), (65624, 1), (65626, 1), (65660, 63), (65661, 153), (65662, 17), (65663, 218), (66565, 4), (66567, 8), (66568, 1), (66573, 4), (66575, 16), (66583, 144)] : Tab Byte) }; (s.d.atWord n r 0x14 w) ∧ (w % 64 = 1)) ∧
    (let n : Fin 32 := 3; let r : URun := ({ rtn := { slot := 0x23, ctx := 100, arg := 5 }, upc := 0x100, w := [7, 0xFFFFF, 3, 0xABCDE, 1, 0, 0x80000, 2], latch := 0x123456789ABCDEF0 } : URun); let x : BitVec 15 := 1538; let w := x.toNat; let s := served fun d => (let d := d.setEng n { d.eng n with run := some r }; let d := d.setb patB .PAT_STORE_READY true; let d := d.put (ctxBase 100) .CTX_STATE_STATE 3; let d := d.setCx 100 { d.cx 100 with hdr := some ({ base := 0x10000, slots := 1, tv := 5000, opsOff := 0x400, opsCount := 3, granBytes := 64, symOff := 0x800, symCount := 8, timOff := 0xC00, timCount := 1, wsmCount := 1, wsmOff := 0x1000, auxOff := 0x1400, redOff := 0x1800, redCount := 1, maskCount := 1 } : Hdr) }; let d := d.put (ctxBase 100) .CTX_MAILBOX_DATA 0xF1234; d); let s : State := { s with store := ([(65536, 49), (65537, 86), (65538, 72), (65539, 90), (65540, 1), (65542, 1), (65543, 1), (65544, 136), (65545, 19), (65553, 4), (65560, 3), (65564, 64), (65569, 8), (65576, 8), (65585, 12), (65592, 1), (65594, 1), (65601, 16), (65609, 20), (65617, 24), (65624, 1), (65626, 1), (65660, 63), (65661, 153), (65662, 17), (65663, 218), (66565, 4), (66567, 8), (66568, 1), (66573, 4), (66575, 16), (66583, 144)] : Tab Byte) }; (s.d.atWord n r 0x14 w) ∧ (w % 64 = 2)) ∧
    (let n : Fin 32 := 3; let r : URun := ({ rtn := { slot := 0x23, ctx := 100, arg := 5 }, upc := 0x100, w := [7, 0xFFFFF, 3, 0xABCDE, 1, 0, 0x80000, 2], latch := 0x123456789ABCDEF0 } : URun); let x : BitVec 15 := 1539; let w := x.toNat; let s := served fun d => (let d := d.setEng n { d.eng n with run := some r }; let d := d.setb patB .PAT_STORE_READY true; let d := d.put (ctxBase 100) .CTX_STATE_STATE 3; let d := d.setCx 100 { d.cx 100 with hdr := some ({ base := 0x10000, slots := 1, tv := 5000, opsOff := 0x400, opsCount := 3, granBytes := 64, symOff := 0x800, symCount := 8, timOff := 0xC00, timCount := 1, wsmCount := 1, wsmOff := 0x1000, auxOff := 0x1400, redOff := 0x1800, redCount := 1, maskCount := 1 } : Hdr) }; let d := d.put (ctxBase 100) .CTX_MAILBOX_DATA 0xF1234; d); let s : State := { s with store := ([(65536, 49), (65537, 86), (65538, 72), (65539, 90), (65540, 1), (65542, 1), (65543, 1), (65544, 136), (65545, 19), (65553, 4), (65560, 3), (65564, 64), (65569, 8), (65576, 8), (65585, 12), (65592, 1), (65594, 1), (65601, 16), (65609, 20), (65617, 24), (65624, 1), (65626, 1), (65660, 63), (65661, 153), (65662, 17), (65663, 218), (66565, 4), (66567, 8), (66568, 1), (66573, 4), (66575, 16), (66583, 144)] : Tab Byte) }; (s.d.atWord n r 0x14 w) ∧ (w % 64 = 3)) ∧
    (let n : Fin 32 := 3; let r : URun := ({ rtn := { slot := 0x23, ctx := 100, arg := 5 }, upc := 0x100, w := [7, 0xFFFFF, 3, 0xABCDE, 1, 0, 0x80000, 2], latch := 0x123456789ABCDEF0 } : URun); let x : BitVec 15 := 10181; let w := x.toNat; let w' := fun (k : Nat) => w / 8 * 8 + k; let s := served fun d => (let d := d.setEng n { d.eng n with run := some r }; let d := d.setb patB .PAT_STORE_READY true; let d := d.put (ctxBase 100) .CTX_STATE_STATE 3; let d := d.setCx 100 { d.cx 100 with hdr := some ({ base := 0x10000, slots := 1, tv := 5000, opsOff := 0x400, opsCount := 3, granBytes := 64, symOff := 0x800, symCount := 8, timOff := 0xC00, timCount := 1, wsmCount := 1, wsmOff := 0x1000, auxOff := 0x1400, redOff := 0x1800, redCount := 1, maskCount := 1 } : Hdr) }; let d := d.put (ctxBase 100) .CTX_MAILBOX_DATA 0xF1234; d); let s : State := { s with store := ([(65536, 49), (65537, 86), (65538, 72), (65539, 90), (65540, 1), (65542, 1), (65543, 1), (65544, 136), (65545, 19), (65553, 4), (65560, 3), (65564, 64), (65569, 8), (65576, 8), (65585, 12), (65592, 1), (65594, 1), (65601, 16), (65609, 20), (65617, 24), (65624, 1), (65626, 1), (65660, 63), (65661, 153), (65662, 17), (65663, 218), (66565, 4), (66567, 8), (66568, 1), (66573, 4), (66575, 16), (66583, 144)] : Tab Byte) }; (s.d.atWord n r 0x15 (w' 0)) ∧ (r.stack.length < 16)) ∧
    (let n : Fin 32 := 3; let r : URun := ({ rtn := { slot := 0x23, ctx := 100, arg := 5 }, upc := 0x100, w := [7, 0xFFFFF, 3, 0xABCDE, 1, 0, 0x80000, 2], latch := 0x123456789ABCDEF0 } : URun); let x : BitVec 15 := 10181; let w := x.toNat; let w' := fun (k : Nat) => w / 8 * 8 + k; let s := served fun d => (let d := d.setEng n { d.eng n with run := some r }; let d := d.setb patB .PAT_STORE_READY true; let d := d.put (ctxBase 100) .CTX_STATE_STATE 3; let d := d.setCx 100 { d.cx 100 with hdr := some ({ base := 0x10000, slots := 1, tv := 5000, opsOff := 0x400, opsCount := 3, granBytes := 64, symOff := 0x800, symCount := 8, timOff := 0xC00, timCount := 1, wsmCount := 1, wsmOff := 0x1000, auxOff := 0x1400, redOff := 0x1800, redCount := 1, maskCount := 1 } : Hdr) }; let d := d.put (ctxBase 100) .CTX_MAILBOX_DATA 0xF1234; d); let s : State := { s with store := ([(65536, 49), (65537, 86), (65538, 72), (65539, 90), (65540, 1), (65542, 1), (65543, 1), (65544, 136), (65545, 19), (65553, 4), (65560, 3), (65564, 64), (65569, 8), (65576, 8), (65585, 12), (65592, 1), (65594, 1), (65601, 16), (65609, 20), (65617, 24), (65624, 1), (65626, 1), (65660, 63), (65661, 153), (65662, 17), (65663, 218), (66565, 4), (66567, 8), (66568, 1), (66573, 4), (66575, 16), (66583, 144)] : Tab Byte) }; (s.d.atWord n r 0x15 (w' 1)) ∧ (r.stack.length < 16)) ∧
    (let n : Fin 32 := 3; let r : URun := ({ rtn := { slot := 0x23, ctx := 100, arg := 5 }, upc := 0x100, w := [7, 0xFFFFF, 3, 0xABCDE, 1, 0, 0x80000, 2], latch := 0x123456789ABCDEF0 } : URun); let x : BitVec 15 := 10181; let w := x.toNat; let w' := fun (k : Nat) => w / 8 * 8 + k; let s := served fun d => (let d := d.setEng n { d.eng n with run := some r }; let d := d.setb patB .PAT_STORE_READY true; let d := d.put (ctxBase 100) .CTX_STATE_STATE 3; let d := d.setCx 100 { d.cx 100 with hdr := some ({ base := 0x10000, slots := 1, tv := 5000, opsOff := 0x400, opsCount := 3, granBytes := 64, symOff := 0x800, symCount := 8, timOff := 0xC00, timCount := 1, wsmCount := 1, wsmOff := 0x1000, auxOff := 0x1400, redOff := 0x1800, redCount := 1, maskCount := 1 } : Hdr) }; let d := d.put (ctxBase 100) .CTX_MAILBOX_DATA 0xF1234; d); let s : State := { s with store := ([(65536, 49), (65537, 86), (65538, 72), (65539, 90), (65540, 1), (65542, 1), (65543, 1), (65544, 136), (65545, 19), (65553, 4), (65560, 3), (65564, 64), (65569, 8), (65576, 8), (65585, 12), (65592, 1), (65594, 1), (65601, 16), (65609, 20), (65617, 24), (65624, 1), (65626, 1), (65660, 63), (65661, 153), (65662, 17), (65663, 218), (66565, 4), (66567, 8), (66568, 1), (66573, 4), (66575, 16), (66583, 144)] : Tab Byte) }; (s.d.atWord n r 0x15 (w' 2)) ∧ (r.stack.length < 16)) ∧
    (let n : Fin 32 := 3; let r : URun := ({ rtn := { slot := 0x23, ctx := 100, arg := 5 }, upc := 0x100, w := [7, 0xFFFFF, 3, 0xABCDE, 1, 0, 0x80000, 2], latch := 0x123456789ABCDEF0, stack := [{ kind := .ret, op := 2, count := 0 }, { kind := .mtch, op := 5, count := 8 }] } : URun); let x : BitVec 15 := 10181; let w := x.toNat; let w' := fun (k : Nat) => w / 8 * 8 + k; let s := served fun d => (let d := d.setEng n { d.eng n with run := some r }; let d := d.setb patB .PAT_STORE_READY true; let d := d.put (ctxBase 100) .CTX_STATE_STATE 3; let d := d.setCx 100 { d.cx 100 with hdr := some ({ base := 0x10000, slots := 1, tv := 5000, opsOff := 0x400, opsCount := 3, granBytes := 64, symOff := 0x800, symCount := 8, timOff := 0xC00, timCount := 1, wsmCount := 1, wsmOff := 0x1000, auxOff := 0x1400, redOff := 0x1800, redCount := 1, maskCount := 1 } : Hdr) }; let d := d.put (ctxBase 100) .CTX_MAILBOX_DATA 0xF1234; d); let s : State := { s with store := ([(65536, 49), (65537, 86), (65538, 72), (65539, 90), (65540, 1), (65542, 1), (65543, 1), (65544, 136), (65545, 19), (65553, 4), (65560, 3), (65564, 64), (65569, 8), (65576, 8), (65585, 12), (65592, 1), (65594, 1), (65601, 16), (65609, 20), (65617, 24), (65624, 1), (65626, 1), (65660, 63), (65661, 153), (65662, 17), (65663, 218), (66565, 4), (66567, 8), (66568, 1), (66573, 4), (66575, 16), (66583, 144)] : Tab Byte) }; (s.d.atWord n r 0x15 (w' 3))) ∧
    (let n : Fin 32 := 3; let r : URun := ({ rtn := { slot := 0x23, ctx := 100, arg := 5 }, upc := 0x100, w := [7, 0xFFFFF, 3, 0xABCDE, 1, 0, 0x80000, 2], latch := 0x123456789ABCDEF0, stack := [{ kind := .ret, op := 2, count := 0 }, { kind := .mtch, op := 5, count := 8 }] } : URun); let x : BitVec 15 := 10181; let w := x.toNat; let w' := fun (k : Nat) => w / 8 * 8 + k; let below := ([{ kind := .ret, op := 2, count := 0 }] : List Frame); let f := ({ kind := .mtch, op := 5, count := 8 } : Frame); let s := served fun d => (let d := d.setEng n { d.eng n with run := some r }; let d := d.setb patB .PAT_STORE_READY true; let d := d.put (ctxBase 100) .CTX_STATE_STATE 3; let d := d.setCx 100 { d.cx 100 with hdr := some ({ base := 0x10000, slots := 1, tv := 5000, opsOff := 0x400, opsCount := 3, granBytes := 64, symOff := 0x800, symCount := 8, timOff := 0xC00, timCount := 1, wsmCount := 1, wsmOff := 0x1000, auxOff := 0x1400, redOff := 0x1800, redCount := 1, maskCount := 1 } : Hdr) }; let d := d.put (ctxBase 100) .CTX_MAILBOX_DATA 0xF1234; d); let s : State := { s with store := ([(65536, 49), (65537, 86), (65538, 72), (65539, 90), (65540, 1), (65542, 1), (65543, 1), (65544, 136), (65545, 19), (65553, 4), (65560, 3), (65564, 64), (65569, 8), (65576, 8), (65585, 12), (65592, 1), (65594, 1), (65601, 16), (65609, 20), (65617, 24), (65624, 1), (65626, 1), (65660, 63), (65661, 153), (65662, 17), (65663, 218), (66565, 4), (66567, 8), (66568, 1), (66573, 4), (66575, 16), (66583, 144)] : Tab Byte) }; (r.stack = below ++ [f]) ∧ (s.d.atWord n r 0x15 (w' 4))) ∧
    (let n : Fin 32 := 3; let r : URun := ({ rtn := { slot := 0x23, ctx := 100, arg := 5 }, upc := 0x100, w := [7, 0xFFFFF, 3, 0xABCDE, 1, 0, 0x80000, 2], latch := 0x123456789ABCDEF0, stack := [{ kind := .ret, op := 2, count := 0 }, { kind := .mtch, op := 5, count := 8 }] } : URun); let x : BitVec 15 := 10181; let w := x.toNat; let w' := fun (k : Nat) => w / 8 * 8 + k; let below := ([{ kind := .ret, op := 2, count := 0 }] : List Frame); let f := ({ kind := .mtch, op := 5, count := 8 } : Frame); let s := served fun d => (let d := d.setEng n { d.eng n with run := some r }; let d := d.setb patB .PAT_STORE_READY true; let d := d.put (ctxBase 100) .CTX_STATE_STATE 3; let d := d.setCx 100 { d.cx 100 with hdr := some ({ base := 0x10000, slots := 1, tv := 5000, opsOff := 0x400, opsCount := 3, granBytes := 64, symOff := 0x800, symCount := 8, timOff := 0xC00, timCount := 1, wsmCount := 1, wsmOff := 0x1000, auxOff := 0x1400, redOff := 0x1800, redCount := 1, maskCount := 1 } : Hdr) }; let d := d.put (ctxBase 100) .CTX_MAILBOX_DATA 0xF1234; d); let s : State := { s with store := ([(65536, 49), (65537, 86), (65538, 72), (65539, 90), (65540, 1), (65542, 1), (65543, 1), (65544, 136), (65545, 19), (65553, 4), (65560, 3), (65564, 64), (65569, 8), (65576, 8), (65585, 12), (65592, 1), (65594, 1), (65601, 16), (65609, 20), (65617, 24), (65624, 1), (65626, 1), (65660, 63), (65661, 153), (65662, 17), (65663, 218), (66565, 4), (66567, 8), (66568, 1), (66573, 4), (66575, 16), (66583, 144)] : Tab Byte) }; (r.stack = below ++ [f]) ∧ (s.d.atWord n r 0x15 (w' 5))) ∧
    (let n : Fin 32 := 3; let r : URun := ({ rtn := { slot := 0x23, ctx := 100, arg := 5 }, upc := 0x100, w := [7, 0xFFFFF, 3, 0xABCDE, 1, 0, 0x80000, 2], latch := 0x123456789ABCDEF0, stack := [{ kind := .ret, op := 2, count := 0 }, { kind := .mtch, op := 5, count := 8 }] } : URun); let x : BitVec 15 := 10181; let w := x.toNat; let w' := fun (k : Nat) => w / 8 * 8 + k; let below := ([{ kind := .ret, op := 2, count := 0 }] : List Frame); let f := ({ kind := .mtch, op := 5, count := 8 } : Frame); let s := served fun d => (let d := d.setEng n { d.eng n with run := some r }; let d := d.setb patB .PAT_STORE_READY true; let d := d.put (ctxBase 100) .CTX_STATE_STATE 3; let d := d.setCx 100 { d.cx 100 with hdr := some ({ base := 0x10000, slots := 1, tv := 5000, opsOff := 0x400, opsCount := 3, granBytes := 64, symOff := 0x800, symCount := 8, timOff := 0xC00, timCount := 1, wsmCount := 1, wsmOff := 0x1000, auxOff := 0x1400, redOff := 0x1800, redCount := 1, maskCount := 1 } : Hdr) }; let d := d.put (ctxBase 100) .CTX_MAILBOX_DATA 0xF1234; d); let s : State := { s with store := ([(65536, 49), (65537, 86), (65538, 72), (65539, 90), (65540, 1), (65542, 1), (65543, 1), (65544, 136), (65545, 19), (65553, 4), (65560, 3), (65564, 64), (65569, 8), (65576, 8), (65585, 12), (65592, 1), (65594, 1), (65601, 16), (65609, 20), (65617, 24), (65624, 1), (65626, 1), (65660, 63), (65661, 153), (65662, 17), (65663, 218), (66565, 4), (66567, 8), (66568, 1), (66573, 4), (66575, 16), (66583, 144)] : Tab Byte) }; (r.stack = below ++ [f]) ∧ (s.d.atWord n r 0x15 (w' 6))) ∧
    (let n : Fin 32 := 3; let r : URun := ({ rtn := { slot := 0x23, ctx := 100, arg := 5 }, upc := 0x100, w := [7, 0xFFFFF, 3, 0xABCDE, 1, 0, 0x80000, 2], latch := 0x123456789ABCDEF0, stack := [{ kind := .ret, op := 2, count := 0 }, { kind := .mtch, op := 5, count := 8 }] } : URun); let x : BitVec 15 := 10181; let w := x.toNat; let w' := fun (k : Nat) => w / 8 * 8 + k; let below := ([{ kind := .ret, op := 2, count := 0 }] : List Frame); let f := ({ kind := .mtch, op := 5, count := 8 } : Frame); let s := served fun d => (let d := d.setEng n { d.eng n with run := some r }; let d := d.setb patB .PAT_STORE_READY true; let d := d.put (ctxBase 100) .CTX_STATE_STATE 3; let d := d.setCx 100 { d.cx 100 with hdr := some ({ base := 0x10000, slots := 1, tv := 5000, opsOff := 0x400, opsCount := 3, granBytes := 64, symOff := 0x800, symCount := 8, timOff := 0xC00, timCount := 1, wsmCount := 1, wsmOff := 0x1000, auxOff := 0x1400, redOff := 0x1800, redCount := 1, maskCount := 1 } : Hdr) }; let d := d.put (ctxBase 100) .CTX_MAILBOX_DATA 0xF1234; d); let s : State := { s with store := ([(65536, 49), (65537, 86), (65538, 72), (65539, 90), (65540, 1), (65542, 1), (65543, 1), (65544, 136), (65545, 19), (65553, 4), (65560, 3), (65564, 64), (65569, 8), (65576, 8), (65585, 12), (65592, 1), (65594, 1), (65601, 16), (65609, 20), (65617, 24), (65624, 1), (65626, 1), (65660, 63), (65661, 153), (65662, 17), (65663, 218), (66565, 4), (66567, 8), (66568, 1), (66573, 4), (66575, 16), (66583, 144)] : Tab Byte) }; (r.stack = below ++ [f]) ∧ (s.d.atWord n r 0x15 (w' 7))) ∧
    (let n : Fin 32 := 3; let r : URun := ({ rtn := { slot := 0x23, ctx := 100, arg := 5 }, upc := 0x100, w := [7, 0xFFFFF, 3, 0xABCDE, 1, 0, 0x80000, 2], latch := 0x123456789ABCDEF0 } : URun); let x : BitVec 15 := 10181; let w := x.toNat; let w' := fun (k : Nat) => w / 8 * 8 + k; let s := served fun d => (let d := d.setEng n { d.eng n with run := some r }; let d := d.setb patB .PAT_STORE_READY true; let d := d.put (ctxBase 100) .CTX_STATE_STATE 3; let d := d.setCx 100 { d.cx 100 with hdr := some ({ base := 0x10000, slots := 1, tv := 5000, opsOff := 0x400, opsCount := 3, granBytes := 64, symOff := 0x800, symCount := 8, timOff := 0xC00, timCount := 1, wsmCount := 1, wsmOff := 0x1000, auxOff := 0x1400, redOff := 0x1800, redCount := 1, maskCount := 1 } : Hdr) }; let d := d.put (ctxBase 100) .CTX_MAILBOX_DATA 0xF1234; d); let s : State := { s with store := ([(65536, 49), (65537, 86), (65538, 72), (65539, 90), (65540, 1), (65542, 1), (65543, 1), (65544, 136), (65545, 19), (65553, 4), (65560, 3), (65564, 64), (65569, 8), (65576, 8), (65585, 12), (65592, 1), (65594, 1), (65601, 16), (65609, 20), (65617, 24), (65624, 1), (65626, 1), (65660, 63), (65661, 153), (65662, 17), (65663, 218), (66565, 4), (66567, 8), (66568, 1), (66573, 4), (66575, 16), (66583, 144)] : Tab Byte) }; (r.stack = []) ∧ (s.d.atWord n r 0x15 (w' 6))) ∧
    (let n : Fin 32 := 3; let r : URun := ({ rtn := { slot := 0x23, ctx := 100, arg := 5 }, upc := 0x100, w := [7, 0xFFFFF, 3, 0xABCDE, 1, 0, 0x80000, 2], latch := 0x123456789ABCDEF0 } : URun); let x : BitVec 15 := 10181; let w := x.toNat; let w' := fun (k : Nat) => w / 8 * 8 + k; let s := served fun d => (let d := d.setEng n { d.eng n with run := some r }; let d := d.setb patB .PAT_STORE_READY true; let d := d.put (ctxBase 100) .CTX_STATE_STATE 3; let d := d.setCx 100 { d.cx 100 with hdr := some ({ base := 0x10000, slots := 1, tv := 5000, opsOff := 0x400, opsCount := 3, granBytes := 64, symOff := 0x800, symCount := 8, timOff := 0xC00, timCount := 1, wsmCount := 1, wsmOff := 0x1000, auxOff := 0x1400, redOff := 0x1800, redCount := 1, maskCount := 1 } : Hdr) }; let d := d.put (ctxBase 100) .CTX_MAILBOX_DATA 0xF1234; d); let s : State := { s with store := ([(65536, 49), (65537, 86), (65538, 72), (65539, 90), (65540, 1), (65542, 1), (65543, 1), (65544, 136), (65545, 19), (65553, 4), (65560, 3), (65564, 64), (65569, 8), (65576, 8), (65585, 12), (65592, 1), (65594, 1), (65601, 16), (65609, 20), (65617, 24), (65624, 1), (65626, 1), (65660, 63), (65661, 153), (65662, 17), (65663, 218), (66565, 4), (66567, 8), (66568, 1), (66573, 4), (66575, 16), (66583, 144)] : Tab Byte) }; (r.stack = []) ∧ (s.d.atWord n r 0x15 (w' 4))) ∧
    (let n : Fin 32 := 3; let r : URun := ({ rtn := { slot := 0x23, ctx := 100, arg := 5 }, upc := 0x100, w := [7, 0xFFFFF, 3, 0xABCDE, 1, 0, 0x80000, 2], latch := 0x123456789ABCDEF0 } : URun); let x : BitVec 15 := 8192; let w := x.toNat; let s := served fun d => (let d := d.setEng n { d.eng n with run := some r }; let d := d.setb patB .PAT_STORE_READY true; let d := d.put (ctxBase 100) .CTX_STATE_STATE 3; let d := d.setCx 100 { d.cx 100 with hdr := some ({ base := 0x10000, slots := 1, tv := 5000, opsOff := 0x400, opsCount := 3, granBytes := 64, symOff := 0x800, symCount := 8, timOff := 0xC00, timCount := 1, wsmCount := 1, wsmOff := 0x1000, auxOff := 0x1400, redOff := 0x1800, redCount := 1, maskCount := 1 } : Hdr) }; let d := d.put (ctxBase 100) .CTX_MAILBOX_DATA 0xF1234; d); let s : State := { s with store := ([(65536, 49), (65537, 86), (65538, 72), (65539, 90), (65540, 1), (65542, 1), (65543, 1), (65544, 136), (65545, 19), (65553, 4), (65560, 3), (65564, 64), (65569, 8), (65576, 8), (65585, 12), (65592, 1), (65594, 1), (65601, 16), (65609, 20), (65617, 24), (65624, 1), (65626, 1), (65660, 63), (65661, 153), (65662, 17), (65663, 218), (66565, 4), (66567, 8), (66568, 1), (66573, 4), (66575, 16), (66583, 144)] : Tab Byte) }; (s.d.atWord n r 0x1A w)) ∧
    (let n : Fin 32 := 3; let r : URun := ({ rtn := { slot := 0x23, ctx := 100, arg := 5 }, upc := 0x100, w := [7, 0xFFFFF, 3, 0xABCDE, 1, 0, 0x80000, 2], latch := 0x123456789ABCDEF0 } : URun); let x : BitVec 15 := 1984; let w := x.toNat; let s := served fun d => (let d := d.setEng n { d.eng n with run := some r }; let d := d.setb patB .PAT_STORE_READY true; let d := d.put (ctxBase 100) .CTX_STATE_STATE 3; let d := d.setCx 100 { d.cx 100 with hdr := some ({ base := 0x10000, slots := 1, tv := 5000, opsOff := 0x400, opsCount := 3, granBytes := 64, symOff := 0x800, symCount := 8, timOff := 0xC00, timCount := 1, wsmCount := 1, wsmOff := 0x1000, auxOff := 0x1400, redOff := 0x1800, redCount := 1, maskCount := 1 } : Hdr) }; let d := d.put (ctxBase 100) .CTX_MAILBOX_DATA 0xF1234; d); let s : State := { s with store := ([(65536, 49), (65537, 86), (65538, 72), (65539, 90), (65540, 1), (65542, 1), (65543, 1), (65544, 136), (65545, 19), (65553, 4), (65560, 3), (65564, 64), (65569, 8), (65576, 8), (65585, 12), (65592, 1), (65594, 1), (65601, 16), (65609, 20), (65617, 24), (65624, 1), (65626, 1), (65660, 63), (65661, 153), (65662, 17), (65663, 218), (66565, 4), (66567, 8), (66568, 1), (66573, 4), (66575, 16), (66583, 144)] : Tab Byte) }; (s.d.atWord n r 0x1B w) ∧ (r.wbuf.length < 64)) ∧
    (let n : Fin 32 := 3; let r : URun := ({ rtn := { slot := 0x23, ctx := 100, arg := 5 }, upc := 0x100, w := [7, 0xFFFFF, 3, 0xABCDE, 1, 0, 0x80000, 2], latch := 0x123456789ABCDEF0 } : URun); let x : BitVec 15 := 0x55; let w := x.toNat; let s := served fun d => (let d := d.setEng n { d.eng n with run := some r }; let d := d.setb patB .PAT_STORE_READY true; let d := d.put (ctxBase 100) .CTX_STATE_STATE 3; let d := d.setCx 100 { d.cx 100 with hdr := some ({ base := 0x10000, slots := 1, tv := 5000, opsOff := 0x400, opsCount := 3, granBytes := 64, symOff := 0x800, symCount := 8, timOff := 0xC00, timCount := 1, wsmCount := 1, wsmOff := 0x1000, auxOff := 0x1400, redOff := 0x1800, redCount := 1, maskCount := 1 } : Hdr) }; let d := d.put (ctxBase 100) .CTX_MAILBOX_DATA 0xF1234; d); let s : State := { s with store := ([(65536, 49), (65537, 86), (65538, 72), (65539, 90), (65540, 1), (65542, 1), (65543, 1), (65544, 136), (65545, 19), (65553, 4), (65560, 3), (65564, 64), (65569, 8), (65576, 8), (65585, 12), (65592, 1), (65594, 1), (65601, 16), (65609, 20), (65617, 24), (65624, 1), (65626, 1), (65660, 63), (65661, 153), (65662, 17), (65663, 218), (66565, 4), (66567, 8), (66568, 1), (66573, 4), (66575, 16), (66583, 144)] : Tab Byte) }; (s.d.atWord n r 0x1F w)) ∧
    (let n : Fin 32 := 3; let r : URun := ({ rtn := { slot := 0x23, ctx := 100, arg := 5 }, upc := 0x100, w := [7, 0xFFFFF, 3, 0xABCDE, 1, 0, 0x80000, 2], latch := 0x123456789ABCDEF0, calls := [1, 2, 3, 4] } : URun); let x : BitVec 15 := 5; let w := x.toNat; let s := served fun d => (let d := d.setEng n { d.eng n with run := some r }; let d := d.setb patB .PAT_STORE_READY true; let d := d.put (ctxBase 100) .CTX_STATE_STATE 3; let d := d.setCx 100 { d.cx 100 with hdr := some ({ base := 0x10000, slots := 1, tv := 5000, opsOff := 0x400, opsCount := 3, granBytes := 64, symOff := 0x800, symCount := 8, timOff := 0xC00, timCount := 1, wsmCount := 1, wsmOff := 0x1000, auxOff := 0x1400, redOff := 0x1800, redCount := 1, maskCount := 1 } : Hdr) }; let d := d.put (ctxBase 100) .CTX_MAILBOX_DATA 0xF1234; d); let s : State := { s with store := ([(65536, 49), (65537, 86), (65538, 72), (65539, 90), (65540, 1), (65542, 1), (65543, 1), (65544, 136), (65545, 19), (65553, 4), (65560, 3), (65564, 64), (65569, 8), (65576, 8), (65585, 12), (65592, 1), (65594, 1), (65601, 16), (65609, 20), (65617, 24), (65624, 1), (65626, 1), (65660, 63), (65661, 153), (65662, 17), (65663, 218), (66565, 4), (66567, 8), (66568, 1), (66573, 4), (66575, 16), (66583, 144)] : Tab Byte) }; (s.d.atWord n r 0x0E w) ∧ (4 ≤ r.calls.length)) ∧
    (let n : Fin 32 := 3; let r : URun := ({ rtn := { slot := 0x23, ctx := 100, arg := 5 }, upc := 0x100, w := [7, 0xFFFFF, 3, 0xABCDE, 1, 0, 0x80000, 2], latch := 0x123456789ABCDEF0 } : URun); let x : BitVec 15 := 0; let w := x.toNat; let s := served fun d => (let d := d.setEng n { d.eng n with run := some r }; let d := d.setb patB .PAT_STORE_READY true; let d := d.put (ctxBase 100) .CTX_STATE_STATE 3; let d := d.setCx 100 { d.cx 100 with hdr := some ({ base := 0x10000, slots := 1, tv := 5000, opsOff := 0x400, opsCount := 3, granBytes := 64, symOff := 0x800, symCount := 8, timOff := 0xC00, timCount := 1, wsmCount := 1, wsmOff := 0x1000, auxOff := 0x1400, redOff := 0x1800, redCount := 1, maskCount := 1 } : Hdr) }; let d := d.put (ctxBase 100) .CTX_MAILBOX_DATA 0xF1234; d); let s : State := { s with store := ([(65536, 49), (65537, 86), (65538, 72), (65539, 90), (65540, 1), (65542, 1), (65543, 1), (65544, 136), (65545, 19), (65553, 4), (65560, 3), (65564, 64), (65569, 8), (65576, 8), (65585, 12), (65592, 1), (65594, 1), (65601, 16), (65609, 20), (65617, 24), (65624, 1), (65626, 1), (65660, 63), (65661, 153), (65662, 17), (65663, 218), (66565, 4), (66567, 8), (66568, 1), (66573, 4), (66575, 16), (66583, 144)] : Tab Byte) }; (s.d.atWord n r 0x0F w) ∧ (r.calls = [])) ∧
    (let n : Fin 32 := 3; let r : URun := ({ rtn := { slot := 0x23, ctx := 100, arg := 5 }, upc := 0x100, w := [7, 0xFFFFF, 3, 0xABCDE, 1, 0, 0x80000, 2], latch := 0x123456789ABCDEF0, wbuf := List.replicate 64 (1, 2) } : URun); let x : BitVec 15 := 1984; let w := x.toNat; let s := served fun d => (let d := d.setEng n { d.eng n with run := some r }; let d := d.setb patB .PAT_STORE_READY true; let d := d.put (ctxBase 100) .CTX_STATE_STATE 3; let d := d.setCx 100 { d.cx 100 with hdr := some ({ base := 0x10000, slots := 1, tv := 5000, opsOff := 0x400, opsCount := 3, granBytes := 64, symOff := 0x800, symCount := 8, timOff := 0xC00, timCount := 1, wsmCount := 1, wsmOff := 0x1000, auxOff := 0x1400, redOff := 0x1800, redCount := 1, maskCount := 1 } : Hdr) }; let d := d.put (ctxBase 100) .CTX_MAILBOX_DATA 0xF1234; d); let s : State := { s with store := ([(65536, 49), (65537, 86), (65538, 72), (65539, 90), (65540, 1), (65542, 1), (65543, 1), (65544, 136), (65545, 19), (65553, 4), (65560, 3), (65564, 64), (65569, 8), (65576, 8), (65585, 12), (65592, 1), (65594, 1), (65601, 16), (65609, 20), (65617, 24), (65624, 1), (65626, 1), (65660, 63), (65661, 153), (65662, 17), (65663, 218), (66565, 4), (66567, 8), (66568, 1), (66573, 4), (66575, 16), (66583, 144)] : Tab Byte) }; (s.d.atWord n r 0x1B w) ∧ (64 ≤ r.wbuf.length)) ∧
    (let n : Fin 32 := 3; let r : URun := ({ rtn := { slot := 0x23, ctx := 100, arg := 5 }, upc := 0x100, w := [7, 0xFFFFF, 3, 0xABCDE, 1, 0, 0x80000, 2], latch := 0x123456789ABCDEF0, leaves := List.replicate 8 {} } : URun); let x : BitVec 15 := 0x123; let w := x.toNat; let s := served fun d => (let d := d.setEng n { d.eng n with run := some r }; let d := d.setb patB .PAT_STORE_READY true; let d := d.put (ctxBase 100) .CTX_STATE_STATE 3; let d := d.setCx 100 { d.cx 100 with hdr := some ({ base := 0x10000, slots := 1, tv := 5000, opsOff := 0x400, opsCount := 3, granBytes := 64, symOff := 0x800, symCount := 8, timOff := 0xC00, timCount := 1, wsmCount := 1, wsmOff := 0x1000, auxOff := 0x1400, redOff := 0x1800, redCount := 1, maskCount := 1 } : Hdr) }; let d := d.put (ctxBase 100) .CTX_MAILBOX_DATA 0xF1234; d); let s : State := { s with store := ([(65536, 49), (65537, 86), (65538, 72), (65539, 90), (65540, 1), (65542, 1), (65543, 1), (65544, 136), (65545, 19), (65553, 4), (65560, 3), (65564, 64), (65569, 8), (65576, 8), (65585, 12), (65592, 1), (65594, 1), (65601, 16), (65609, 20), (65617, 24), (65624, 1), (65626, 1), (65660, 63), (65661, 153), (65662, 17), (65663, 218), (66565, 4), (66567, 8), (66568, 1), (66573, 4), (66575, 16), (66583, 144)] : Tab Byte) }; (s.d.atWord n r 0x19 w) ∧ (8 ≤ r.leaves.length)) ∧
    (let n : Fin 32 := 3; let r : URun := ({ rtn := { slot := 0x23, ctx := 100, arg := 5 }, upc := 0x100, w := [7, 0xFFFFF, 3, 0xABCDE, 1, 0, 0x80000, 2], latch := 0x123456789ABCDEF0, tail := some 3 } : URun); let s := served fun d => (let d := d.setEng n { d.eng n with run := some r }; let d := d.setb patB .PAT_STORE_READY true; let d := d.put (ctxBase 100) .CTX_STATE_STATE 3; let d := d.setCx 100 { d.cx 100 with hdr := some ({ base := 0x10000, slots := 1, tv := 5000, opsOff := 0x400, opsCount := 3, granBytes := 64, symOff := 0x800, symCount := 8, timOff := 0xC00, timCount := 1, wsmCount := 1, wsmOff := 0x1000, auxOff := 0x1400, redOff := 0x1800, redCount := 1, maskCount := 1 } : Hdr) }; let d := d.put (ctxBase 100) .CTX_MAILBOX_DATA 0xF1234; d); let s : State := { s with store := ([(65536, 49), (65537, 86), (65538, 72), (65539, 90), (65540, 1), (65542, 1), (65543, 1), (65544, 136), (65545, 19), (65553, 4), (65560, 3), (65564, 64), (65569, 8), (65576, 8), (65585, 12), (65592, 1), (65594, 1), (65601, 16), (65609, 20), (65617, 24), (65624, 1), (65626, 1), (65660, 63), (65661, 153), (65662, 17), (65663, 218), (66565, 4), (66567, 8), (66568, 1), (66573, 4), (66575, 16), (66583, 144)] : Tab Byte) }; (s.d.running n = some r) ∧ ((s.d.clu n).bst = none) ∧ (r.tail ≠ none)) := by
  refine ⟨?_, ?_, ?_, ?_, ?_, ?_, ?_, ?_, ?_, ?_, ?_, ?_, ?_, ?_, ?_, ?_, ?_, ?_, ?_, ?_, ?_, ?_, ?_, ?_, ?_, ?_⟩ <;> (try dsimp only [Dev.recorded, State.walkAt, Dev.atRoutine, Dev.atWord]) <;> decide +kernel

/-- States and operands that meet the hypotheses of clauses of `Obligations.MicroBuilder`. -/
theorem witness_MicroBuilder :
    (let n : Fin 32 := 3; let r : URun := ({ rtn := { slot := 0x23, ctx := 100, arg := 5 }, upc := 0x100, w := [7, 0xFFFFF, 3, 0xABCDE, 1, 0, 0x80000, 2], latch := 0x123456789ABCDEF0 } : URun); let x : BitVec 15 := 8192; let w := x.toNat; let s := served fun d => (let d := d.setEng n { d.eng n with run := some r }; let d := d.setb patB .PAT_STORE_READY true; let d := d.put (ctxBase 100) .CTX_STATE_STATE 3; let d := d.setCx 100 { d.cx 100 with hdr := some ({ base := 0x10000, slots := 1, tv := 5000, opsOff := 0x400, opsCount := 3, granBytes := 64, symOff := 0x800, symCount := 8, timOff := 0xC00, timCount := 1, wsmCount := 1, wsmOff := 0x1000, auxOff := 0x1400, redOff := 0x1800, redCount := 1, maskCount := 1 } : Hdr) }; let d := d.put (ctxBase 100) .CTX_MAILBOX_DATA 0xF1234; d); let s : State := { s with store := ([(65536, 49), (65537, 86), (65538, 72), (65539, 90), (65540, 1), (65542, 1), (65543, 1), (65544, 136), (65545, 19), (65553, 4), (65560, 3), (65564, 64), (65569, 8), (65576, 8), (65585, 12), (65592, 1), (65594, 1), (65601, 16), (65609, 20), (65617, 24), (65624, 1), (65626, 1), (65660, 63), (65661, 153), (65662, 17), (65663, 218), (66565, 4), (66567, 8), (66568, 1), (66573, 4), (66575, 16), (66583, 144)] : Tab Byte) }; (s.d.atWord n r 0x16 w)) ∧
    (let n : Fin 32 := 3; let r : URun := ({ rtn := { slot := 0x23, ctx := 100, arg := 5 }, upc := 0x100, w := [7, 0xFFFFF, 3, 0xABCDE, 1, 0, 0x80000, 2], latch := 0x123456789ABCDEF0 } : URun); let x : BitVec 15 := 1536; let w := x.toNat; let s := served fun d => (let d := d.setEng n { d.eng n with run := some r }; let d := d.setb patB .PAT_STORE_READY true; let d := d.put (ctxBase 100) .CTX_STATE_STATE 3; let d := d.setCx 100 { d.cx 100 with hdr := some ({ base := 0x10000, slots := 1, tv := 5000, opsOff := 0x400, opsCount := 3, granBytes := 64, symOff := 0x800, symCount := 8, timOff := 0xC00, timCount := 1, wsmCount := 1, wsmOff := 0x1000, auxOff := 0x1400, redOff := 0x1800, redCount := 1, maskCount := 1 } : Hdr) }; let d := d.put (ctxBase 100) .CTX_MAILBOX_DATA 0xF1234; d); let s : State := { s with store := ([(65536, 49), (65537, 86), (65538, 72), (65539, 90), (65540, 1), (65542, 1), (65543, 1), (65544, 136), (65545, 19), (65553, 4), (65560, 3), (65564, 64), (65569, 8), (65576, 8), (65585, 12), (65592, 1), (65594, 1), (65601, 16), (65609, 20), (65617, 24), (65624, 1), (65626, 1), (65660, 63), (65661, 153), (65662, 17), (65663, 218), (66565, 4), (66567, 8), (66568, 1), (66573, 4), (66575, 16), (66583, 144)] : Tab Byte) }; (s.d.atWord n r 0x17 w) ∧ (w % 64 = 0)) ∧
    (let n : Fin 32 := 3; let r : URun := ({ rtn := { slot := 0x23, ctx := 100, arg := 5 }, upc := 0x100, w := [7, 0xFFFFF, 3, 0xABCDE, 1, 0, 0x80000, 2], latch := 0x123456789ABCDEF0 } : URun); let x : BitVec 15 := 1537; let w := x.toNat; let s := served fun d => (let d := d.setEng n { d.eng n with run := some r }; let d := d.setb patB .PAT_STORE_READY true; let d := d.put (ctxBase 100) .CTX_STATE_STATE 3; let d := d.setCx 100 { d.cx 100 with hdr := some ({ base := 0x10000, slots := 1, tv := 5000, opsOff := 0x400, opsCount := 3, granBytes := 64, symOff := 0x800, symCount := 8, timOff := 0xC00, timCount := 1, wsmCount := 1, wsmOff := 0x1000, auxOff := 0x1400, redOff := 0x1800, redCount := 1, maskCount := 1 } : Hdr) }; let d := d.put (ctxBase 100) .CTX_MAILBOX_DATA 0xF1234; d); let s : State := { s with store := ([(65536, 49), (65537, 86), (65538, 72), (65539, 90), (65540, 1), (65542, 1), (65543, 1), (65544, 136), (65545, 19), (65553, 4), (65560, 3), (65564, 64), (65569, 8), (65576, 8), (65585, 12), (65592, 1), (65594, 1), (65601, 16), (65609, 20), (65617, 24), (65624, 1), (65626, 1), (65660, 63), (65661, 153), (65662, 17), (65663, 218), (66565, 4), (66567, 8), (66568, 1), (66573, 4), (66575, 16), (66583, 144)] : Tab Byte) }; (s.d.atWord n r 0x17 w) ∧ (w % 64 = 1)) ∧
    (let n : Fin 32 := 3; let r : URun := ({ rtn := { slot := 0x23, ctx := 100, arg := 5 }, upc := 0x100, w := [7, 0xFFFFF, 3, 0xABCDE, 1, 0, 0x80000, 2], latch := 0x123456789ABCDEF0 } : URun); let x : BitVec 15 := 1538; let w := x.toNat; let s := served fun d => (let d := d.setEng n { d.eng n with run := some r }; let d := d.setb patB .PAT_STORE_READY true; let d := d.put (ctxBase 100) .CTX_STATE_STATE 3; let d := d.setCx 100 { d.cx 100 with hdr := some ({ base := 0x10000, slots := 1, tv := 5000, opsOff := 0x400, opsCount := 3, granBytes := 64, symOff := 0x800, symCount := 8, timOff := 0xC00, timCount := 1, wsmCount := 1, wsmOff := 0x1000, auxOff := 0x1400, redOff := 0x1800, redCount := 1, maskCount := 1 } : Hdr) }; let d := d.put (ctxBase 100) .CTX_MAILBOX_DATA 0xF1234; d); let s : State := { s with store := ([(65536, 49), (65537, 86), (65538, 72), (65539, 90), (65540, 1), (65542, 1), (65543, 1), (65544, 136), (65545, 19), (65553, 4), (65560, 3), (65564, 64), (65569, 8), (65576, 8), (65585, 12), (65592, 1), (65594, 1), (65601, 16), (65609, 20), (65617, 24), (65624, 1), (65626, 1), (65660, 63), (65661, 153), (65662, 17), (65663, 218), (66565, 4), (66567, 8), (66568, 1), (66573, 4), (66575, 16), (66583, 144)] : Tab Byte) }; (s.d.atWord n r 0x17 w) ∧ (w % 64 = 2)) ∧
    (let n : Fin 32 := 3; let r : URun := ({ rtn := { slot := 0x23, ctx := 100, arg := 5 }, upc := 0x100, w := [7, 0xFFFFF, 3, 0xABCDE, 1, 0, 0x80000, 2], latch := 0x123456789ABCDEF0 } : URun); let x : BitVec 15 := 1027; let w := x.toNat; let s := served fun d => (let d := d.setEng n { d.eng n with run := some r }; let d := d.setb patB .PAT_STORE_READY true; let d := d.put (ctxBase 100) .CTX_STATE_STATE 3; let d := d.setCx 100 { d.cx 100 with hdr := some ({ base := 0x10000, slots := 1, tv := 5000, opsOff := 0x400, opsCount := 3, granBytes := 64, symOff := 0x800, symCount := 8, timOff := 0xC00, timCount := 1, wsmCount := 1, wsmOff := 0x1000, auxOff := 0x1400, redOff := 0x1800, redCount := 1, maskCount := 1 } : Hdr) }; let d := d.put (ctxBase 100) .CTX_MAILBOX_DATA 0xF1234; d); let s : State := { s with store := ([(65536, 49), (65537, 86), (65538, 72), (65539, 90), (65540, 1), (65542, 1), (65543, 1), (65544, 136), (65545, 19), (65553, 4), (65560, 3), (65564, 64), (65569, 8), (65576, 8), (65585, 12), (65592, 1), (65594, 1), (65601, 16), (65609, 20), (65617, 24), (65624, 1), (65626, 1), (65660, 63), (65661, 153), (65662, 17), (65663, 218), (66565, 4), (66567, 8), (66568, 1), (66573, 4), (66575, 16), (66583, 144)] : Tab Byte) }; (s.d.atWord n r 0x17 w) ∧ (w % 64 = 3)) ∧
    (let n : Fin 32 := 3; let r : URun := ({ rtn := { slot := 0x23, ctx := 100, arg := 5 }, upc := 0x100, w := [7, 0xFFFFF, 3, 0xABCDE, 1, 0, 0x80000, 2], latch := 0x123456789ABCDEF0 } : URun); let x : BitVec 15 := 1540; let w := x.toNat; let s := served fun d => (let d := d.setEng n { d.eng n with run := some r }; let d := d.setb patB .PAT_STORE_READY true; let d := d.put (ctxBase 100) .CTX_STATE_STATE 3; let d := d.setCx 100 { d.cx 100 with hdr := some ({ base := 0x10000, slots := 1, tv := 5000, opsOff := 0x400, opsCount := 3, granBytes := 64, symOff := 0x800, symCount := 8, timOff := 0xC00, timCount := 1, wsmCount := 1, wsmOff := 0x1000, auxOff := 0x1400, redOff := 0x1800, redCount := 1, maskCount := 1 } : Hdr) }; let d := d.put (ctxBase 100) .CTX_MAILBOX_DATA 0xF1234; d); let s : State := { s with store := ([(65536, 49), (65537, 86), (65538, 72), (65539, 90), (65540, 1), (65542, 1), (65543, 1), (65544, 136), (65545, 19), (65553, 4), (65560, 3), (65564, 64), (65569, 8), (65576, 8), (65585, 12), (65592, 1), (65594, 1), (65601, 16), (65609, 20), (65617, 24), (65624, 1), (65626, 1), (65660, 63), (65661, 153), (65662, 17), (65663, 218), (66565, 4), (66567, 8), (66568, 1), (66573, 4), (66575, 16), (66583, 144)] : Tab Byte) }; (s.d.atWord n r 0x17 w) ∧ (w % 64 = 4)) ∧
    (let n : Fin 32 := 3; let r : URun := ({ rtn := { slot := 0x23, ctx := 100, arg := 5 }, upc := 0x100, w := [7, 0xFFFFF, 3, 0xABCDE, 1, 0, 0x80000, 2], latch := 0x123456789ABCDEF0 } : URun); let x : BitVec 15 := 1541; let w := x.toNat; let s := served fun d => (let d := d.setEng n { d.eng n with run := some r }; let d := d.setb patB .PAT_STORE_READY true; let d := d.put (ctxBase 100) .CTX_STATE_STATE 3; let d := d.setCx 100 { d.cx 100 with hdr := some ({ base := 0x10000, slots := 1, tv := 5000, opsOff := 0x400, opsCount := 3, granBytes := 64, symOff := 0x800, symCount := 8, timOff := 0xC00, timCount := 1, wsmCount := 1, wsmOff := 0x1000, auxOff := 0x1400, redOff := 0x1800, redCount := 1, maskCount := 1 } : Hdr) }; let d := d.put (ctxBase 100) .CTX_MAILBOX_DATA 0xF1234; d); let s : State := { s with store := ([(65536, 49), (65537, 86), (65538, 72), (65539, 90), (65540, 1), (65542, 1), (65543, 1), (65544, 136), (65545, 19), (65553, 4), (65560, 3), (65564, 64), (65569, 8), (65576, 8), (65585, 12), (65592, 1), (65594, 1), (65601, 16), (65609, 20), (65617, 24), (65624, 1), (65626, 1), (65660, 63), (65661, 153), (65662, 17), (65663, 218), (66565, 4), (66567, 8), (66568, 1), (66573, 4), (66575, 16), (66583, 144)] : Tab Byte) }; (s.d.atWord n r 0x17 w) ∧ (w % 64 = 5)) ∧
    (let n : Fin 32 := 3; let r : URun := ({ rtn := { slot := 0x23, ctx := 100, arg := 5 }, upc := 0x100, w := [7, 0xFFFFF, 3, 0xABCDE, 1, 0, 0x80000, 2], latch := 0x123456789ABCDEF0 } : URun); let x : BitVec 15 := 1542; let w := x.toNat; let s := served fun d => (let d := d.setEng n { d.eng n with run := some r }; let d := d.setb patB .PAT_STORE_READY true; let d := d.put (ctxBase 100) .CTX_STATE_STATE 3; let d := d.setCx 100 { d.cx 100 with hdr := some ({ base := 0x10000, slots := 1, tv := 5000, opsOff := 0x400, opsCount := 3, granBytes := 64, symOff := 0x800, symCount := 8, timOff := 0xC00, timCount := 1, wsmCount := 1, wsmOff := 0x1000, auxOff := 0x1400, redOff := 0x1800, redCount := 1, maskCount := 1 } : Hdr) }; let d := d.put (ctxBase 100) .CTX_MAILBOX_DATA 0xF1234; d); let s : State := { s with store := ([(65536, 49), (65537, 86), (65538, 72), (65539, 90), (65540, 1), (65542, 1), (65543, 1), (65544, 136), (65545, 19), (65553, 4), (65560, 3), (65564, 64), (65569, 8), (65576, 8), (65585, 12), (65592, 1), (65594, 1), (65601, 16), (65609, 20), (65617, 24), (65624, 1), (65626, 1), (65660, 63), (65661, 153), (65662, 17), (65663, 218), (66565, 4), (66567, 8), (66568, 1), (66573, 4), (66575, 16), (66583, 144)] : Tab Byte) }; (s.d.atWord n r 0x17 w) ∧ (w % 64 = 6)) ∧
    (let n : Fin 32 := 3; let r : URun := ({ rtn := { slot := 0x23, ctx := 100, arg := 5 }, upc := 0x100, w := [7, 0xFFFFF, 3, 0xABCDE, 1, 0, 0x80000, 2], latch := 0x123456789ABCDEF0 } : URun); let x : BitVec 15 := 1536; let w := x.toNat; let k := fun (i : Nat) => if 4 < w % 8 then w else w / 8 * 8 + i; let s := served fun d => (let d := d.setEng n { d.eng n with run := some r }; let d := d.setb patB .PAT_STORE_READY true; let d := d.put (ctxBase 100) .CTX_STATE_STATE 3; let d := d.setCx 100 { d.cx 100 with hdr := some ({ base := 0x10000, slots := 1, tv := 5000, opsOff := 0x400, opsCount := 3, granBytes := 64, symOff := 0x800, symCount := 8, timOff := 0xC00, timCount := 1, wsmCount := 1, wsmOff := 0x1000, auxOff := 0x1400, redOff := 0x1800, redCount := 1, maskCount := 1 } : Hdr) }; let d := d.put (ctxBase 100) .CTX_MAILBOX_DATA 0xF1234; d); let s : State := { s with store := ([(65536, 49), (65537, 86), (65538, 72), (65539, 90), (65540, 1), (65542, 1), (65543, 1), (65544, 136), (65545, 19), (65553, 4), (65560, 3), (65564, 64), (65569, 8), (65576, 8), (65585, 12), (65592, 1), (65594, 1), (65601, 16), (65609, 20), (65617, 24), (65624, 1), (65626, 1), (65660, 63), (65661, 153), (65662, 17), (65663, 218), (66565, 4), (66567, 8), (66568, 1), (66573, 4), (66575, 16), (66583, 144)] : Tab Byte) }; (r.nact < 64) ∧ (s.d.atWord n r 0x18 (k 0))) ∧
    (let n : Fin 32 := 3; let r : URun := ({ rtn := { slot := 0x23, ctx := 100, arg := 5 }, upc := 0x100, w := [7, 0xFFFFF, 3, 0xABCDE, 1, 0, 0x80000, 2], latch := 0x123456789ABCDEF0 } : URun); let x : BitVec 15 := 1537; let w := x.toNat; let k := fun (i : Nat) => if 4 < w % 8 then w else w / 8 * 8 + i; let s := served fun d => (let d := d.setEng n { d.eng n with run := some r }; let d := d.setb patB .PAT_STORE_READY true; let d := d.put (ctxBase 100) .CTX_STATE_STATE 3; let d := d.setCx 100 { d.cx 100 with hdr := some ({ base := 0x10000, slots := 1, tv := 5000, opsOff := 0x400, opsCount := 3, granBytes := 64, symOff := 0x800, symCount := 8, timOff := 0xC00, timCount := 1, wsmCount := 1, wsmOff := 0x1000, auxOff := 0x1400, redOff := 0x1800, redCount := 1, maskCount := 1 } : Hdr) }; let d := d.put (ctxBase 100) .CTX_MAILBOX_DATA 0xF1234; d); let s : State := { s with store := ([(65536, 49), (65537, 86), (65538, 72), (65539, 90), (65540, 1), (65542, 1), (65543, 1), (65544, 136), (65545, 19), (65553, 4), (65560, 3), (65564, 64), (65569, 8), (65576, 8), (65585, 12), (65592, 1), (65594, 1), (65601, 16), (65609, 20), (65617, 24), (65624, 1), (65626, 1), (65660, 63), (65661, 153), (65662, 17), (65663, 218), (66565, 4), (66567, 8), (66568, 1), (66573, 4), (66575, 16), (66583, 144)] : Tab Byte) }; (r.nact < 64) ∧ (s.d.atWord n r 0x18 (k 1))) ∧
    (let n : Fin 32 := 3; let r : URun := ({ rtn := { slot := 0x23, ctx := 100, arg := 5 }, upc := 0x100, w := [7, 0xFFFFF, 3, 0xABCDE, 1, 0, 0x80000, 2], latch := 0x123456789ABCDEF0 } : URun); let x : BitVec 15 := 1538; let w := x.toNat; let k := fun (i : Nat) => if 4 < w % 8 then w else w / 8 * 8 + i; let s := served fun d => (let d := d.setEng n { d.eng n with run := some r }; let d := d.setb patB .PAT_STORE_READY true; let d := d.put (ctxBase 100) .CTX_STATE_STATE 3; let d := d.setCx 100 { d.cx 100 with hdr := some ({ base := 0x10000, slots := 1, tv := 5000, opsOff := 0x400, opsCount := 3, granBytes := 64, symOff := 0x800, symCount := 8, timOff := 0xC00, timCount := 1, wsmCount := 1, wsmOff := 0x1000, auxOff := 0x1400, redOff := 0x1800, redCount := 1, maskCount := 1 } : Hdr) }; let d := d.put (ctxBase 100) .CTX_MAILBOX_DATA 0xF1234; d); let s : State := { s with store := ([(65536, 49), (65537, 86), (65538, 72), (65539, 90), (65540, 1), (65542, 1), (65543, 1), (65544, 136), (65545, 19), (65553, 4), (65560, 3), (65564, 64), (65569, 8), (65576, 8), (65585, 12), (65592, 1), (65594, 1), (65601, 16), (65609, 20), (65617, 24), (65624, 1), (65626, 1), (65660, 63), (65661, 153), (65662, 17), (65663, 218), (66565, 4), (66567, 8), (66568, 1), (66573, 4), (66575, 16), (66583, 144)] : Tab Byte) }; (r.nact < 64) ∧ (s.d.atWord n r 0x18 (k 2))) ∧
    (let n : Fin 32 := 3; let r : URun := ({ rtn := { slot := 0x23, ctx := 100, arg := 5 }, upc := 0x100, w := [7, 0xFFFFF, 3, 0xABCDE, 1, 0, 0x80000, 2], latch := 0x123456789ABCDEF0 } : URun); let x : BitVec 15 := 1539; let w := x.toNat; let k := fun (i : Nat) => if 4 < w % 8 then w else w / 8 * 8 + i; let s := served fun d => (let d := d.setEng n { d.eng n with run := some r }; let d := d.setb patB .PAT_STORE_READY true; let d := d.put (ctxBase 100) .CTX_STATE_STATE 3; let d := d.setCx 100 { d.cx 100 with hdr := some ({ base := 0x10000, slots := 1, tv := 5000, opsOff := 0x400, opsCount := 3, granBytes := 64, symOff := 0x800, symCount := 8, timOff := 0xC00, timCount := 1, wsmCount := 1, wsmOff := 0x1000, auxOff := 0x1400, redOff := 0x1800, redCount := 1, maskCount := 1 } : Hdr) }; let d := d.put (ctxBase 100) .CTX_MAILBOX_DATA 0xF1234; d); let s : State := { s with store := ([(65536, 49), (65537, 86), (65538, 72), (65539, 90), (65540, 1), (65542, 1), (65543, 1), (65544, 136), (65545, 19), (65553, 4), (65560, 3), (65564, 64), (65569, 8), (65576, 8), (65585, 12), (65592, 1), (65594, 1), (65601, 16), (65609, 20), (65617, 24), (65624, 1), (65626, 1), (65660, 63), (65661, 153), (65662, 17), (65663, 218), (66565, 4), (66567, 8), (66568, 1), (66573, 4), (66575, 16), (66583, 144)] : Tab Byte) }; (r.nact < 64) ∧ (s.d.atWord n r 0x18 (k 3))) ∧
    (let n : Fin 32 := 3; let r : URun := ({ rtn := { slot := 0x23, ctx := 100, arg := 5 }, upc := 0x100, w := [7, 0xFFFFF, 3, 0xABCDE, 1, 0, 0x80000, 2], latch := 0x123456789ABCDEF0 } : URun); let x : BitVec 15 := 1540; let w := x.toNat; let k := fun (i : Nat) => if 4 < w % 8 then w else w / 8 * 8 + i; let s := served fun d => (let d := d.setEng n { d.eng n with run := some r }; let d := d.setb patB .PAT_STORE_READY true; let d := d.put (ctxBase 100) .CTX_STATE_STATE 3; let d := d.setCx 100 { d.cx 100 with hdr := some ({ base := 0x10000, slots := 1, tv := 5000, opsOff := 0x400, opsCount := 3, granBytes := 64, symOff := 0x800, symCount := 8, timOff := 0xC00, timCount := 1, wsmCount := 1, wsmOff := 0x1000, auxOff := 0x1400, redOff := 0x1800, redCount := 1, maskCount := 1 } : Hdr) }; let d := d.put (ctxBase 100) .CTX_MAILBOX_DATA 0xF1234; d); let s : State := { s with store := ([(65536, 49), (65537, 86), (65538, 72), (65539, 90), (65540, 1), (65542, 1), (65543, 1), (65544, 136), (65545, 19), (65553, 4), (65560, 3), (65564, 64), (65569, 8), (65576, 8), (65585, 12), (65592, 1), (65594, 1), (65601, 16), (65609, 20), (65617, 24), (65624, 1), (65626, 1), (65660, 63), (65661, 153), (65662, 17), (65663, 218), (66565, 4), (66567, 8), (66568, 1), (66573, 4), (66575, 16), (66583, 144)] : Tab Byte) }; (r.nact < 64) ∧ (s.d.atWord n r 0x18 (k 4))) ∧
    (let n : Fin 32 := 3; let r : URun := ({ rtn := { slot := 0x23, ctx := 100, arg := 5 }, upc := 0x100, w := [7, 0xFFFFF, 3, 0xABCDE, 1, 0, 0x80000, 2], latch := 0x123456789ABCDEF0, stack := [{ kind := .mtch, op := 1, count := 2, fresh := true }], acts := [.systime], halt := some 3 } : URun); let x : BitVec 15 := 0xABC; let w := x.toNat; let s := served fun d => (let d := d.setEng n { d.eng n with run := some r }; let d := d.setb patB .PAT_STORE_READY true; let d := d.put (ctxBase 100) .CTX_STATE_STATE 3; let d := d.setCx 100 { d.cx 100 with hdr := some ({ base := 0x10000, slots := 1, tv := 5000, opsOff := 0x400, opsCount := 3, granBytes := 64, symOff := 0x800, symCount := 8, timOff := 0xC00, timCount := 1, wsmCount := 1, wsmOff := 0x1000, auxOff := 0x1400, redOff := 0x1800, redCount := 1, maskCount := 1 } : Hdr) }; let d := d.put (ctxBase 100) .CTX_MAILBOX_DATA 0xF1234; d); let s : State := { s with store := ([(65536, 49), (65537, 86), (65538, 72), (65539, 90), (65540, 1), (65542, 1), (65543, 1), (65544, 136), (65545, 19), (65553, 4), (65560, 3), (65564, 64), (65569, 8), (65576, 8), (65585, 12), (65592, 1), (65594, 1), (65601, 16), (65609, 20), (65617, 24), (65624, 1), (65626, 1), (65660, 63), (65661, 153), (65662, 17), (65663, 218), (66565, 4), (66567, 8), (66568, 1), (66573, 4), (66575, 16), (66583, 144)] : Tab Byte) }; (s.d.atWord n r 0x19 w) ∧ (r.leaves.length < 8)) := by
  refine ⟨?_, ?_, ?_, ?_, ?_, ?_, ?_, ?_, ?_, ?_, ?_, ?_, ?_, ?_⟩ <;> (try dsimp only [Dev.recorded, State.walkAt, Dev.atRoutine, Dev.atWord]) <;> decide +kernel

/-- States and operands that meet the hypotheses of clauses of `Obligations.PumpSteps`. -/
theorem witness_PumpSteps :
    (let c : Fin 1024 := 100; let h : Hdr := ({ tv := 5000, slots := 1, granBytes := 64 } : Hdr); let s := served fun d => (let d := d.setCx c { d.cx c with hdr := some h, site := [3201], gk := .prog 2, vec := 3 }; let d := d.put (ctxBase c) .CTX_STATE_STATE 3; let d := d.setb (vpBase (c / 128)) .CLK_VP_STAT_LOCKED true; let d := d.setCx c { d.cx c with aTo := d.vidx c }; d); let x := s.d.cx c; ((s.d.cx c).hdr = some h) ∧ (s.d.pumpUp c = true) ∧ (x.vec < 64) ∧ (s.d.latchDue c = false)) ∧
    (let c : Fin 1024 := 100; let h : Hdr := ({ tv := 5000, slots := 1, granBytes := 64 } : Hdr); let s := served fun d => (let d := d.setCx c { d.cx c with hdr := some h, site := [3201], gk := .prog 2, vec := 56 }; let d := d.put (ctxBase c) .CTX_STATE_STATE 3; let d := d.setb (vpBase (c / 128)) .CLK_VP_STAT_LOCKED true; let d := d.setCx c { d.cx c with aTo := d.vidx c }; d); ((s.d.cx c).hdr = some h) ∧ (s.d.emitting c = true) ∧ (s.d.latchDue c = true)) ∧
    (let c : Fin 1024 := 100; let h : Hdr := ({ tv := 5000, slots := 1, granBytes := 64 } : Hdr); let cause := (2 : Nat); let s := served fun d => (let d := d.setCx c { d.cx c with hdr := some h, site := [3201], gk := .prog 2, vec := 64, succ := some (.hold cause) }; let d := d.put (ctxBase c) .CTX_STATE_STATE 3; let d := d.setb (vpBase (c / 128)) .CLK_VP_STAT_LOCKED true; let d := d.setCx c { d.cx c with aTo := d.vidx c }; d); let x := s.d.cx c; ((s.d.cx c).hdr = some h) ∧ (s.d.emitting c = true) ∧ (x.vec = 64) ∧ (x.succ = some (.hold cause))) ∧
    (let c : Fin 1024 := 100; let h : Hdr := ({ tv := 5000, slots := 1, granBytes := 64 } : Hdr); let s := served fun d => (let d := d.setCx c { d.cx c with hdr := some h, site := [3201], gk := .prog 2, vec := 64, succ := some .cont, cur := some { gran := 2, count := 4 } }; let d := d.put (ctxBase c) .CTX_STATE_STATE 3; let d := d.setb (vpBase (c / 128)) .CLK_VP_STAT_LOCKED true; let d := d.setCx c { d.cx c with aTo := d.vidx c }; d); let x := s.d.cx c; ((s.d.cx c).hdr = some h) ∧ (s.d.emitting c = true) ∧ (x.vec = 64) ∧ (x.succ = some .cont)) ∧
    (let c : Fin 1024 := 100; let h : Hdr := ({ tv := 5000, slots := 1, granBytes := 64 } : Hdr); let l := ({ desc := { gran := 2, count := 4, opidx := 7 }, next := 8 } : Leaf); let tag := TTag.decide; let s := served fun d => (let d := d.setCx c { d.cx c with hdr := some h, site := [3201], gk := .prog 2, vec := 64, succ := some (.leaf l tag) }; let d := d.put (ctxBase c) .CTX_STATE_STATE 3; let d := d.setb (vpBase (c / 128)) .CLK_VP_STAT_LOCKED true; let d := d.setCx c { d.cx c with aTo := d.vidx c }; d); let x := s.d.cx c; ((s.d.cx c).hdr = some h) ∧ (s.d.emitting c = true) ∧ (x.vec = 64) ∧ (x.succ = some (.leaf l tag)) ∧ (l.ends = false)) ∧
    (let c : Fin 1024 := 100; let h : Hdr := ({ tv := 5000, slots := 1, granBytes := 64 } : Hdr); let l := ({ desc := { kind := .none }, halt := some 0x11 } : Leaf); let tag := TTag.decide; let cause := (0x11 : Nat); let s := served fun d => (let d := d.setCx c { d.cx c with hdr := some h, site := [3201], gk := .prog 2, vec := 64, succ := some (.leaf l tag) }; let d := d.put (ctxBase c) .CTX_STATE_STATE 3; let d := d.setb (vpBase (c / 128)) .CLK_VP_STAT_LOCKED true; let d := d.setCx c { d.cx c with aTo := d.vidx c }; d); let x := s.d.cx c; ((s.d.cx c).hdr = some h) ∧ (s.d.emitting c = true) ∧ (x.vec = 64) ∧ (x.succ = some (.leaf l tag)) ∧ (l.halt = some cause)) ∧
    (let c : Fin 1024 := 100; let h : Hdr := ({ tv := 5000, slots := 1, granBytes := 64 } : Hdr); let l := ({ desc := { kind := .none, last := true } } : Leaf); let tag := TTag.decide; let s := served fun d => (let d := d.setCx c { d.cx c with hdr := some h, site := [3201], gk := .prog 2, vec := 64, succ := some (.leaf l tag) }; let d := d.put (ctxBase c) .CTX_STATE_STATE 3; let d := d.setb (vpBase (c / 128)) .CLK_VP_STAT_LOCKED true; let d := d.setCx c { d.cx c with aTo := d.vidx c }; d); let x := s.d.cx c; ((s.d.cx c).hdr = some h) ∧ (s.d.emitting c = true) ∧ (x.vec = 64) ∧ (x.succ = some (.leaf l tag)) ∧ (l.halt = none) ∧ (l.desc.last = true)) ∧
    (let c : Fin 1024 := 100; let h : Hdr := ({ tv := 5000, slots := 1, granBytes := 64 } : Hdr); let cause := (2 : Nat); let s := served fun d => (let d := d.setCx c { d.cx c with hdr := some h, site := [3201], gk := .prog 2, vec := 64, succ := some (.strict cause) }; let d := d.put (ctxBase c) .CTX_STATE_STATE 3; let d := d.setb (vpBase (c / 128)) .CLK_VP_STAT_LOCKED true; let d := d.setCx c { d.cx c with aTo := d.vidx c }; d); let x := s.d.cx c; ((s.d.cx c).hdr = some h) ∧ (s.d.emitting c = true) ∧ (x.vec = 64) ∧ (x.succ = some (.strict cause))) ∧
    (let c : Fin 1024 := 100; let h : Hdr := ({ tv := 5000, slots := 1, granBytes := 64 } : Hdr); let s := served fun d => (let d := d.setCx c { d.cx c with hdr := some h, site := [3201], gk := .prog 2, vec := 64, succ := some .maskStop }; let d := d.put (ctxBase c) .CTX_STATE_STATE 3; let d := d.setb (vpBase (c / 128)) .CLK_VP_STAT_LOCKED true; let d := d.setCx c { d.cx c with aTo := d.vidx c }; d); let x := s.d.cx c; ((s.d.cx c).hdr = some h) ∧ (s.d.emitting c = true) ∧ (x.vec = 64) ∧ (x.succ = some .maskStop)) ∧
    (let g : Fin 1024 := 100; let s := served fun d => (let d := d.setPin g { d.pin g with owner := some 100, slot := 2, cmp := .fast }; let d := d.setCx 100 { d.cx 100 with hdr := some { tv := 5000, slots := 1 }, site := [100], gk := .prog 0 }; let d := d.put (ctxBase 100) .CTX_STATE_STATE 3; let d := d.setb (pinBase g) .PG_CTRL_EN true; let d := d.setb (pinBase g) .PIN_STAT_PARKED false; d); ((s.d.service g).isSome = true) ∧ (s.d.pinLive g = true)) ∧
    (let g : Fin 1024 := 100; let old := Drv.l; let new := Drv.h; let a := (0x40000 : Nat); let b := (0x50000 : Nat); let s := served fun d => (let d := d.setPin g { d.pin g with owner := some 100, slot := 2, cmp := .fast }; let d := d.setCx 100 { d.cx 100 with hdr := some { tv := 5000, slots := 1 }, site := [100], gk := .prog 0 }; let d := d.put (ctxBase 100) .CTX_STATE_STATE 3; let d := d.setb (pinBase g) .PG_CTRL_EN true; let d := d.setb (pinBase g) .PIN_STAT_PARKED false; let d := d.setLvlNow g [0x50000, 0x40000, 0x45000, 0, 0, 0]; let d := d.setPin g { d.pin g with drv := old }; d); (s.d.drvCode g old = some a) ∧ (s.d.drvCode g new = some b) ∧ (s.d.drvNow g = old) ∧ (a < b)) ∧
    (let g : Fin 1024 := 100; let old := Drv.h; let new := Drv.l; let a := (0x50000 : Nat); let b := (0x40000 : Nat); let s := served fun d => (let d := d.setPin g { d.pin g with owner := some 100, slot := 2, cmp := .fast }; let d := d.setCx 100 { d.cx 100 with hdr := some { tv := 5000, slots := 1 }, site := [100], gk := .prog 0 }; let d := d.put (ctxBase 100) .CTX_STATE_STATE 3; let d := d.setb (pinBase g) .PG_CTRL_EN true; let d := d.setb (pinBase g) .PIN_STAT_PARKED false; let d := d.setLvlNow g [0x50000, 0x40000, 0x45000, 0, 0, 0]; let d := d.setPin g { d.pin g with drv := old }; d); (s.d.drvCode g old = some a) ∧ (s.d.drvCode g new = some b) ∧ (s.d.drvNow g = old) ∧ (b < a)) ∧
    (let g : Fin 1024 := 100; let s := served fun d => (let d := d.setPin g { d.pin g with owner := some 100, slot := 2, cmp := .fast }; let d := d.setCx 100 { d.cx 100 with hdr := some { tv := 5000, slots := 1 }, site := [100], gk := .prog 0 }; let d := d.put (ctxBase 100) .CTX_STATE_STATE 3; let d := d.setb (pinBase g) .PG_CTRL_EN true; let d := d.setb (pinBase g) .PIN_STAT_PARKED false; d); ((s.d.service g).isSome = true)) ∧
    (let g : Fin 1024 := 100; let c := (100 : Nat); let s := served fun d => (let d := d.setPin g { d.pin g with owner := some 100, slot := 2, cmp := .fast }; let d := d.setCx 100 { d.cx 100 with hdr := some { tv := 5000, slots := 1 }, site := [100], gk := .prog 0 }; let d := d.put (ctxBase 100) .CTX_STATE_STATE 3; let d := d.setb (pinBase g) .PG_CTRL_EN true; let d := d.setb (pinBase g) .PIN_STAT_PARKED false; d); let p := s.d.pin g; let x := s.d.cx c; (s.d.actCtx g = some c) ∧ (x.loop = false) ∧ (x.quiet = false) ∧ (p.cmp ≠ .off) ∧ (s.d.cmpHeld g = false)) ∧
    (let g : Fin 1024 := 100; let c := (100 : Nat); let s := served fun d => (let d := d.setPin g { d.pin g with owner := some 100, slot := 2, cmp := .fast }; let d := d.setCx 100 { d.cx 100 with hdr := some { tv := 5000, slots := 1 }, site := [100], gk := .prog 0 }; let d := d.put (ctxBase 100) .CTX_STATE_STATE 3; let d := d.setb (pinBase g) .PG_CTRL_EN true; let d := d.setb (pinBase g) .PIN_STAT_PARKED false; d); let p := s.d.pin g; (s.d.actCtx g = some c) ∧ (p.win = none)) ∧
    (let g : Fin 1024 := 100; let c := (100 : Nat); let w := ({ high := true, failed := true } : Win); let s := served fun d => (let d := d.setPin g { d.pin g with owner := some 100, slot := 2, cmp := .fast }; let d := d.setCx 100 { d.cx 100 with hdr := some { tv := 5000, slots := 1 }, site := [100], gk := .prog 0 }; let d := d.put (ctxBase 100) .CTX_STATE_STATE 3; let d := d.setb (pinBase g) .PG_CTRL_EN true; let d := d.setb (pinBase g) .PIN_STAT_PARKED false; let d := d.setPin g { d.pin g with win := some w }; d); let p := s.d.pin g; let x := s.d.cx c; (s.d.actCtx g = some c) ∧ (p.win = some w) ∧ (x.loop = false) ∧ (x.quiet = false)) ∧
    (let g : Fin 1024 := 100; let c := (100 : Nat); let s := served fun d => (let d := d.setPin g { d.pin g with owner := some 100, slot := 2, cmp := .fast }; let d := d.setCx 100 { d.cx 100 with hdr := some { tv := 5000, slots := 1 }, site := [100], gk := .prog 0 }; let d := d.put (ctxBase 100) .CTX_STATE_STATE 3; let d := d.setb (pinBase g) .PG_CTRL_EN true; let d := d.setb (pinBase g) .PIN_STAT_PARKED false; let d := d.setCx 100 { d.cx 100 with gk := .hold }; d); (s.d.actCtx g = none) ∧ (s.d.service g = some c)) := by
  refine ⟨?_, ?_, ?_, ?_, ?_, ?_, ?_, ?_, ?_, ?_, ?_, ?_, ?_, ?_, ?_, ?_, ?_⟩ <;> (try dsimp only [Dev.recorded, State.walkAt, Dev.atRoutine, Dev.atWord]) <;> decide +kernel

/-- States and operands that meet the hypotheses of clauses of `Obligations.PatternStore`. -/
theorem witness_PatternStore :
    (let a : BitVec 36 := 0x1000; let r : B2Read := ({ len := 16 } : B2Read); let s := served fun d => (let d := d.setb patB .PAT_STORE_READY true; d); let s : State := { s with store := ([(0x1000, 7), (0x100F, 9)] : Tab Byte) }; (s.d.pcieOk = true) ∧ (s.d.storeReady = true) ∧ (a.toNat + r.len.val ≤ storeBytes) ∧ (a.toNat < storeBytes) ∧ (0 < r.len.val) ∧ (s.d.armed 0x0B 0 0 = false)) ∧
    (let a : BitVec 36 := 0xC00000000; let r : B2Read := ({ len := 16 } : B2Read); let s := served fun d => (let d := d.setb patB .PAT_STORE_READY true; d); (s.d.pcieOk = true) ∧ (s.d.storeReady = true) ∧ (storeBytes ≤ a.toNat ∨ r.len.val = 0)) ∧
    (let s : State := served; (s.d.pcieOk = true) ∧ (s.d.storeReady = false) ∧ (s.d.bit patB .PAT_B2_ERR_VALID = false)) ∧
    (let s := served fun d => (let d := d.setb patB .PAT_STORE_READY true; d); (s.d.pcieOk = true) ∧ (s.d.storeReady = true)) ∧
    (let s : State := served; (s.d.pcieOk = true) ∧ (s.d.storeReady = false)) ∧
    (let s : State := served; (s.d.storeReady = false)) ∧
    (let c : Fin 1024 := 100; let p : HPort := HPort.pcie; let v : Word := (20 : Word); let s : State := served; let sum := (List.range 32).foldl (fun a i => a + (if 32 * (c.val / 32) + i = c.val then 0 else s.d.get (quotaBase (32 * (c.val / 32) + i)) .PAT_QUOTA_QUOTA)) 0; let old := s.d.get (quotaBase c) .PAT_QUOTA_QUOTA; (s.d.reaches p (quotaBase c + 0x100) = true) ∧ (v.toNat % 1024 ≤ old ∨ sum + v.toNat % 1024 ≤ 456)) ∧
    (let c : Fin 1024 := 100; let p : HPort := HPort.pcie; let v : Word := (20 : Word); let s := served fun d => (let d := d.put (quotaBase (c + 1)) .PAT_QUOTA_QUOTA 450; let d := d.put (quotaBase c) .PAT_QUOTA_QUOTA ((v.toNat % 1024) - 1); d); let sum := (List.range 32).foldl (fun a i => a + (if 32 * (c.val / 32) + i = c.val then 0 else s.d.get (quotaBase (32 * (c.val / 32) + i)) .PAT_QUOTA_QUOTA)) 0; let old := s.d.get (quotaBase c) .PAT_QUOTA_QUOTA; (s.d.reaches p (quotaBase c + 0x100) = true) ∧ (old < v.toNat % 1024) ∧ (456 < sum + v.toNat % 1024)) ∧
    (let c : Fin 1024 := 100; let s := served fun d => (let d := d.setb patB .PAT_STORE_READY true; let d := d.setCx c { d.cx c with hdr := some ({ base := 0x10000, slots := 1, tv := 5000, granBytes := 64, symOff := 0x800, symCount := 8 } : Hdr), site := [3201], cur := some { gran := 2, count := 4 } }; let d := d.put (ctxBase c) .CTX_STATE_STATE 3; let d := d.put (quotaBase c) .PAT_QUOTA_EFF 16; d); let k := (match s.d.wants c with | (_, k) :: _ => k | [] => 0 : Nat); let ks := ((s.d.wants c).drop 1 : List (Bool × Nat)); (s.d.ctxOwning c = true) ∧ (s.d.storeReady = true) ∧ (s.d.vcache c = false) ∧ (s.d.wants c = (false, k) :: ks) ∧ (s.d.holds c (false, k) = false) ∧ (s.d.fills.any (fun f => f.ctx == c.val && !f.win && f.key == k) = false)) ∧
    (let c : Fin 1024 := 100; let s : State := served; (s.d.ctxOwning c = false ∨ s.d.storeReady = false ∨ s.d.vcache c = true)) ∧
    (let c : Fin 1024 := 100; let f := ({ ctx := 100, key := 3 } : Fill); let h := ({ base := 0x10000, slots := 1, tv := 5000, granBytes := 64, symOff := 0x800, symCount := 8 } : Hdr); let s := served fun d => (let d := d.setb patB .PAT_STORE_READY true; let d := d.setCx c { d.cx c with hdr := some h, site := [3201], cur := some { gran := 2, count := 4 } }; let d := d.put (ctxBase c) .CTX_STATE_STATE 3; let d := d.put (quotaBase c) .PAT_QUOTA_EFF 16; let d := { d with fills := [f] }; d); (s.d.nextFill c = some f) ∧ ((s.d.cx c).hdr = some h) ∧ (f.win = false) ∧ (s.d.armed 0x0B 0 0 = false) ∧ ((s.d.recsOf c).length < s.d.cacheCap c)) ∧
    (let c : Fin 1024 := 100; let f := ({ ctx := 100, key := 3 } : Fill); let h := ({ base := 0x10000, slots := 1, tv := 5000, granBytes := 64, symOff := 0x800, symCount := 8 } : Hdr); let s := served fun d => (let d := d.setb patB .PAT_STORE_READY true; let d := d.setCx c { d.cx c with hdr := some h, site := [3201], cur := some { gran := 2, count := 4 } }; let d := d.put (ctxBase c) .CTX_STATE_STATE 3; let d := d.put (quotaBase c) .PAT_QUOTA_EFF 16; let d := { d with fills := [f] }; d); (s.d.nextFill c = some f) ∧ ((s.d.cx c).hdr = some h) ∧ (f.win = false) ∧ (s.d.armed 0x0B 0 0 = false)) := by
  refine ⟨?_, ?_, ?_, ?_, ?_, ?_, ?_, ?_, ?_, ?_, ?_, ?_⟩ <;> (try dsimp only [Dev.recorded, State.walkAt, Dev.atRoutine, Dev.atWord]) <;> decide +kernel

/-- States and operands that meet the hypotheses of clauses of `Obligations.Streams`. -/
theorem witness_Streams :
    (let q : Fin 16 := 1; let b := strBase q; let p : HPort := .pcie; let s : State := served; (s.d.reaches p (b + 0x100) = true) ∧ (s.d.bit b .PAT_STR_CTRL_EN = false)) ∧
    (let q : Fin 16 := 1; let b := strBase q; let p : HPort := .pcie; let s := served fun d => (let d := d.setb (strBase q) .PAT_STR_CTRL_EN true; d); (s.d.reaches p (b + 0x100) = true) ∧ (s.d.bit b .PAT_STR_CTRL_EN = true)) ∧
    (let q : Fin 16 := 1; let b := strBase q; let p : HPort := .pcie; let s : State := served; (s.d.reaches p (b + 0x114) = true)) ∧
    (let q : Fin 16 := 1; let b := strBase q; let s := served fun d => (let d := d.put b .PAT_STR_STAT_STATE 1; let d := d.setb b .PAT_STR_CTRL_EN true; let d := d.put b .PAT_STR_CTRL_CTX 100; let d := d.put b .PAT_STR_PROD_PROD 2; let d := d.put (strBase q) .PAT_STR_STAT_STATE (1); let d := d.put (strBase q) .PAT_STR_PROD_PROD ((d.get (strBase q) .PAT_STR_CONS_CONS) + 1); d); (s.d.strState q ∈ [1, 2, 3]) ∧ (s.d.dmaUp = true) ∧ (s.d.strm q = none) ∧ (s.d.get b .PAT_STR_PROD_PROD ≠ s.d.get b .PAT_STR_CONS_CONS)) ∧
    (let q : Fin 16 := 1; let b := strBase q; let t := ({ addr := 0x4000, left := 3, tag := 9, irq := true } : SDesc); let h := ({ base := 0x10000, slots := 1, tv := 5000, granBytes := 64, symOff := 0x800, symCount := 8 } : Hdr); let s := served fun d => (let d := d.put b .PAT_STR_STAT_STATE 1; let d := d.setb b .PAT_STR_CTRL_EN true; let d := d.put b .PAT_STR_CTRL_CTX 100; let d := d.setCx 100 { d.cx 100 with hdr := some ({ base := 0x10000, slots := 1, tv := 5000, granBytes := 64, symOff := 0x800, symCount := 8 } : Hdr) }; let d := d.put b .PAT_STR_SLOTS_N 8; let d := d.put b .PAT_STR_GLO_GLO 2; let d := d.setStrm q (some t); d); (s.d.strState q ∈ [1, 2, 3]) ∧ (s.d.dmaUp = true) ∧ (s.d.strm q = some t) ∧ (t.left ≠ 0) ∧ ((s.d.cx (s.d.get b .PAT_STR_CTRL_CTX)).hdr = some h) ∧ (s.d.strP q < s.d.strF q + s.d.get b .PAT_STR_SLOTS_N)) ∧
    (let q : Fin 16 := 1; let s := served fun d => (let d := d.put (strBase q) .PAT_STR_STAT_STATE (1); d); (s.d.strState q ∈ [1, 2, 3]) ∧ (s.d.dmaUp = true)) ∧
    (let q : Fin 16 := 1; let b := strBase q; let desc : BitVec 128 := (5193009911997456007568838224789504 : BitVec 128); let s := served fun d => (let d := d.put b .PAT_STR_STAT_STATE 1; let d := d.setb b .PAT_STR_CTRL_EN true; let d := d.put b .PAT_STR_CTRL_CTX 100; let d := d.put b .PAT_STR_PROD_PROD 2; let d := d.put (strBase q) .PAT_STR_STAT_STATE (1); let d := d.put (strBase q) .PAT_STR_PROD_PROD ((d.get (strBase q) .PAT_STR_CONS_CONS) + 1); d); (s.d.strState q ∈ [1, 2, 3]) ∧ (s.d.dmaUp = true) ∧ (s.d.strm q = none) ∧ (s.d.get b .PAT_STR_PROD_PROD ≠ s.d.get b .PAT_STR_CONS_CONS) ∧ (readDesc desc.toNat = none)) ∧
    (let q : Fin 16 := 1; let b := strBase q; let s := served fun d => (let d := d.put b .PAT_STR_STAT_STATE 1; let d := d.setb b .PAT_STR_CTRL_EN true; let d := d.put b .PAT_STR_CTRL_CTX 100; d); (s.d.strState q ∈ [1, 2, 3]) ∧ (s.d.dmaUp = true) ∧ (s.d.strm q = none) ∧ (s.d.get b .PAT_STR_PROD_PROD = s.d.get b .PAT_STR_CONS_CONS)) ∧
    (let q : Fin 16 := 1; let b := strBase q; let t : SDesc := ({ addr := 0x4000, left := 3, tag := 9, irq := true } : SDesc); let h : Hdr := ({ base := 0x10000, slots := 1, tv := 5000, granBytes := 64, symOff := 0x800, symCount := 8 } : Hdr); let s := served fun d => (let d := d.put b .PAT_STR_STAT_STATE 1; let d := d.setb b .PAT_STR_CTRL_EN true; let d := d.put b .PAT_STR_CTRL_CTX 100; let d := d.setCx 100 { d.cx 100 with hdr := some ({ base := 0x10000, slots := 1, tv := 5000, granBytes := 64, symOff := 0x800, symCount := 8 } : Hdr) }; let d := d.put b .PAT_STR_SLOTS_N 8; let d := d.put b .PAT_STR_GLO_GLO 2; let d := d.setStrm q (some t); d); (s.d.dmaUp = true) ∧ ((s.d.cx (s.d.get b .PAT_STR_CTRL_CTX)).hdr = some h) ∧ (t.left ≠ 0) ∧ (s.d.strP q < s.d.strF q + s.d.get b .PAT_STR_SLOTS_N) ∧ (s.d.strP q + 1 < 2 ^ 64) ∧ (s.d.strState q ∈ [1, 2, 3]) ∧ (s.d.strm q = some t)) ∧
    (let q : Fin 16 := 1; let b := strBase q; let desc : BitVec 128 := (5193009911997511347801059353444352 : BitVec 128); let t : SDesc := ({ addr := 0x4000, left := 3, tag := 9, irq := true } : SDesc); let h : Hdr := ({ base := 0x10000, slots := 1, tv := 5000, granBytes := 64, symOff := 0x800, symCount := 8 } : Hdr); let s := served fun d => (let d := d.put b .PAT_STR_STAT_STATE 1; let d := d.setb b .PAT_STR_CTRL_EN true; let d := d.put b .PAT_STR_CTRL_CTX 100; let d := d.setCx 100 { d.cx 100 with hdr := some ({ base := 0x10000, slots := 1, tv := 5000, granBytes := 64, symOff := 0x800, symCount := 8 } : Hdr) }; let d := d.put b .PAT_STR_SLOTS_N 8; let d := d.put b .PAT_STR_GLO_GLO 2; let d := d.put b .PAT_STR_PROD_PROD 2; d); (s.d.dmaUp = true) ∧ ((s.d.cx (s.d.get b .PAT_STR_CTRL_CTX)).hdr = some h) ∧ (t.left ≠ 0) ∧ (s.d.strP q < s.d.strF q + s.d.get b .PAT_STR_SLOTS_N) ∧ (s.d.strP q + 1 < 2 ^ 64) ∧ (s.d.strState q ∈ [1, 2, 3]) ∧ (s.d.strm q = none) ∧ (s.d.get b .PAT_STR_PROD_PROD ≠ s.d.get b .PAT_STR_CONS_CONS) ∧ (readDesc desc.toNat = some t)) ∧
    (let q : Fin 16 := 1; let b := strBase q; let t : SDesc := ({ addr := 0x4000, left := 3, tag := 9, irq := true } : SDesc); let h : Hdr := ({ base := 0x10000, slots := 1, tv := 5000, granBytes := 64, symOff := 0x800, symCount := 8 } : Hdr); let s := served fun d => (let d := d.put b .PAT_STR_STAT_STATE 1; let d := d.setb b .PAT_STR_CTRL_EN true; let d := d.put b .PAT_STR_CTRL_CTX 100; let d := d.setCx 100 { d.cx 100 with hdr := some ({ base := 0x10000, slots := 1, tv := 5000, granBytes := 64, symOff := 0x800, symCount := 8 } : Hdr) }; let d := d.put b .PAT_STR_SLOTS_N 8; let d := d.put b .PAT_STR_GLO_GLO 2; let d := d.put b .PAT_STR_STAT_STATE 2; let d := d.setStrm q (some t); d); (s.d.dmaUp = true) ∧ ((s.d.cx (s.d.get b .PAT_STR_CTRL_CTX)).hdr = some h) ∧ (t.left ≠ 0) ∧ (s.d.strP q < s.d.strF q + s.d.get b .PAT_STR_SLOTS_N) ∧ (s.d.strP q + 1 < 2 ^ 64) ∧ (s.d.strState q = 2) ∧ (s.d.strm q = some t)) ∧
    (let q : Fin 16 := 1; let t := ({ addr := 0x4000, left := 0, tag := 9, irq := true } : SDesc); let s := served fun d => (let d := d.setStrm q (some t); d); (s.d.strm q = some t) ∧ (t.left = 0)) := by
  refine ⟨?_, ?_, ?_, ?_, ?_, ?_, ?_, ?_, ?_, ?_, ?_, ?_⟩ <;> (try dsimp only [Dev.recorded, State.walkAt, Dev.atRoutine, Dev.atWord]) <;> decide +kernel

/-- States and operands that meet the hypotheses of clauses of `Obligations.LoadStrobes`. -/
theorem witness_LoadStrobes :
    (let n : Fin 32 := 3; let b := wfgBase n; let own := fun (src : Fin 5) (c : Option (Fin 1024)) => if src = 0 then (c.map (fun c => c.val)).toList else []; let src : Fin 5 := 1; let c : Option (Fin 1024) := (none : Option (Fin 1024)); let s := served fun d => (let d := d.setWord (b + 0xF00) 0x1F; d); let on := fun (i : Nat) => bitOf (s.d.word (b + 0xF00)) i; ((∀ t : Fin 8, s.d.txnWaits t 1 = false)) ∧ (s.d.present n = true) ∧ (on src = true) ∧ (s.d.stbHolds n = false) ∧ (s.d.stbJoin n (2 ^ src.val) (own src c) = none)) ∧
    (let n : Fin 32 := 3; let b := wfgBase n; let own := fun (src : Fin 5) (c : Option (Fin 1024)) => if src = 0 then (c.map (fun c => c.val)).toList else []; let src : Fin 5 := 4; let c : Option (Fin 1024) := (none : Option (Fin 1024)); let s := served fun d => (let d := d.setWord (b + 0xF00) 0x1F; let d := d.setClu n { d.clu n with cyc := some { t := d.time, src := 2, fired := [], ctxs := [] } }; d); let on := fun (i : Nat) => bitOf (s.d.word (b + 0xF00)) i; let y := ({ t := s.d.time, src := 2, fired := [], ctxs := [] } : StbCyc); ((∀ t : Fin 8, s.d.txnWaits t 1 = false)) ∧ (s.d.present n = true) ∧ (on src = true) ∧ (s.d.stbHolds n = false) ∧ (s.d.stbJoin n (2 ^ src.val) (own src c) = some y)) ∧
    (let n : Fin 32 := 3; let b := wfgBase n; let src : Fin 5 := 1; let s := served fun d => (let d := d.setWord (b + 0xF00) 0x1F; let d := d.put (pwrCl n) .PWR_CL_STAT_STATE 2; d); let on := fun (i : Nat) => bitOf (s.d.word (b + 0xF00)) i; ((∀ t : Fin 8, s.d.txnWaits t 1 = false)) ∧ (s.d.present n = true) ∧ (on src = true) ∧ (s.d.stbHolds n = true) ∧ ((∀ k ∈ [2 * n.val, 2 * n + 1], s.d.dpsLeader k ≠ some k))) ∧
    (let n : Fin 32 := 3; let b := wfgBase n; let src : Fin 5 := 1; let s := served fun d => (let d := d.setWord (b + 0xF00) 0; d); let on := fun (i : Nat) => bitOf (s.d.word (b + 0xF00)) i; ((∀ t : Fin 8, s.d.txnWaits t 1 = false)) ∧ (s.d.present n = true) ∧ (on src = false)) ∧
    (let n : Fin 32 := 3; let b := wfgBase n; let p : HPort := .pcie; let s : State := served; let on := fun (i : Nat) => bitOf (s.d.word (b + 0xF00)) i; ((∀ t : Fin 8, s.d.txnWaits t 1 = false)) ∧ (s.d.present n = true) ∧ (s.d.reaches p (b + 0xF04) = true) ∧ (on 1 = true) ∧ (s.d.stbHolds n = false) ∧ (s.d.stbJoin n 2 [] = none)) ∧
    (let n : Fin 32 := 3; let h := ({ src := 2, ctxs := [], t := 5 } : HeldStb); let s := served fun d => (let d := d.setClu n { d.clu n with held := (some h) }; d); ((∀ t : Fin 8, s.d.txnWaits t 1 = false)) ∧ (s.d.present n = true) ∧ ((s.d.dp (2 * n)).held = none) ∧ ((s.d.dp (2 * n + 1)).held = none) ∧ ((s.d.clu n).held = some h) ∧ (s.d.stbHolds n = false)) ∧
    (let n : Fin 32 := 3; let s : State := served; ((∀ t : Fin 8, s.d.txnWaits t 1 = false)) ∧ (s.d.present n = true) ∧ (s.d.clkState = 2)) := by
  refine ⟨?_, ?_, ?_, ?_, ?_, ?_, ?_⟩ <;> (try dsimp only [Dev.recorded, State.walkAt, Dev.atRoutine, Dev.atWord]) <;> decide +kernel

/-- States and operands that meet the hypotheses of clauses of `Obligations.Patches`. -/
theorem witness_Patches :
    (let n : Fin 32 := 3; let b := ucsBase n; let p : HPort := .pcie; let s : State := served; (s.d.reaches p (b + 0x40) = true) ∧ (s.d.bit b .UCS_PATCH_CTRL_LOCK = false) ∧ (s.d.lcsState ≠ 4)) ∧
    (let n : Fin 32 := 3; let b := ucsBase n; let p : HPort := .pcie; let s := served fun d => (let d := d.put lcsB .LCS_STATE_STATE (4); d); (s.d.reaches p (b + 0x40) = true) ∧ (s.d.bit b .UCS_PATCH_CTRL_LOCK = false) ∧ (s.d.lcsState = 4) ∧ (s.d.clkState ≠ 3)) ∧
    (let n : Fin 32 := 3; let b := ucsBase n; let p : HPort := .pcie; let s := served fun d => (let d := d.setb (ucsBase n) .UCS_PATCH_CTRL_LOCK true; d); (s.d.reaches p (b + 0x40) = true) ∧ (s.d.bit b .UCS_PATCH_CTRL_LOCK = true)) ∧
    (let n : Fin 32 := 3; let b := ucsBase n; let s := served fun d => (let d := d.setb (ucsBase n) .UCS_PATCH_STAT_LOCK_PEND true; d); (s.d.bit b .UCS_PATCH_STAT_LOCK_PEND = true) ∧ ((∀ i : Fin 32, s.d.ctxOwning (32 * n.val + i.val) = false)) ∧ (s.d.running n = none) ∧ (s.d.lcsState ≠ 4)) ∧
    (let n : Fin 32 := 3; let b := ucsBase n; let i : Fin 32 := 1; let s := served fun d => (let d := d.put (ctxBase (32 * n.val + i.val)) .CTX_STATE_STATE 3; let d := d.setb (ucsBase n) .UCS_PATCH_STAT_LOCK_PEND true; d); (s.d.bit b .UCS_PATCH_STAT_LOCK_PEND = true) ∧ (s.d.ctxOwning (32 * n.val + i.val) = true)) ∧
    (let n : Fin 32 := 3; let b := ucsBase n; let p : HPort := .pcie; let a : BitVec 17 := 0x100; let s := served fun d => (let d := d.setb b .UCS_PATCH_CTRL_BCAST_EN true; d); (a.toNat % 4 = 0) ∧ (a.toNat < 0x1080) ∧ (s.d.reaches p (0x60000 + a.toNat) = true)) ∧
    (let a : BitVec 17 := 0x100; let k := (5 : Nat); let s := served fun d => (let d := (d.put txnB .TXN_CAPTURE_SLOT 5).setb txnB .TXN_CAPTURE_EN true; let d := d.put (txnReg 5) .TXN_STAT_STATE 1; d); (a.toNat % 4 = 0) ∧ (a.toNat < 0x1080) ∧ (s.d.pcieOk = true) ∧ (s.d.capSlot = some k) ∧ ((s.d.slot k).writes.length < 4096)) ∧
    (let n : Fin 32 := 3; let b := ucsBase n; let a : BitVec 17 := 0x100; let v : Word := 0x12345; let k : Fin 8 := 5; let s := served fun d => (let d := d.put (txnReg k) .TXN_STAT_STATE (2); let d := d.setSlot k { d.slot k with writes := [(0x60000 + a.toNat, 2 ^ 32 - 1, v.toNat)] }; let d := d.setb (ucsBase n) .UCS_PATCH_CTRL_BCAST_EN true; let d := d.setb (ucsBase n) .UCS_PATCH_STAT_LOCKED true; d); (a.toNat % 4 = 0) ∧ (a.toNat < 0x1080) ∧ (s.d.txnState k = 2) ∧ ((s.d.slot k).point = 0) ∧ ((s.d.slot k).writes = [(0x60000 + a.toNat, 2 ^ 32 - 1, v.toNat)]) ∧ (s.d.txnBlocked k = false) ∧ (a.toNat < 0x1000) ∧ (s.d.present n = true) ∧ (s.d.bit b .UCS_PATCH_CTRL_BCAST_EN = true) ∧ (s.d.bit b .UCS_PATCH_STAT_LOCKED = true)) := by
  refine ⟨?_, ?_, ?_, ?_, ?_, ?_, ?_, ?_⟩ <;> (try dsimp only [Dev.recorded, State.walkAt, Dev.atRoutine, Dev.atWord]) <;> decide +kernel

/-- States and operands that meet the hypotheses of clauses of `Obligations.RasterEngine`. -/
theorem witness_RasterEngine :
    (let p : HPort := .pcie; let v := (1 : Word); let s := served fun d => (let d := d.put rasB .RAS_T_HACT_ACTIVE 640; let d := d.put rasB .RAS_T_HACT_TOTAL 800; let d := d.put rasB .RAS_T_HSYNC_START 656; let d := d.put rasB .RAS_T_HSYNC_WIDTH 96; let d := d.put rasB .RAS_T_VACT_ACTIVE 480; let d := d.put rasB .RAS_T_VACT_TOTAL 525; let d := d.put rasB .RAS_T_VSYNC_START 490; let d := d.put rasB .RAS_T_VSYNC_WIDTH 2; let d := d.put rasB .RAS_T_CLK_MUL 1; let d := d.put rasB .RAS_T_CLK_DIV 1; d); let st := s.d.get rasB .PG_STAT_STATE; let shadow := s.d.put rasB .RAS_CTRL_GROUP (v.toNat % 4); (s.d.reaches p (rasB + 0x40) = true) ∧ (s.d.bit rasB .RAS_CTRL_EN = false) ∧ (st = 0) ∧ (shadow.rasCheck = none)) ∧
    (let p : HPort := .pcie; let v := (1 : Word); let c := (3 : Nat); let s : State := served; let st := s.d.get rasB .PG_STAT_STATE; let shadow := s.d.put rasB .RAS_CTRL_GROUP (v.toNat % 4); (s.d.reaches p (rasB + 0x40) = true) ∧ (s.d.bit rasB .RAS_CTRL_EN = false) ∧ (st = 0) ∧ (shadow.rasCheck = some c)) ∧
    (let p : HPort := .pcie; let s := served fun d => (let d := d.setb rasB .RAS_CTRL_EN true; let d := { d with ras := { d.ras with inFrame := true } }; d); let r := s.d.ras; (s.d.reaches p (rasB + 0x40) = true) ∧ (s.d.bit rasB .RAS_CTRL_EN = true) ∧ (r.inFrame = true)) ∧
    (let p : HPort := .pcie; let s := served fun d => (let d := d.setb rasB .RAS_CTRL_EN true; d); let r := s.d.ras; (s.d.reaches p (rasB + 0x40) = true) ∧ (s.d.bit rasB .RAS_CTRL_EN = true) ∧ (r.inFrame = false)) ∧
    (let p : HPort := .pcie; let s := served fun d => (let d := d.put rasB .RAS_T_HACT_ACTIVE 640; let d := d.put rasB .RAS_T_HACT_TOTAL 800; let d := d.put rasB .RAS_T_HSYNC_START 656; let d := d.put rasB .RAS_T_HSYNC_WIDTH 96; let d := d.put rasB .RAS_T_VACT_ACTIVE 480; let d := d.put rasB .RAS_T_VACT_TOTAL 525; let d := d.put rasB .RAS_T_VSYNC_START 490; let d := d.put rasB .RAS_T_VSYNC_WIDTH 2; let d := d.put rasB .RAS_T_CLK_MUL 1; let d := d.put rasB .RAS_T_CLK_DIV 1; let d := d.setb rasB .RAS_CTRL_EN true; let d := d.put rasB .PG_STAT_STATE 1; let d := d.put rasB .PG_STAT_STATE ((0) + 1); d); let st := s.d.get rasB .PG_STAT_STATE; (s.d.reaches p (rasB + 0x58) = true) ∧ (st ≠ 0) ∧ (st ≠ 4) ∧ (s.d.rasCheck = none)) ∧
    (let p : HPort := .pcie; let c := (3 : Nat); let s := served fun d => (let d := d.setb rasB .RAS_CTRL_EN true; let d := d.put rasB .PG_STAT_STATE 1; d); let st := s.d.get rasB .PG_STAT_STATE; (s.d.reaches p (rasB + 0x58) = true) ∧ (st ≠ 0) ∧ (st ≠ 4) ∧ (s.d.rasCheck = some c)) ∧
    (let p : HPort := .pcie; let s : State := served; let st := s.d.get rasB .PG_STAT_STATE; (s.d.reaches p (rasB + 0x58) = true) ∧ (st = 0 ∨ st = 4)) ∧
    (let p : HPort := .pcie; let v := (1 : Word); let s := served fun d => (let d := d.setWord (rasB + 0x100 + 8) (64 + 64 * 65536); let d := d.setWord (rasB + 0x100 + 40) 16; d); let r := s.d.ras; (s.d.reaches p (rasB + 0x5C) = true) ∧ (r.pend.length = 2) ∧ (r.flipT.length = 2) ∧ ((∀ i, i < 2 → bitOf v.toNat i = true → layerOk (s.d.layerRegs i) = true))) ∧
    (let p : HPort := .pcie; let v := (1 : Word); let i := (0 : Nat); let s : State := served; let r := s.d.ras; (s.d.reaches p (rasB + 0x5C) = true) ∧ (r.pend.length = 2) ∧ (r.flipT.length = 2) ∧ (i < 2) ∧ (bitOf v.toNat i = true) ∧ (layerOk (s.d.layerRegs i) = false)) ∧
    (let p : HPort := .pcie; let e := (0x500000007 : Nat); let es := ([] : List Nat); let s := served fun d => (let d := { d with ras := { d.ras with frames := e :: es } }; d); let r := s.d.ras; (s.d.reaches p (rasB + 0x60) = true) ∧ (r.frames = e :: es)) ∧
    (let p : HPort := .pcie; let s : State := served; let r := s.d.ras; (s.d.reaches p (rasB + 0x60) = true) ∧ (r.frames = [])) ∧
    (let p : HPort := .pcie; let e := (0x500000007 : Nat); let es := ([] : List Nat); let s := served fun d => (let d := { d with ras := { d.ras with rels := e :: es } }; d); let r := s.d.ras; (s.d.reaches p (rasB + 0x68) = true) ∧ (r.rels = e :: es)) ∧
    (let p : HPort := .pcie; let s : State := served; let r := s.d.ras; (s.d.reaches p (rasB + 0x68) = true) ∧ (r.rels = [])) ∧
    (let s := served fun d => (let d := d.setb rasB .RAS_CTRL_EN true; let d := d.put rasB .PG_STAT_STATE 1; let d := d.setb rasB .RAS_CTRL_EN true; let d := d.put rasB .PG_STAT_STATE (1); d); let r := s.d.ras; let st := s.d.get rasB .PG_STAT_STATE; (s.d.bit rasB .RAS_CTRL_EN = true) ∧ ((st = 1 ∨ st = 2)) ∧ (r.inFrame = false) ∧ (r.relock = false) ∧ (r.applyT = []) ∧ ((s.d.bit rasB .RAS_A_T_CLK_SRC = true → s.d.bit (vpBase (2 * r.group)) .CLK_VP_STAT_LOCKED = true))) ∧
    (let l := ([1, 2] : List Nat); let s := served fun d => (let d := d.setb rasB .RAS_CTRL_EN true; let d := d.put rasB .PG_STAT_STATE 1; let d := { d with time := 10000000 }; let d := { d with ras := { d.ras with pend := [some l, none], front := [[], []] } }; let d := d.put rasB .RAS_A_T_CLK_MUL 1; let d := d.put rasB .RAS_A_T_CLK_DIV 1; d); let r := s.d.ras; let st := s.d.get rasB .PG_STAT_STATE; (s.d.bit rasB .RAS_CTRL_EN = true) ∧ ((st = 1 ∨ st = 2)) ∧ (r.inFrame = false) ∧ (r.relock = false) ∧ (r.applyT = []) ∧ ((s.d.bit rasB .RAS_A_T_CLK_SRC = true → s.d.bit (vpBase (2 * r.group)) .CLK_VP_STAT_LOCKED = true)) ∧ (r.pend = [some l, none]) ∧ (s.d.ras64 (r.flipT.getD 0 0) = true) ∧ (r.front.length = 2)) ∧
    (let l := ([1, 2] : List Nat); let s := served fun d => (let d := d.setb rasB .RAS_CTRL_EN true; let d := d.put rasB .PG_STAT_STATE 1; let d := d.put rasB .RAS_A_T_CLK_DIV 1; let d := { d with ras := { d.ras with pend := [some l, none], front := [[], []] } }; d); let r := s.d.ras; let st := s.d.get rasB .PG_STAT_STATE; (s.d.bit rasB .RAS_CTRL_EN = true) ∧ ((st = 1 ∨ st = 2)) ∧ (r.inFrame = false) ∧ (r.relock = false) ∧ (r.applyT = []) ∧ ((s.d.bit rasB .RAS_A_T_CLK_SRC = true → s.d.bit (vpBase (2 * r.group)) .CLK_VP_STAT_LOCKED = true)) ∧ (r.pend = [some l, none]) ∧ (s.d.ras64 (r.flipT.getD 0 0) = false)) ∧
    (let s : State := served; let r := s.d.ras; let st := s.d.get rasB .PG_STAT_STATE; (s.d.bit rasB .RAS_CTRL_EN = false ∨ st = 0 ∨ st = 4 ∨ r.inFrame = true ∨ r.relock = true)) ∧
    (let s := served fun d => (let d := d.setb rasB .RAS_CTRL_EN true; let d := d.put rasB .PG_STAT_STATE 1; let d := { d with ras := { d.ras with relock := true } }; let d := d.put rasB .PG_STAT_STATE ((0) + 1); d); let r := s.d.ras; let st := s.d.get rasB .PG_STAT_STATE; (r.relock = true) ∧ (st ≠ 0)) ∧
    (let s : State := served; let r := s.d.ras; (r.relock = false)) ∧
    (let s := served fun d => (let d := d.put rasB .RAS_A_T_VACT_ACTIVE 480; let d := d.put rasB .RAS_A_T_HACT_ACTIVE 4; let d := { d with ras := { d.ras with inFrame := true } }; d); let r := s.d.ras; (r.inFrame = true) ∧ (bitOf r.flags 3 = false) ∧ (r.line < s.d.get rasB .RAS_A_T_VACT_ACTIVE) ∧ (s.d.armed 0x0D 0 0 = false) ∧ (s.d.armed 0x0B 0 0 = false)) ∧
    (let s : State := served; let r := s.d.ras; (r.inFrame = false ∨ bitOf r.flags 3 = true ∨ s.d.get rasB .RAS_A_T_VACT_ACTIVE ≤ r.line)) ∧
    (let s := served fun d => (let d := { d with ras := { d.ras with inFrame := true, flags := 8 } }; let d := { d with ras := { d.ras with inFrame := true } }; d); let r := s.d.ras; (r.inFrame = true) ∧ ((bitOf r.flags 3 = true ∨ s.d.get rasB .RAS_A_T_VACT_ACTIVE ≤ r.line)) ∧ (r.rects = []) ∧ (r.closing = false)) ∧
    (let s := served fun d => (let d := { d with ras := { d.ras with inFrame := true, flags := 8 } }; let d := { d with ras := { d.ras with inFrame := true } }; let d := { d with ras := { d.ras with closing := true } }; d); let r := s.d.ras; (r.inFrame = true) ∧ ((bitOf r.flags 3 = true ∨ s.d.get rasB .RAS_A_T_VACT_ACTIVE ≤ r.line)) ∧ (r.rects = []) ∧ (r.closing = true)) ∧
    (let s := served fun d => (let d := d.put rasB .RAS_A_T_VACT_ACTIVE 480; let d := { d with ras := { d.ras with inFrame := true } }; let d := { d with ras := { d.ras with inFrame := true } }; let d := d.put rasB .RAS_A_T_VACT_ACTIVE (d.ras.line + 1); d); let r := s.d.ras; (r.inFrame = true) ∧ (bitOf r.flags 3 = false) ∧ (r.line < s.d.get rasB .RAS_A_T_VACT_ACTIVE)) := by
  refine ⟨?_, ?_, ?_, ?_, ?_, ?_, ?_, ?_, ?_, ?_, ?_, ?_, ?_, ?_, ?_, ?_, ?_, ?_, ?_, ?_, ?_, ?_, ?_, ?_⟩ <;> (try dsimp only [Dev.recorded, State.walkAt, Dev.atRoutine, Dev.atWord]) <;> decide +kernel

/-- States and operands that meet the hypotheses of clauses of `Obligations.LinkPorts`. -/
theorem witness_LinkPorts :
    (let p := HPort.pcie; let s : State := served; (s.d.reaches p (mslB + 0x40) = true) ∧ (s.d.bit mslB .MSL_CTRL_EN = false)) ∧
    (let s := served fun d => (let d := d.setb mslB .MSL_CTRL_EN true; d); (s.d.bit mslB .MSL_CTRL_EN = true) ∧ (s.d.bit mslB .MSL_STAT_IS_ROOT = false) ∧ (s.d.get mslB .MSL_CTRL_ROLE ≠ 1) ∧ (s.d.get mslB .MSL_CTRL_ROLE ≠ 2) ∧ (s.d.lnk.up0 = false)) ∧
    (let s := served fun d => (let d := d.setb mslB .MSL_CTRL_EN true; let d := { d with lnk := { d.lnk with up0 := true } }; d); (s.d.bit mslB .MSL_CTRL_EN = true) ∧ (s.d.bit mslB .MSL_STAT_IS_ROOT = false) ∧ (s.d.get mslB .MSL_CTRL_ROLE ≠ 1) ∧ (s.d.get mslB .MSL_CTRL_ROLE ≠ 2) ∧ (s.d.lnk.up0 = true)) ∧
    (let q : Fin 4 := 1; let b := portB q; let s := served fun d => (let d := d.setb mslB .MSL_CTRL_EN true; d); let st := s.d.portState q; (s.d.bit mslB .MSL_CTRL_EN = true) ∧ (s.d.bit b .MSL_PORT_CTRL_EN = true) ∧ (st = 0)) ∧
    (let q : Fin 4 := 1; let s := served fun d => (let d := d.put (portB q) .MSL_PORT_STAT_STATE (0 + 1); d); let st := s.d.portState q; (st ≠ 0)) ∧
    (let q : Fin 4 := 1; let s := served fun d => (let d := d.put (portB q) .MSL_PORT_STAT_STATE (1); d); let st := s.d.portState q; (st = 1)) ∧
    (let q : Fin 4 := 1; let s : State := served; let st := s.d.portState q; (st ≠ 1)) ∧
    (let q : Fin 4 := 1; let b := portB q; let s := served fun d => (let d := d.put (portB q) .MSL_PORT_STAT_STATE (2); d); let st := s.d.portState q; ((st = 2 ∨ st = 3)) ∧ (s.d.get b .MSL_PORT_STAT_CONSEC < 15)) ∧
    (let q : Fin 4 := 1; let b := portB q; let s := served fun d => (let d := d.put (portB q) .MSL_PORT_STAT_STATE (2); let d := d.put (portB q) .MSL_PORT_STAT_CONSEC (15); d); let st := s.d.portState q; ((st = 2 ∨ st = 3)) ∧ (15 ≤ s.d.get b .MSL_PORT_STAT_CONSEC)) ∧
    (let q : Fin 4 := 1; let s : State := served; let st := s.d.portState q; (st = 0 ∨ st = 4 ∨ st = 5)) ∧
    (let q : Fin 4 := 1; let s := served fun d => (let d := d.put (portB q) .MSL_PORT_STAT_STATE (4); d); let st := s.d.portState q; (st = 4)) ∧
    (let q : Fin 4 := 1; let s : State := served; let st := s.d.portState q; (st ≠ 4)) ∧
    (let q : Fin 4 := 1; let p := HPort.pcie; let s := served fun d => (let d := d.put (portB q) .MSL_PORT_STAT_STATE (5); d); let st := s.d.portState q; (s.d.reaches p (mslPort q) = true) ∧ (st = 5)) ∧
    (let q : Fin 4 := 1; let p := HPort.pcie; let s := served fun d => (let d := d.setb mslB .MSL_CTRL_EN true; let d := d.put (portB q) .MSL_PORT_STAT_STATE (3); d); let st := s.d.portState q; (s.d.reaches p (mslPort q) = true) ∧ (st = 3)) ∧
    (let q : Fin 4 := 1; let s := served fun d => (let d := d.put (portB q) .MSL_PORT_STAT_STATE (0 + 1); d); let st := s.d.portState q; (st ≠ 0) ∧ (st ≠ 5)) ∧
    (let q : Fin 4 := 1; let s : State := served; let st := s.d.portState q; (st = 0 ∨ st = 5)) ∧
    (let s := served fun d => (let d := d.setb mslB .MSL_CTRL_EN true; let d := d.put (portB 0) .MSL_PORT_STAT_STATE (3); d); (s.d.bit mslB .MSL_CTRL_EN = true) ∧ (s.d.bit mslB .MSL_STAT_IS_ROOT = false) ∧ (s.d.portState 0 = 3)) ∧
    (let s : State := served; (s.d.portState 0 ≠ 3)) ∧
    (let ppb : BitVec 32 := (20 : BitVec 32); let s := served fun d => (let d := d.setLport 0 { d.lport 0 with xN := 16, xD := 3200, xE := 160 }; let d := d.setLport 0 { d.lport 0 with xN := 16 }; let d := d.put (portB 0) .MSL_PORT_STAT_STATE (3); d); ((s.d.lport 0).xN = 16) ∧ ((s.d.lport 0).xD % 32 = 0) ∧ ((s.d.lport 0).xE % 16 = 0) ∧ (ppb.toInt.natAbs ≤ 100) ∧ (s.d.portState 0 = 3)) ∧
    (let s : State := served; ((s.d.lport 0).xN ≠ 16)) := by
  refine ⟨?_, ?_, ?_, ?_, ?_, ?_, ?_, ?_, ?_, ?_, ?_, ?_, ?_, ?_, ?_, ?_, ?_, ?_, ?_, ?_⟩ <;> (try dsimp only [Dev.recorded, State.walkAt, Dev.atRoutine, Dev.atWord]) <;> decide +kernel

/-- States and operands that meet the hypotheses of clauses of `Obligations.LinkMessages`. -/
theorem witness_LinkMessages :
    (let q : Fin 4 := 1; let w : BitVec 128 := (BitVec.ofNat 128 ({ kind := 0, seq := 0, num := 0, time := 0, arg := 0 } : Msg).word); let m := readMsg w.toNat; let s := served fun d => (let d := d.setb mslB .MSL_CTRL_EN true; let d := d.put (portB q) .MSL_PORT_STAT_STATE 3; let d := d.setb (portB q) .MSL_PORT_CTRL_EN true; d); let x := s.d.lport q; let good := fun (kind : Nat) => msgCrc w.toNat = w.toNat % 2 ^ 16 ∧ m.kind = kind ∧ (kindSeq kind = true → m.seq = x.rxSeq) ∧ s.d.portState q = 3; (good 0)) ∧
    (let q : Fin 4 := 1; let w : BitVec 128 := (BitVec.ofNat 128 ({ kind := 1, seq := 0, num := 0, time := 0, arg := 9 } : Msg).word); let m := readMsg w.toNat; let y := ({ kind := 5, seq := 9, num := 0, time := 0, arg := 3 } : Msg); let ys := ([] : List Msg); let s := served fun d => (let d := d.setb mslB .MSL_CTRL_EN true; let d := d.put (portB q) .MSL_PORT_STAT_STATE 3; let d := d.setb (portB q) .MSL_PORT_CTRL_EN true; let d := d.setLport q { d.lport q with unack := y :: ys }; d); let x := s.d.lport q; let good := fun (kind : Nat) => msgCrc w.toNat = w.toNat % 2 ^ 16 ∧ m.kind = kind ∧ (kindSeq kind = true → m.seq = x.rxSeq) ∧ s.d.portState q = 3; (good 1) ∧ (x.unack = y :: ys) ∧ (y.seq = m.arg % 256)) ∧
    (let q : Fin 4 := 1; let w : BitVec 128 := (BitVec.ofNat 128 ({ kind := 2, seq := 0, num := 0, time := 0, arg := 0 } : Msg).word); let m := readMsg w.toNat; let s := served fun d => (let d := d.setb mslB .MSL_CTRL_EN true; let d := d.put (portB q) .MSL_PORT_STAT_STATE 3; let d := d.setb (portB q) .MSL_PORT_CTRL_EN true; d); let x := s.d.lport q; let good := fun (kind : Nat) => msgCrc w.toNat = w.toNat % 2 ^ 16 ∧ m.kind = kind ∧ (kindSeq kind = true → m.seq = x.rxSeq) ∧ s.d.portState q = 3; (good 2)) ∧
    (let q : Fin 4 := 1; let w : BitVec 128 := (BitVec.ofNat 128 ({ kind := 3, seq := 0, num := 0, time := 0, arg := 0 } : Msg).word); let m := readMsg w.toNat; let s := served fun d => (let d := d.setb mslB .MSL_CTRL_EN true; let d := d.put (portB q) .MSL_PORT_STAT_STATE 3; let d := d.setb (portB q) .MSL_PORT_CTRL_EN true; d); let x := s.d.lport q; let good := fun (kind : Nat) => msgCrc w.toNat = w.toNat % 2 ^ 16 ∧ m.kind = kind ∧ (kindSeq kind = true → m.seq = x.rxSeq) ∧ s.d.portState q = 3; (good 3) ∧ (q ≠ 0)) ∧
    (let q : Fin 4 := 0; let w : BitVec 128 := (BitVec.ofNat 128 ({ kind := 4, seq := 0, num := 0, time := 0, arg := 50 } : Msg).word); let m := readMsg w.toNat; let t1 := (1000 : Nat); let s := served fun d => (let d := d.setb mslB .MSL_CTRL_EN true; let d := d.put (portB q) .MSL_PORT_STAT_STATE 3; let d := d.setb (portB q) .MSL_PORT_CTRL_EN true; let d := d.setLport q { d.lport q with t1 := some t1 }; let d := { d with time := 5000 }; d); let x := s.d.lport q; let good := fun (kind : Nat) => msgCrc w.toNat = w.toNat % 2 ^ 16 ∧ m.kind = kind ∧ (kindSeq kind = true → m.seq = x.rxSeq) ∧ s.d.portState q = 3; (good 4) ∧ (q = 0) ∧ (x.t1 = some t1) ∧ (x.single = false)) ∧
    (let q : Fin 4 := 0; let w : BitVec 128 := (BitVec.ofNat 128 ({ kind := 5, seq := 0, num := 0, time := 5000, arg := 12 } : Msg).word); let m := readMsg w.toNat; let s := served fun d => (let d := d.setb mslB .MSL_CTRL_EN true; let d := d.put (portB q) .MSL_PORT_STAT_STATE 3; let d := d.setb (portB q) .MSL_PORT_CTRL_EN true; d); let x := s.d.lport q; let good := fun (kind : Nat) => msgCrc w.toNat = w.toNat % 2 ^ 16 ∧ m.kind = kind ∧ (kindSeq kind = true → m.seq = x.rxSeq) ∧ s.d.portState q = 3; (good 5) ∧ (q = 0) ∧ (m.time ≤ s.d.time + 2 ^ 31)) ∧
    (let q : Fin 4 := 1; let w : BitVec 128 := (BitVec.ofNat 128 ({ kind := 6, seq := 0, num := 3, time := 5000, arg := 0 } : Msg).word); let m := readMsg w.toNat; let s := served fun d => (let d := d.setb mslB .MSL_CTRL_EN true; let d := d.put (portB q) .MSL_PORT_STAT_STATE 3; let d := d.setb (portB q) .MSL_PORT_CTRL_EN true; d); let x := s.d.lport q; let good := fun (kind : Nat) => msgCrc w.toNat = w.toNat % 2 ^ 16 ∧ m.kind = kind ∧ (kindSeq kind = true → m.seq = x.rxSeq) ∧ s.d.portState q = 3; (good 6) ∧ (m.time ≤ s.d.time + 2 ^ 31) ∧ (s.d.lnk.trigs.any (fun e => e.num == m.num && e.eff == m.time) = false) ∧ ((m.num, m.time) ∉ s.d.lnk.acted)) ∧
    (let q : Fin 4 := 0; let w : BitVec 128 := (BitVec.ofNat 128 ({ kind := 7, seq := 0, num := 0, time := 0, arg := 0 } : Msg).word); let m := readMsg w.toNat; let s := served fun d => (let d := d.setb mslB .MSL_CTRL_EN true; let d := d.put (portB q) .MSL_PORT_STAT_STATE 3; let d := d.setb (portB q) .MSL_PORT_CTRL_EN true; d); let x := s.d.lport q; let good := fun (kind : Nat) => msgCrc w.toNat = w.toNat % 2 ^ 16 ∧ m.kind = kind ∧ (kindSeq kind = true → m.seq = x.rxSeq) ∧ s.d.portState q = 3; (good 7) ∧ (q = 0)) ∧
    (let q : Fin 4 := 1; let w : BitVec 128 := (BitVec.ofNat 128 ({ kind := 8, seq := 0, num := 5, time := 0, arg := 0 } : Msg).word); let m := readMsg w.toNat; let s := served fun d => (let d := d.setb mslB .MSL_CTRL_EN true; let d := d.put (portB q) .MSL_PORT_STAT_STATE 3; let d := d.setb (portB q) .MSL_PORT_CTRL_EN true; d); let x := s.d.lport q; let good := fun (kind : Nat) => msgCrc w.toNat = w.toNat % 2 ^ 16 ∧ m.kind = kind ∧ (kindSeq kind = true → m.seq = x.rxSeq) ∧ s.d.portState q = 3; (good 8) ∧ (q ≠ 0) ∧ (m.num < 8)) ∧
    (let q : Fin 4 := 0; let w : BitVec 128 := (BitVec.ofNat 128 ({ kind := 9, seq := 0, num := 5, time := 5000, arg := 65536 } : Msg).word); let m := readMsg w.toNat; let s := served fun d => (let d := d.setb mslB .MSL_CTRL_EN true; let d := d.put (portB q) .MSL_PORT_STAT_STATE 3; let d := d.setb (portB q) .MSL_PORT_CTRL_EN true; d); let x := s.d.lport q; let good := fun (kind : Nat) => msgCrc w.toNat = w.toNat % 2 ^ 16 ∧ m.kind = kind ∧ (kindSeq kind = true → m.seq = x.rxSeq) ∧ s.d.portState q = 3; (good 9) ∧ (q = 0) ∧ (m.num < 8) ∧ (m.time ≤ s.d.time + 2 ^ 31)) ∧
    (let q : Fin 4 := 1; let w : BitVec 128 := (BitVec.ofNat 128 ({ kind := 10, seq := 0, num := 0, time := 0, arg := 7 } : Msg).word); let m := readMsg w.toNat; let s := served fun d => (let d := d.setb mslB .MSL_CTRL_EN true; let d := d.put (portB q) .MSL_PORT_STAT_STATE 3; let d := d.setb (portB q) .MSL_PORT_CTRL_EN true; d); let x := s.d.lport q; let good := fun (kind : Nat) => msgCrc w.toNat = w.toNat % 2 ^ 16 ∧ m.kind = kind ∧ (kindSeq kind = true → m.seq = x.rxSeq) ∧ s.d.portState q = 3; (good 10) ∧ (q ≠ 0)) ∧
    (let q : Fin 4 := 0; let w : BitVec 128 := (BitVec.ofNat 128 ({ kind := 11, seq := 0, num := 0, time := 0, arg := 196613 } : Msg).word); let m := readMsg w.toNat; let s := served fun d => (let d := d.setb mslB .MSL_CTRL_EN true; let d := d.put (portB q) .MSL_PORT_STAT_STATE 3; let d := d.setb (portB q) .MSL_PORT_CTRL_EN true; d); let x := s.d.lport q; let good := fun (kind : Nat) => msgCrc w.toNat = w.toNat % 2 ^ 16 ∧ m.kind = kind ∧ (kindSeq kind = true → m.seq = x.rxSeq) ∧ s.d.portState q = 3; (good 11) ∧ (q = 0) ∧ (m.arg / 2 ^ 16 % 16 ≤ 9) ∧ (m.arg / 2 ^ 16 % 16 < 9 ∨ s.d.children = [])) ∧
    (let q : Fin 4 := 0; let w : BitVec 128 := (BitVec.ofNat 128 ({ kind := 11, seq := 0, num := 0, time := 0, arg := 655365 } : Msg).word); let m := readMsg w.toNat; let s := served fun d => (let d := d.setb mslB .MSL_CTRL_EN true; let d := d.put (portB q) .MSL_PORT_STAT_STATE 3; let d := d.setb (portB q) .MSL_PORT_CTRL_EN true; d); let x := s.d.lport q; let good := fun (kind : Nat) => msgCrc w.toNat = w.toNat % 2 ^ 16 ∧ m.kind = kind ∧ (kindSeq kind = true → m.seq = x.rxSeq) ∧ s.d.portState q = 3; (good 11) ∧ (q = 0) ∧ (9 < m.arg / 2 ^ 16 % 16 ∨ (m.arg / 2 ^ 16 % 16 = 9 ∧ s.d.children ≠ []))) ∧
    (let q : Fin 4 := 1; let w : BitVec 128 := (BitVec.ofNat 128 ({ kind := 12, seq := 0, num := 0, time := 0, arg := 0 } : Msg).word); let m := readMsg w.toNat; let s := served fun d => (let d := d.setb mslB .MSL_CTRL_EN true; let d := d.put (portB q) .MSL_PORT_STAT_STATE 1; let d := d.setb (portB q) .MSL_PORT_CTRL_EN true; let d := d.put (portB q) .MSL_PORT_STAT_STATE (1); d); (msgCrc w.toNat = w.toNat % 2 ^ 16) ∧ (m.kind = 12) ∧ (s.d.portState q = 1) ∧ (q ≠ 0) ∧ (bitOf m.arg 8 = false) ∧ (bitOf m.arg 9 = false)) ∧
    (let q : Fin 4 := 0; let w : BitVec 128 := (BitVec.ofNat 128 ({ kind := 12, seq := 0, num := 0, time := 0, arg := 256 } : Msg).word); let m := readMsg w.toNat; let s := served fun d => (let d := d.setb mslB .MSL_CTRL_EN true; let d := d.put (portB q) .MSL_PORT_STAT_STATE 1; let d := d.setb (portB q) .MSL_PORT_CTRL_EN true; let d := d.put (portB q) .MSL_PORT_STAT_STATE (1); d); (msgCrc w.toNat = w.toNat % 2 ^ 16) ∧ (m.kind = 12) ∧ (s.d.portState q = 1) ∧ (q = 0) ∧ (bitOf m.arg 8 = true) ∧ (s.d.get mslB .MSL_CTRL_ROLE ≠ 1)) ∧
    (let q : Fin 4 := 1; let w : BitVec 128 := (BitVec.ofNat 128 ({ kind := 12, seq := 0, num := 0, time := 0, arg := 256 } : Msg).word); let b := portB q; let m := readMsg w.toNat; let s := served fun d => (let d := d.setb mslB .MSL_CTRL_EN true; let d := d.put (portB q) .MSL_PORT_STAT_STATE 1; let d := d.setb (portB q) .MSL_PORT_CTRL_EN true; let d := d.put (portB q) .MSL_PORT_STAT_STATE (1); d); (msgCrc w.toNat = w.toNat % 2 ^ 16) ∧ (m.kind = 12) ∧ (s.d.portState q = 1) ∧ (q ≠ 0) ∧ (bitOf m.arg 8 = true) ∧ (s.d.get b .MSL_PORT_STAT_CONSEC < 15)) ∧
    (let q : Fin 4 := 1; let w : BitVec 128 := (BitVec.ofNat 128 (({ kind := 5, seq := 0, num := 0, time := 0, arg := 1 } : Msg).word + 1)); let b := portB q; let s := served fun d => (let d := d.setb mslB .MSL_CTRL_EN true; let d := d.put (portB q) .MSL_PORT_STAT_STATE 3; let d := d.setb (portB q) .MSL_PORT_CTRL_EN true; let d := d.put (portB q) .MSL_PORT_STAT_STATE (3); d); (msgCrc w.toNat ≠ w.toNat % 2 ^ 16) ∧ (s.d.portState q = 3) ∧ (s.d.get b .MSL_PORT_STAT_CONSEC < 15)) := by
  refine ⟨?_, ?_, ?_, ?_, ?_, ?_, ?_, ?_, ?_, ?_, ?_, ?_, ?_, ?_, ?_, ?_, ?_⟩ <;> (try dsimp only [Dev.recorded, State.walkAt, Dev.atRoutine, Dev.atWord]) <;> decide +kernel

/-- States and operands that meet the hypotheses of clauses of `Obligations.LinkEvents`. -/
theorem witness_LinkEvents :
    (let s := served fun d => (let d := d.setb mslB .MSL_CTRL_EN true; let d := d.setb mslB .MSL_STAT_IS_ROOT true; let d := d.setb (portB 0) .MSL_PORT_CTRL_EN false; let d := d.setb (portB 1) .MSL_PORT_CTRL_EN false; let d := d.setb (portB 2) .MSL_PORT_CTRL_EN false; let d := d.setb (portB 3) .MSL_PORT_CTRL_EN false; d); (s.d.mslOn = true) ∧ (s.d.isRoot = true) ∧ (s.d.allSized = true) ∧ ((∀ q ∈ [0, 1, 2, 3], s.d.bit (portB q) .MSL_PORT_CTRL_EN = true → s.d.portState q = 3 ∨ s.d.portState q = 5)) ∧ (s.d.subtree ≤ 16384)) ∧
    (let s := served fun d => (let d := d.setb mslB .MSL_CTRL_EN true; let d := d.setb mslB .MSL_STAT_IS_ROOT true; let d := d.put (portB 1) .MSL_PORT_STAT_STATE 3; let d := d.setLport 1 { d.lport 1 with sized := true }; let d := d.put (portB 1) .MSL_PORT_SUBTREE_DEVICES 20000; let d := d.setb (portB 0) .MSL_PORT_CTRL_EN false; let d := d.setb (portB 1) .MSL_PORT_CTRL_EN false; let d := d.setb (portB 2) .MSL_PORT_CTRL_EN false; let d := d.setb (portB 3) .MSL_PORT_CTRL_EN false; d); (s.d.mslOn = true) ∧ (s.d.isRoot = true) ∧ (s.d.allSized = true) ∧ ((∀ q ∈ [0, 1, 2, 3], s.d.bit (portB q) .MSL_PORT_CTRL_EN = true → s.d.portState q = 3 ∨ s.d.portState q = 5)) ∧ (16384 < s.d.subtree)) ∧
    (let s := served fun d => (let d := d.setb mslB .MSL_CTRL_EN true; let d := d.setb mslB .MSL_STAT_IS_ROOT false; d); (s.d.isRoot = false)) ∧
    (let p := HPort.pcie; let s : State := served; (s.d.reaches p (mslB + 0x60) = true) ∧ (s.d.isRoot = true)) ∧
    (let p := HPort.pcie; let s := served fun d => (let d := d.setb mslB .MSL_CTRL_EN true; let d := d.setb mslB .MSL_STAT_IS_ROOT false; d); (s.d.reaches p (mslB + 0x60) = true) ∧ (s.d.isRoot = false)) ∧
    (let s := served fun d => (let d := d.setb mslB .MSL_INDEX_CFG_TICK true; d); (s.d.clkState = 2) ∧ (s.d.isRoot = true) ∧ (s.d.bit mslB .MSL_INDEX_CFG_TICK = true) ∧ (s.d.bit mslB .MSL_INDEX_CFG_TD = false)) ∧
    (let s := served fun d => (let d := d.put clkB .PG_STAT_STATE (2 + 1); d); (s.d.clkState ≠ 2)) ∧
    (let e := ({ eff := 5000, num := 3 } : LEv); let s := served fun d => (let d := { d with lnk := { d.lnk with ticks := [e] } }; d); (s.d.lnk.ticks = [e]) ∧ (e.late = false) ∧ ((∀ i, i < 8 → s.d.txnState i = 3 → (s.d.slot i).writes = [] ∧ (s.d.slot i).waitT = none))) ∧
    (let s : State := served; (s.d.lnk.ticks = [])) ∧
    (let up := fun (t : Nat) => (t + 1023) / 1024 * 1024; let p : HPort := HPort.pcie; let v : Word := (1 : Word); let k := 0; let s : State := served; let lead := fun (f : Fld) => Nat.max 0xC80 (s.d.get mslB f) * 1024; let e : LEv := { eff := up s.d.time + lead .MSL_TRIG_LEAD_TICKS, num := k }; (s.d.reaches p (mslB + 0xA0) = true) ∧ (k < 16) ∧ (v.toNat = 2 ^ k) ∧ (s.d.lnk.trigs.any (fun f => f.num == e.num && f.eff == e.eff) = false) ∧ ((k, e.eff) ∉ s.d.lnk.acted)) ∧
    (let t : Fin 16 := 3; let e := ({ eff := 5000, num := 3 } : LEv); let s := served fun d => (let d := { d with lnk := { d.lnk with trigs := [e] } }; d); let idle := ∀ i, i < 8 → s.d.txnState i ≠ 3; (idle) ∧ (s.d.lnk.trigs = [e]) ∧ (e.num = t.val)) ∧
    (let t : Fin 16 := 4; let s := served fun d => (let d := { d with lnk := { d.lnk with trigs := [{ eff := 1, num := 2 }] } }; d); ((∀ e ∈ s.d.lnk.trigs, e.num ≠ t.val))) ∧
    (let p := HPort.pcie; let s : State := served; (s.d.reaches p (mslB + 0x68) = true)) ∧
    (let p : HPort := HPort.pcie; let v : Word := (1 : Word); let k := 0; let s : State := served; (s.d.reaches p (mslB + 0xC4) = true) ∧ (k < 8) ∧ (v.toNat = 2 ^ k) ∧ (bitOf s.d.lnk.arrived k = false)) ∧
    (let p : HPort := HPort.pcie; let v : Word := (1 : Word); let k := 0; let s := served fun d => (let d := { d with lnk := { d.lnk with arrived := 1 } }; d); (s.d.reaches p (mslB + 0xC4) = true) ∧ (k < 8) ∧ (v.toNat = 2 ^ k) ∧ (bitOf s.d.lnk.arrived k = true)) ∧
    (let p : HPort := HPort.pcie; let v : Word := (1 : Word); let k := 0; let s : State := served; (s.d.reaches p (mslB + 0xC4) = true) ∧ (k < 8) ∧ (v.toNat = 2 ^ k) ∧ (bitOf s.d.lnk.arrived k = false) ∧ (bitOf s.d.lnk.sent k = false) ∧ (s.d.lnk.rels = []) ∧ (s.d.isRoot = true) ∧ (s.d.children = []) ∧ (s.d.bitN mslB .MSL_BAR_CFG_TICK k = false)) ∧
    (let k : Fin 8 := 3; let e := ({ eff := 5000, num := 3 } : LEv); let s := served fun d => (let d := { d with lnk := { d.lnk with rels := [e] } }; d); (s.d.lnk.rels = [e]) ∧ (e.num = k.val)) ∧
    (let i : Fin 2 := 1; let t : Nat := 5000; let s := served fun d => (let d := d.put (toutB i) .MSL_TOUT_CFG0_SRC 1; let d := { d with lnk := { d.lnk with pulses := [(i.val, t)] } }; d); (s.d.toutSrc i ≠ 0) ∧ (s.d.lnk.pulses = [(i.val, t)])) ∧
    (let i : Fin 2 := 1; let t : Nat := 5000; let u : Nat := 6000; let s := served fun d => (let d := d.put (toutB i) .MSL_TOUT_CFG0_SRC 1; let d := { d with lnk := { d.lnk with pulses := [(i.val, t), (i.val, u)] } }; d); (s.d.toutSrc i ≠ 0) ∧ (s.d.lnk.pulses = [(i.val, t), (i.val, u)])) ∧
    (let i : Fin 2 := 1; let s := served fun d => (let d := d.put (toutB i) .MSL_TOUT_CFG0_SRC 1; d); (s.d.toutSrc i ≠ 0) ∧ (s.d.lnk.pulses = [])) := by
  refine ⟨?_, ?_, ?_, ?_, ?_, ?_, ?_, ?_, ?_, ?_, ?_, ?_, ?_, ?_, ?_, ?_, ?_, ?_, ?_, ?_⟩ <;> (try dsimp only [Dev.recorded, State.walkAt, Dev.atRoutine, Dev.atWord]) <;> decide +kernel

/-- States and operands that meet the hypotheses of clauses of `Obligations.Calibration`. -/
theorem witness_Calibration :
    (let p := HPort.pcie; let s : State := served; (s.d.reaches p (calB + 0x44) = true) ∧ (s.d.bit calB .CAL_GAP_OPEN = false)) ∧
    (let p := HPort.pcie; let s := served fun d => (let d := d.setb calB .CAL_GAP_OPEN true; d); (s.d.reaches p (calB + 0x44) = true) ∧ (s.d.bit calB .CAL_GAP_OPEN = true)) ∧
    (let s := served fun d => (let d := d.setb calB .CAL_CFG_INDEX_AUTO true; d); (s.d.bit calB .CAL_CFG_INDEX_AUTO = true) ∧ (s.d.bit calB .CAL_GAP_OPEN = false)) ∧
    (let s : State := served; (s.d.bit calB .CAL_CFG_INDEX_AUTO = false ∨ s.d.bit calB .CAL_GAP_OPEN = true)) ∧
    (let n : Fin 32 := 0; let b := calcBase n; let p := HPort.pcie; let s : State := served; (s.d.reaches p (b + 0x44) = true)) ∧
    (let n : Fin 32 := 0; let k : Fin 8 := 6; let s : State := served; (k ≠ 0) ∧ (s.d.present n = true)) ∧
    (let n : Fin 32 := 0; let s := served fun d => (let d := d.setb calB .CAL_GAP_OPEN true; let d := d.put (calcBase n) .CAL_CL_DUE_DUE 2; d); let k := (match s.d.calNext n with | some (k, _) => k | none => 0 : Nat); let g := (match s.d.calNext n with | some (_, g) => g | none => none : Option Nat); (s.d.calPlaces < s.d.calMaxPar) ∧ (s.d.pow.queue = []) ∧ (s.d.pow.prog = []) ∧ (s.d.present n = true) ∧ ((∀ m, m < n.val → s.d.calNext m = none)) ∧ (s.d.calNext n = some (k, g)) ∧ (s.d.clState n ≤ 1)) ∧
    (let n : Fin 32 := 0; let s : State := served; ((s.d.clu n).slice = 0)) ∧
    (let n : Fin 32 := 0; let s := served fun d => (let d := d.setClu n { d.clu n with slice := 2 }; let d := d.setEng n { d.eng n with run := some { rtn := { slot := 0x28, ctx := 0 } } }; d); ((s.d.clu n).slice ≠ 0) ∧ (s.d.calPreparing n = true)) ∧
    (let n : Fin 32 := 0; let s := served fun d => (let d := d.setClu n { d.clu n with slice := 2 }; d); (1 ≤ (s.d.clu n).slice) ∧ ((s.d.clu n).slice ≤ 7) ∧ (s.d.calPreparing n = false)) ∧
    (let s := served fun d => (let d := d.setClu 0 { d.clu 0 with slice := 2 }; let d := d.put calB .CAL_CFG_MAX_PAR 1; d); (s.d.calMaxPar ≤ s.d.calPlaces)) ∧
    (let p : HPort := HPort.pcie; let a : BitVec 24 := (0x100000 : BitVec 24); let off := (0 : Nat); let s : State := served; (s.d.reaches p a.toNat = true) ∧ (areaOf a.toNat = .calAp off) ∧ (a.toNat % 8 = 0)) := by
  refine ⟨?_, ?_, ?_, ?_, ?_, ?_, ?_, ?_, ?_, ?_, ?_, ?_⟩ <;> (try dsimp only [Dev.recorded, State.walkAt, Dev.atRoutine, Dev.atWord]) <;> decide +kernel

/-- States and operands that meet the hypotheses of clauses of `Obligations.PowerStates`. -/
theorem witness_PowerStates :
    (let n : Fin 32 := 3; let s : State := served; let t := s.d.pwrTarget n; let st := s.d.clState n; (s.d.present n = true) ∧ (st = 0) ∧ (t ≠ 0) ∧ (s.d.clkState = 2) ∧ ((s.d.eng n).run = none) ∧ ((s.d.eng n).queue = [])) ∧
    (let n : Fin 32 := 3; let s := served fun d => (let d := d.put (pwrCl n) .PWR_CL_STAT_STATE (0 + 1); d); let t := s.d.pwrTarget n; let st := s.d.clState n; (s.d.present n = true) ∧ (st ≠ 0 ∨ t = 0 ∨ (s.d.eng n).run ≠ none)) ∧
    (let n : Fin 32 := 3; let s := served fun d => (let d := d.put (pwrCl n) .PWR_CL_STAT_STATE 1; let d := d.put (pwrCl n) .PWR_CL_TOL_NS 300000; let d := d.setb (pwrCl n) .PWR_CL_CFG_FORCE_RUN true; let d := d.put (pwrCl n) .PWR_CL_STAT_STATE (1); d); let t := s.d.pwrTarget n; let st := s.d.clState n; let alone := (∀ w ∈ s.d.pow.queue, w.cl ≠ n.val) ∧ (∀ w ∈ s.d.pow.prog, w.cl ≠ n.val); (s.d.present n = true) ∧ (alone) ∧ (s.d.armHolds n = false) ∧ (st = 1) ∧ (t = 0)) ∧
    (let n : Fin 32 := 3; let s := served fun d => (let d := d.put (pwrCl n) .PWR_CL_STAT_STATE ((d.pwrTarget n)); d); let t := s.d.pwrTarget n; let st := s.d.clState n; let alone := (∀ w ∈ s.d.pow.queue, w.cl ≠ n.val) ∧ (∀ w ∈ s.d.pow.prog, w.cl ≠ n.val); (s.d.present n = true) ∧ (alone) ∧ (s.d.armHolds n = false) ∧ (st = t)) ∧
    (let n : Fin 32 := 3; let s := served fun d => (let d := d.put (pwrCl n) .PWR_CL_STAT_STATE 1; let d := d.put (pwrCl n) .PWR_CL_TOL_NS 16000; let d := d.put (pwrCl n) .PWR_CL_STAT_STATE (1); d); let t := s.d.pwrTarget n; let st := s.d.clState n; let alone := (∀ w ∈ s.d.pow.queue, w.cl ≠ n.val) ∧ (∀ w ∈ s.d.pow.prog, w.cl ≠ n.val); (s.d.present n = true) ∧ (alone) ∧ (s.d.armHolds n = false) ∧ (st = 1) ∧ (t = 2)) ∧
    (let n : Fin 32 := 3; let s := served fun d => (let d := d.put (pwrCl n) .PWR_CL_STAT_STATE 1; let d := d.put (pwrCl n) .PWR_CL_TOL_NS 300000; let d := d.put (pwrCl n) .PWR_CL_STAT_STATE (1); d); let t := s.d.pwrTarget n; let st := s.d.clState n; let alone := (∀ w ∈ s.d.pow.queue, w.cl ≠ n.val) ∧ (∀ w ∈ s.d.pow.prog, w.cl ≠ n.val); (s.d.present n = true) ∧ (alone) ∧ (s.d.armHolds n = false) ∧ (st = 1 ∨ st = 2) ∧ (t = 3) ∧ (s.d.pmusOn n = [])) ∧
    (let n : Fin 32 := 3; let s := served fun d => (let d := d.put (pwrCl n) .PWR_CL_STAT_STATE 1; let d := d.put (pwrCl n) .PWR_CL_TOL_NS 300000; let d := d.setb (pinBase 100) .PMU_STAT_CONN true; let d := d.put (pwrCl n) .PWR_CL_STAT_STATE (1); d); let t := s.d.pwrTarget n; let st := s.d.clState n; let alone := (∀ w ∈ s.d.pow.queue, w.cl ≠ n.val) ∧ (∀ w ∈ s.d.pow.prog, w.cl ≠ n.val); (s.d.present n = true) ∧ (alone) ∧ (s.d.armHolds n = false) ∧ (st = 1 ∨ st = 2) ∧ (t = 3) ∧ (s.d.pmusOn n ≠ [])) ∧
    (let n : Fin 32 := 3; let s := served fun d => (let d := d.put (pwrCl n) .PWR_CL_STAT_STATE 2; let d := d.put (pwrCl n) .PWR_CL_TOL_NS 100; let d := d.put (pwrCl n) .PWR_CL_STAT_STATE (2); d); let t := s.d.pwrTarget n; let st := s.d.clState n; let alone := (∀ w ∈ s.d.pow.queue, w.cl ≠ n.val) ∧ (∀ w ∈ s.d.pow.prog, w.cl ≠ n.val); (s.d.present n = true) ∧ (alone) ∧ (s.d.armHolds n = false) ∧ (st = 2) ∧ (t < 2)) ∧
    (let n : Fin 32 := 3; let s : State := served; (s.d.present n = true)) ∧
    (let n : Fin 32 := 3; let s := served fun d => (let d := { d with fuse := { d.fuse with present := 8 } }; let d := d.put (pwrCl n) .PWR_CL_STAT_STATE 3; d); (s.d.present n = true) ∧ ((∀ k ∈ s.d.clusters, s.d.clState k = 3)) ∧ ((∀ q, q < 16 → s.d.get (patB + 0x40 * q) .PAT_STR_STAT_STATE ≠ 1 ∧ s.d.get (patB + 0x40 * q) .PAT_STR_STAT_STATE ≠ 2)) ∧ (s.d.get rasB .PG_STAT_STATE = 0)) ∧
    (let n : Fin 32 := 3; let s := served fun d => (let d := d.put (pwrCl n) .PWR_CL_STAT_STATE 2; d); let st := s.d.clState n; (s.d.present n = true) ∧ (st ≠ 3)) ∧
    (let n : Fin 32 := 3; let s := served fun d => (let d := { d with fuse := { d.fuse with present := 8 } }; let d := d.put (pwrCl n) .PWR_CL_TOL_NS 300000; let d := d.setEng n { d.eng n with queue := [{ slot := 0x20, ctx := 96 }] }; d); (s.d.present n = true) ∧ ((∀ k ∈ s.d.clusters, s.d.clState k = 0 ∧ (s.d.pwrTarget k = 0 ∨ (s.d.eng k).queue ≠ [])))) ∧
    (let n : Fin 32 := 3; let s := served fun d => (let d := { d with fuse := { d.fuse with present := 8 } }; let d := d.put (pwrCl n) .PWR_CL_TOL_NS 100000; d); let t := s.d.pwrTarget n; let st := s.d.clState n; let alone := (∀ w ∈ s.d.pow.queue, w.cl ≠ n.val) ∧ (∀ w ∈ s.d.pow.prog, w.cl ≠ n.val); (s.d.present n = true) ∧ (s.d.clusters = [n.val]) ∧ (s.d.clkState = 2) ∧ (s.d.engBusy n = false) ∧ (alone) ∧ (s.d.armHolds n = false) ∧ (st = 0) ∧ (t = 2)) := by
  refine ⟨?_, ?_, ?_, ?_, ?_, ?_, ?_, ?_, ?_, ?_, ?_, ?_, ?_⟩ <;> (try dsimp only [Dev.recorded, State.walkAt, Dev.atRoutine, Dev.atWord]) <;> decide +kernel

/-- States and operands that meet the hypotheses of clauses of `Obligations.Wakes`. -/
theorem witness_Wakes :
    (let p : HPort := HPort.pcie; let n : Fin 32 := 3; let s := served fun d => (let d := d.put (pwrCl n) .PWR_CL_STAT_STATE 3; let d := d.put (pwrCl n) .PWR_CL_STAT_STATE (2); d); let st := s.d.clState n; let alone := (∀ w ∈ s.d.pow.queue, w.cl ≠ n.val) ∧ (∀ w ∈ s.d.pow.prog, w.cl ≠ n.val); (s.d.present n = true) ∧ (s.d.reaches p (pwrB + 0x10C + 0x10 * n.val) = true) ∧ (st = 2 ∨ st = 3) ∧ (alone)) ∧
    (let p : HPort := HPort.pcie; let n : Fin 32 := 3; let s := served fun d => (let d := d.put (pwrCl n) .PWR_CL_STAT_STATE 2; let d := { d with pow := { d.pow with queue := [({ cl := n.val, dorm := true, t := 5, promise := some 7, low := false, prio := 2 } : Wake)] } }; let d := d.put (pwrCl n) .PWR_CL_STAT_STATE (2); d); let st := s.d.clState n; let alone := (∀ w ∈ s.d.pow.queue, w.cl ≠ n.val) ∧ (∀ w ∈ s.d.pow.prog, w.cl ≠ n.val); (s.d.present n = true) ∧ (s.d.reaches p (pwrB + 0x10C + 0x10 * n.val) = true) ∧ (st = 2 ∨ st = 3) ∧ (¬ alone)) ∧
    (let p : HPort := HPort.pcie; let n : Fin 32 := 3; let s := served fun d => (let d := d.put (pwrCl n) .PWR_CL_STAT_STATE (1); d); let st := s.d.clState n; (s.d.present n = true) ∧ (s.d.reaches p (pwrB + 0x10C + 0x10 * n.val) = true) ∧ (st = 1) ∧ ((s.d.clu n).pmuBack = [])) ∧
    (let p : HPort := HPort.pcie; let n : Fin 32 := 3; let s : State := served; let st := s.d.clState n; (s.d.present n = true) ∧ (s.d.reaches p (pwrB + 0x10C + 0x10 * n.val) = true) ∧ (st = 0)) ∧
    (let n : Fin 32 := 3; let s : State := served; (s.d.present n = true) ∧ (s.d.pow.stop = false) ∧ (s.d.clkState = 2)) ∧
    (let n : Fin 32 := 3; let s := served fun d => (let d := { d with pow := { d.pow with stop := true } }; d); (s.d.present n = true) ∧ (s.d.pow.stop = true) ∧ (s.d.lcs.adv = none) ∧ (s.d.get bstB .PG_STAT_STATE ≠ 2)) ∧
    (let n : Fin 32 := 3; let w := ({ cl := n.val, dorm := true, t := 5, promise := some 7, low := false, prio := 2 } : Wake); let s := served fun d => (let d := { d with pow := { d.pow with queue := [({ cl := n.val, dorm := true, t := 5, promise := some 7, low := false, prio := 2 } : Wake), { cl := 9, dorm := false, t := 9, promise := none, low := true, prio := 1 }] } }; d); let ready := fun (w : Wake) => bitOf s.d.thm.safe w.cl = false ∧ (s.d.clu w.cl).saving = false ∧ (s.d.clu w.cl).bst = none; let limit := Nat.max 1 (s.d.get pwrB .WAKE_MAX_CONCURRENT_COUNT); (s.d.present n = true) ∧ (w ∈ s.d.pow.queue) ∧ (ready w) ∧ ((∀ v ∈ s.d.pow.queue, v = w ∨ ¬ ready v ∨ (w.before v = true ∧ v.before w = false))) ∧ (s.d.bit pwrB .PWR_DVFS_STAT_BUSY = false) ∧ (s.d.pow.free ≤ s.d.time) ∧ (s.d.pow.prog.length < limit)) ∧
    (let n : Fin 32 := 3; let s := served fun d => (let d := d.setb pwrB .PWR_DVFS_STAT_BUSY true; let d := { d with pow := { d.pow with queue := [({ cl := n.val, dorm := true, t := 5, promise := some 7, low := false, prio := 2 } : Wake)] } }; let d := d.setb pwrB .PWR_DVFS_STAT_BUSY true; d); let limit := Nat.max 1 (s.d.get pwrB .WAKE_MAX_CONCURRENT_COUNT); (s.d.present n = true) ∧ (s.d.bit pwrB .PWR_DVFS_STAT_BUSY = true ∨ s.d.time < s.d.pow.free ∨ limit ≤ s.d.pow.prog.length)) ∧
    (let n : Fin 32 := 3; let w := ({ cl := n.val, dorm := true, t := 5, promise := none, low := false, prio := 2 } : Wake); let s := served fun d => (let d := { d with pow := { d.pow with prog := [({ cl := n.val, dorm := true, t := 5, promise := none, low := false, prio := 2 } : Wake)] } }; d); (s.d.present n = true) ∧ (s.d.pow.prog = [w]) ∧ (w.cl = n.val) ∧ (w.aim = 0) ∧ ((s.d.clu n).tdWait = false) ∧ (w.promise = none ∨ (∃ t, w.promise = some t ∧ s.d.time ≤ t))) ∧
    (let n : Fin 32 := 3; let w := ({ cl := n.val, dorm := true, t := 5, promise := some 7, low := false, prio := 2 } : Wake); let t := (7 : Nat); let s := served fun d => (let d := { d with pow := { d.pow with prog := [({ cl := n.val, dorm := true, t := 5, promise := some 7, low := false, prio := 2 } : Wake)] }, time := 8000 }; d); (s.d.present n = true) ∧ (s.d.pow.prog = [w]) ∧ (w.cl = n.val) ∧ (w.aim = 0) ∧ ((s.d.clu n).tdWait = false) ∧ (w.promise = some t) ∧ (t < s.d.time)) ∧
    (let n : Fin 32 := 3; let s : State := served; (s.d.present n = true) ∧ ((∀ w ∈ s.d.pow.prog, w.cl ≠ n.val))) ∧
    (let p : HPort := HPort.pcie; let n : Fin 32 := 3; let s : State := served; let st := s.d.clState n; (s.d.present n = true) ∧ (s.d.reaches p (pwrCl n + 0x100) = true) ∧ (st < 2)) ∧
    (let p : HPort := HPort.pcie; let n : Fin 32 := 3; let v : Word := (100 : Word); let s := served fun d => (let d := d.put (pwrCl n) .PWR_CL_STAT_STATE 2; let d := d.put (pwrCl n) .PWR_CL_STAT_STATE (2); d); let st := s.d.clState n; let alone := (∀ w ∈ s.d.pow.queue, w.cl ≠ n.val) ∧ (∀ w ∈ s.d.pow.prog, w.cl ≠ n.val); (s.d.present n = true) ∧ (s.d.reaches p (pwrCl n + 0x100) = true) ∧ (st = 2 ∨ st = 3) ∧ (v.toNat < 16000) ∧ (alone)) ∧
    (let p : HPort := HPort.pcie; let n : Fin 32 := 3; let v : BitVec 8 := (0x5B : BitVec 8); let s : State := served; (s.d.present n = true) ∧ (s.d.reaches p (pwrB + 0x6C) = true) ∧ (v ≠ 0x5A)) ∧
    (let p : HPort := HPort.pcie; let n : Fin 32 := 3; let s : State := served; let st := s.d.clState n; (s.d.present n = true) ∧ (s.d.reaches p (pwrB + 0x6C) = true) ∧ (st ≠ 3)) ∧
    (let p : HPort := HPort.pcie; let n : Fin 32 := 3; let s := served fun d => (let d := { d with fuse := { d.fuse with present := 8 } }; let d := d.put (pwrCl n) .PWR_CL_STAT_STATE 3; d); (s.d.present n = true) ∧ (s.d.reaches p (pwrB + 0x6C) = true) ∧ ((∀ k ∈ s.d.clusters, s.d.clState k = 3 ∧ s.d.dpsState (2 * k) ≤ 1 ∧ s.d.dpsState (2 * k + 1) ≤ 1))) := by
  refine ⟨?_, ?_, ?_, ?_, ?_, ?_, ?_, ?_, ?_, ?_, ?_, ?_, ?_, ?_, ?_, ?_⟩ <;> (try dsimp only [Dev.recorded, State.walkAt, Dev.atRoutine, Dev.atWord]) <;> decide +kernel

/-- States and operands that meet the hypotheses of clauses of `Obligations.OperatingPoints`. -/
theorem witness_OperatingPoints :
    (let p : HPort := HPort.pcie; let s : State := served; (s.d.reaches p (pwrB + 0x5C) = true) ∧ (s.d.allCtx.any s.d.ctxOwning = false)) ∧
    (let s := served fun d => (let d := d.put pwrB .PWR_DVFS_STAT_NOW ((d.dvfsWant) + 1); d); let now := s.d.get pwrB .PWR_DVFS_STAT_NOW; let want := s.d.dvfsWant; (s.d.pow.prog = []) ∧ (now ≠ want)) ∧
    (let s : State := served; let now := s.d.get pwrB .PWR_DVFS_STAT_NOW; let want := s.d.dvfsWant; (s.d.pow.prog ≠ [] ∨ now = want)) ∧
    (let s := served fun d => (let d := d.setb pwrB .PWR_DVFS_STAT_BUSY true; d); let now := s.d.get pwrB .PWR_DVFS_STAT_NOW; let want := s.d.dvfsWant; (s.d.bit pwrB .PWR_DVFS_STAT_BUSY = true) ∧ (now = want)) ∧
    (let s := served fun d => (let d := d.put pwrB .PWR_DVFS_STAT_NOW ((d.dvfsWant) + 1); d); let now := s.d.get pwrB .PWR_DVFS_STAT_NOW; let want := s.d.dvfsWant; (now ≠ want)) ∧
    (let s := served fun d => (let d := d.put pwrB .PWR_DVFS_STAT_VCORE_MV 700; d); (650 ≤ s.d.get pwrB .PWR_DVFS_STAT_VCORE_MV) ∧ (s.d.get pwrB .PWR_DVFS_STAT_VCORE_MV ≤ 900)) ∧
    (let s : State := served; (s.d.armed 0x05 0 0 = false)) ∧
    (let cause : Fin 5 := (1 : Fin 5); let s : State := served; (s.d.armed 0x05 0 0 = false) ∧ (cause ≠ 0)) ∧
    (let cause : Fin 5 := (4 : Fin 5); let s : State := served; (s.d.armed 0x05 0 0 = false) ∧ (cause ≠ 0) ∧ (cause = 4 ∨ 3 ≤ s.d.pow.avsTry)) ∧
    (let cause : Fin 5 := (1 : Fin 5); let s : State := served; (s.d.armed 0x05 0 0 = false) ∧ (cause ≠ 0) ∧ (cause ≠ 4) ∧ (s.d.pow.avsTry < 3)) ∧
    (let s : State := served; (s.d.pow.avsHold = false)) ∧
    (let s := served fun d => (let d := { d with pow := { d.pow with avsHold := true } }; let d := { d with pow := { d.pow with avsHold := true } }; d); (s.d.pow.avsHold = true)) := by
  refine ⟨?_, ?_, ?_, ?_, ?_, ?_, ?_, ?_, ?_, ?_, ?_, ?_⟩ <;> (try dsimp only [Dev.recorded, State.walkAt, Dev.atRoutine, Dev.atWord]) <;> decide +kernel

/-- States and operands that meet the hypotheses of clauses of `Obligations.ThermalLimits`. -/
theorem witness_ThermalLimits :
    (let s : State := served; (s.d.armed 0x06 0 0 = false)) ∧
    (let c : BitVec 16 := (5000 : BitVec 16); let s : State := served; (s.d.armed 0x06 0 0 = false) ∧ (c.toInt ≤ s.d.sget thmB .THM_WARN_CENTI_C) ∧ (c.toInt ≤ s.d.critLimit) ∧ (c.toInt ≤ 11500)) ∧
    (let t : Fin 48 := (9 : Fin 48); let s := served fun d => (let d := d.setBitN thmB .THM_IGNORE_SENSOR t true; d); (s.d.armed 0x06 0 0 = false) ∧ (s.d.masked t = true)) ∧
    (let t : Fin 48 := (9 : Fin 48); let c : BitVec 16 := (10500 : BitVec 16); let s : State := served; (s.d.armed 0x06 0 0 = false) ∧ (s.d.masked t = false) ∧ (c.toInt > s.d.sget thmB .THM_WARN_CENTI_C)) ∧
    (let t : Fin 48 := (9 : Fin 48); let c : BitVec 16 := (11480 : BitVec 16); let z := sensorZone t; let s : State := served; (s.d.armed 0x06 0 0 = false) ∧ (s.d.masked t = false) ∧ (c.toInt > s.d.critLimit) ∧ (z ∉ s.d.thm.crit)) ∧
    (let t : Fin 48 := (9 : Fin 48); let c : BitVec 16 := (11600 : BitVec 16); let s : State := served; (s.d.armed 0x06 0 0 = false) ∧ (s.d.masked t = false) ∧ (c.toInt > 11500) ∧ (s.d.thm.trip = false)) ∧
    (let t : Fin 48 := (9 : Fin 48); let s : State := served; (s.d.armed 0x06 0 0 = false) ∧ (s.d.bitN thmB .THM_BROKEN_MAP_SENSOR t = false)) ∧
    (let k : Fin 36 := (9 : Fin 36); let s : State := served; let below := fun (lim : Int) => ∀ u, u < 48 → sensorZone u = k.val → s.d.masked u = true ∨ s.d.temp u < lim - s.d.hyst; (s.d.armed 0x06 0 0 = false) ∧ (below (s.d.sget thmB .THM_WARN_CENTI_C))) ∧
    (let k : Fin 36 := (9 : Fin 36); let s := served fun d => (let d := d.put (thmB + 4 * 9) .THM_TEMP_CENTI_C 12000; let d := [0,1,2,3,4,5,6,7,8,9,10,11,12,13,14,15,16,17,18,19,20,21,22,23,24,25,26,27,28,29,30,31,32,33,34,35,36,37,38,39,40,41,42,43,44,45,46,47].foldl (fun d k => d.put (thmB + 4 * k) .THM_TEMP_CENTI_C 12000) d; d); let below := fun (lim : Int) => ∀ u, u < 48 → sensorZone u = k.val → s.d.masked u = true ∨ s.d.temp u < lim - s.d.hyst; (s.d.armed 0x06 0 0 = false) ∧ (¬ below (s.d.sget thmB .THM_WARN_CENTI_C))) ∧
    (let k : Fin 36 := (9 : Fin 36); let s : State := served; let below := fun (lim : Int) => ∀ u, u < 48 → sensorZone u = k.val → s.d.masked u = true ∨ s.d.temp u < lim - s.d.hyst; (s.d.armed 0x06 0 0 = false) ∧ (below s.d.critLimit)) ∧
    (let k : Fin 36 := (9 : Fin 36); let s := served fun d => (let d := d.put (thmB + 4 * 9) .THM_TEMP_CENTI_C 12000; let d := [0,1,2,3,4,5,6,7,8,9,10,11,12,13,14,15,16,17,18,19,20,21,22,23,24,25,26,27,28,29,30,31,32,33,34,35,36,37,38,39,40,41,42,43,44,45,46,47].foldl (fun d k => d.put (thmB + 4 * k) .THM_TEMP_CENTI_C 12000) d; d); let below := fun (lim : Int) => ∀ u, u < 48 → sensorZone u = k.val → s.d.masked u = true ∨ s.d.temp u < lim - s.d.hyst; (s.d.armed 0x06 0 0 = false) ∧ (¬ below s.d.critLimit)) ∧
    (let k : Fin 36 := (9 : Fin 36); let s := served fun d => (let d := { d with thm := { d.thm with crit := [9], safe := 512 } }; d); let below := fun (lim : Int) => ∀ u, u < 48 → sensorZone u = k.val → s.d.masked u = true ∨ s.d.temp u < lim - s.d.hyst; (s.d.armed 0x06 0 0 = false) ∧ (below s.d.critLimit) ∧ (k.val < 32) ∧ (s.d.thm.trip = false) ∧ (s.d.thm.crit = [k.val]) ∧ (bitOf s.d.thm.safe k = true)) ∧
    (let t : Fin 48 := (9 : Fin 48); let p : HPort := HPort.pcie; let s : State := served; (s.d.armed 0x06 0 0 = false) ∧ (s.d.reaches p (thmB + 0x200 + 4 * t.val) = true)) := by
  refine ⟨?_, ?_, ?_, ?_, ?_, ?_, ?_, ?_, ?_, ?_, ?_, ?_, ?_⟩ <;> (try dsimp only [Dev.recorded, State.walkAt, Dev.atRoutine, Dev.atWord]) <;> decide +kernel

/-- States and operands that meet the hypotheses of clauses of `Obligations.FaultControls`. -/
theorem witness_FaultControls :
    (let k : Fin 33 := (3 : Fin 33); let s : State := served; ((Tab.get (fun _ => []) s.d.flt.waits k).filter s.d.ctxOwning = [])) ∧
    (let k : Fin 33 := (3 : Fin 33); let s := served fun d => (let d := { d with flt := { d.flt with waits := [(3, [100])] } }; let d := d.put (ctxBase 100) .CTX_STATE_STATE 3; d); ((Tab.get (fun _ => []) s.d.flt.waits k).filter s.d.ctxOwning ≠ [])) ∧
    (let p : HPort := HPort.pcie; let v : Word := (8 : Word); let n : Nat := (3 : Nat); let s := served fun d => (let d := d.put (ctxBase 100) .CTX_STATE_STATE 0; let d := d.setBitN fltB .FLT_SAFE_MAP_CLUSTER n true; d); (s.d.reaches p (fltB + 0x74) = true) ∧ (n < 32) ∧ (v.toNat = 2 ^ n) ∧ (s.d.bitN fltB .FLT_SAFE_MAP_CLUSTER n = true) ∧ (s.d.flt.active = []) ∧ (s.d.bitN fltB .FLT_SHADOW_MAP_CLUSTER n = false) ∧ (s.d.bit fltB .FLT_STAT_DEV_SHADOW = false) ∧ (s.d.clkState ≠ 3) ∧ (s.d.clkState ≠ 4)) ∧
    (let p : HPort := HPort.pcie; let v : Word := (8 : Word); let n : Nat := (3 : Nat); let s := served fun d => (let d := d.put (ctxBase 100) .CTX_STATE_STATE 0; let d := d.setBitN fltB .FLT_SAFE_MAP_CLUSTER n true; let d := d.setBitN fltB .FLT_SHADOW_MAP_CLUSTER n true; d); (s.d.reaches p (fltB + 0x74) = true) ∧ (n < 32) ∧ (v.toNat = 2 ^ n) ∧ (s.d.bitN fltB .FLT_SAFE_MAP_CLUSTER n = true) ∧ (s.d.bitN fltB .FLT_SHADOW_MAP_CLUSTER n = true ∨ s.d.bit fltB .FLT_STAT_DEV_SHADOW = true)) ∧
    (let p : HPort := HPort.pcie; let v : Word := (8 : Word); let n : Nat := (3 : Nat); let s := served fun d => (let d := d.put (ctxBase 100) .CTX_STATE_STATE 0; d); (s.d.reaches p (fltB + 0x74) = true) ∧ (n < 32) ∧ (v.toNat = 2 ^ n) ∧ (s.d.bitN fltB .FLT_SAFE_MAP_CLUSTER n = false)) ∧
    (let p : HPort := HPort.pcie; let v : Word := (0xA601 : Word); let s : State := served; (s.d.reaches p (fltB + 0x84) = true) ∧ (v.toNat / 256 % 256 ≠ 0xA5)) ∧
    (let p : HPort := HPort.pcie; let v : Word := (0xA501 : Word); let s := served fun d => (let d := d.put lcsB .LCS_STATE_STATE (4); d); (s.d.reaches p (fltB + 0x84) = true) ∧ (v.toNat / 256 % 256 = 0xA5) ∧ (s.d.lcsState = 4)) ∧
    (let p : HPort := HPort.pcie; let v : Word := (0xA501 : Word); let s := served fun d => (let d := d.put fltB .FLT_INJ_SEL_SOURCE (srcWord 0x11 5 3); d); let src := s.d.get fltB .FLT_INJ_SEL_SOURCE; (s.d.reaches p (fltB + 0x84) = true) ∧ (v.toNat / 256 % 256 = 0xA5) ∧ (s.d.lcsState ≠ 4) ∧ (injectable (srcType src) (srcBit src) = true) ∧ (srcType src ≠ 0x04) ∧ (srcType src ≠ 0x28) ∧ (srcType src ≠ 0x0A)) ∧
    (let p : HPort := HPort.pcie; let v : Word := (0xA501 : Word); let s := served fun d => (let d := d.put fltB .FLT_INJ_SEL_SOURCE (srcWord 0x11 5 2); d); let src := s.d.get fltB .FLT_INJ_SEL_SOURCE; (s.d.reaches p (fltB + 0x84) = true) ∧ (v.toNat / 256 % 256 = 0xA5) ∧ (s.d.lcsState ≠ 4) ∧ (bitOf v.toNat 0 = true) ∧ (injectable (srcType src) (srcBit src) = false)) := by
  refine ⟨?_, ?_, ?_, ?_, ?_, ?_, ?_, ?_, ?_⟩ <;> (try dsimp only [Dev.recorded, State.walkAt, Dev.atRoutine, Dev.atWord]) <;> decide +kernel

/-- States and operands that meet the hypotheses of clauses of `Obligations.SelfTest`. -/
theorem witness_SelfTest :
    (let p : HPort := HPort.pcie; let s := served fun d => (let d := { d with fuse := { d.fuse with code := 1 } }; let d := d.put lcsB .LCS_STATE_STATE 4; d); (s.d.reaches p (bstB + 0x44) = true) ∧ (s.d.bstAllowed = false)) ∧
    (let p : HPort := HPort.msp; let s := served fun d => (let d := d.put clkB .PG_STAT_STATE (3); d); (s.d.reaches p (bstB + 0x44) = true) ∧ (s.d.bstAllowed = true) ∧ (s.d.clkState = 3)) ∧
    (let p : HPort := HPort.pcie; let v : BitVec 8 := (9 : BitVec 8); let s : State := served; (s.d.reaches p (bstB + 0x44) = true) ∧ (s.d.bstAllowed = true) ∧ (s.d.clkState < 3) ∧ (bstParts v.toNat = 0)) ∧
    (let p : HPort := HPort.pcie; let v : BitVec 8 := (2 : BitVec 8); let s := served fun d => (let d := { d with bst := { d.bst with todo := [(3, 1)] } }; d); let free := s.d.bst.todo = [] ∧ s.d.bstRuns = false ∧ s.d.bst.wait = none; (s.d.reaches p (bstB + 0x44) = true) ∧ (s.d.bstAllowed = true) ∧ (s.d.clkState < 3) ∧ (bstParts v.toNat ≠ 0) ∧ (¬ free)) ∧
    (let p : HPort := HPort.pcie; let v : BitVec 8 := (2 : BitVec 8); let s := served fun d => (let d := d.put bstB .PG_STAT_STATE 2; let d := d.put bstB .PG_STAT_STATE (2); d); let free := s.d.bst.todo = [] ∧ s.d.bstRuns = false ∧ s.d.bst.wait = none; (s.d.reaches p (bstB + 0x44) = true) ∧ (s.d.bstAllowed = true) ∧ (s.d.clkState < 3) ∧ (bstParts v.toNat ≠ 0) ∧ (free) ∧ (s.d.get bstB .PG_STAT_STATE = 2)) ∧
    (let p : HPort := HPort.pcie; let v : BitVec 8 := (2 : BitVec 8); let s := served fun d => (let d := d.put bstB .BST_REQ_CL_CLUSTER 0x9; d); let free := s.d.bst.todo = [] ∧ s.d.bstRuns = false ∧ s.d.bst.wait = none; (s.d.reaches p (bstB + 0x44) = true) ∧ (s.d.bstAllowed = true) ∧ (s.d.clkState < 3) ∧ (bstParts v.toNat ≠ 0) ∧ (free) ∧ (s.d.get bstB .PG_STAT_STATE ≠ 2)) ∧
    (let n : Fin 32 := 3; let part := (1 : Nat); let s := served fun d => (let d := { d with bst := { d.bst with todo := [(3, 1)] } }; d); (s.d.clkState = 2) ∧ ((∀ x ∈ s.d.bst.todo, x.1 ≠ 32)) ∧ (s.d.bst.todo.find? (fun x => x.1 == n.val) = some (n.val, part)) ∧ (s.d.bstMay n = true) ∧ ((∀ k, k < n.val → s.d.bstMay k = false)) ∧ (s.d.get bstB .BST_STAT_RUNNING < s.d.bstMaxPar) ∧ (s.d.clState n = 0)) ∧
    (let n : Fin 32 := 3; let part := (1 : Nat); let s := served fun d => (let d := { d with bst := { d.bst with todo := [(3, 1)] } }; let d := d.put (pwrCl n) .PWR_CL_STAT_STATE 2; d); (s.d.clkState = 2) ∧ ((∀ x ∈ s.d.bst.todo, x.1 ≠ 32)) ∧ (s.d.bst.todo.find? (fun x => x.1 == n.val) = some (n.val, part)) ∧ (s.d.bstMay n = true) ∧ ((∀ k, k < n.val → s.d.bstMay k = false)) ∧ (s.d.get bstB .BST_STAT_RUNNING < s.d.bstMaxPar) ∧ (s.d.clState n = 2 ∨ s.d.clState n = 3) ∧ (s.d.present n = true) ∧ ((∀ w ∈ s.d.pow.queue ++ s.d.pow.prog, w.cl ≠ n.val))) ∧
    (let s := served fun d => (let d := { d with bst := { d.bst with todo := [(32, 0)] } }; let d := d.put bstB .BST_STAT_TEST 1; let d := { d with bst := { d.bst with todo := [(32, 0)] } }; d); let test := s.d.get bstB .BST_STAT_TEST; (s.d.clkState = 2) ∧ (s.d.bst.todo = [(32, 0)]) ∧ (s.d.bstPre test 32 0 = true) ∧ (34 ∉ s.d.thm.warn) ∧ (35 ∉ s.d.thm.warn) ∧ (s.d.get bstB .BST_STAT_RUNNING < s.d.bstMaxPar)) ∧
    (let s : State := served; (s.d.clkState ≠ 2 ∨ s.d.bst.todo = [] ∨ s.d.bstMaxPar ≤ s.d.get bstB .BST_STAT_RUNNING)) ∧
    (let n : Fin 32 := 3; let b : BSlice := (⟨2, 1, 5, false⟩ : BSlice); let s := served fun d => (let d := d.setClu n { d.clu n with bst := (some b) }; d); (s.d.bst.ref = none) ∧ ((s.d.clu n).bst = some b) ∧ ((s.d.clu n).rstWait = false) ∧ (b.test ≤ 8) ∧ (b.part < 4)) ∧
    (let n : Fin 32 := 3; let b : BSlice := (⟨2, 1, 5, true⟩ : BSlice); let o : BstOut := ({ words := [1, 2, 3], rows := [], spares := [], det := 0x10 } : BstOut); let en := Config.bstSteps b.test b.part % 2 ^ 32; let s := served fun d => (let d := d.setClu n { d.clu n with bst := (some b) }; d); (s.d.bst.ref = none) ∧ ((s.d.clu n).bst = some b) ∧ ((s.d.clu n).rstWait = false) ∧ (b.test ≤ 8) ∧ (b.part < 4) ∧ (b.cut = true ∨ o.words.length < en)) ∧
    (let n : Fin 32 := 3; let b : BSlice := (⟨2, 1, 5, false⟩ : BSlice); let o : BstOut := ({ words := [1, 2, 3], rows := [7], spares := [], det := 0x10 } : BstOut); let el := (0 : Nat); let k := (32 : Nat); let row := (7 : BitVec 16); let sp := (0 : Nat); let s := served fun d => (let d := d.setb bstB .BST_CFG_REPAIR_EN true; let d := { d with fuse := { d.fuse with code := 0 } }; let d := d.setClu n { d.clu n with bst := (some b) }; d); (s.d.bst.ref = none) ∧ ((s.d.clu n).bst = some b) ∧ ((s.d.clu n).rstWait = false) ∧ (b.test ≤ 8) ∧ (b.part < 4) ∧ (bstElem b.test = some (el, k)) ∧ (o.rows = [row]) ∧ (o.spares = []) ∧ (s.d.softAllowed = true) ∧ (sp < k) ∧ (s.d.repOf n el sp = none) ∧ ((∀ j, j < sp → s.d.repOf n el j ≠ none))) ∧
    (let n : Fin 32 := 3; let s : State := served; (s.d.bst.ref = none) ∧ ((s.d.clu n).bst = none)) ∧
    (let p : HPort := HPort.pcie; let v : Word := (1 : Word); let key := v.toNat / 256 % 256 = 0x3C ∧ bitOf v.toNat 0 = true; let s : State := served; (s.d.reaches p (bstB + 0x50) = true) ∧ (¬ key)) ∧
    (let p : HPort := HPort.pcie; let v : Word := (0x3C01 : Word); let key := v.toNat / 256 % 256 = 0x3C ∧ bitOf v.toNat 0 = true; let s := served fun d => (let d := { d with fuse := { d.fuse with code := 1 } }; d); (s.d.reaches p (bstB + 0x50) = true) ∧ (key) ∧ (s.d.fuseAllowed = false)) ∧
    (let p : HPort := HPort.pcie; let v : Word := (0x3C01 : Word); let key := v.toNat / 256 % 256 = 0x3C ∧ bitOf v.toNat 0 = true; let s := served fun d => (let d := { d with fuse := { d.fuse with code := 0 } }; let d := d.setClu 3 { d.clu 3 with bst := some { test := 2, part := 1, t0 := 5 } }; let d := d.put lcsB .LCS_STATE_STATE 3; d); (s.d.reaches p (bstB + 0x50) = true) ∧ (key) ∧ (s.d.fuseAllowed = true) ∧ ((s.d.bstRuns = true ∨ s.d.junctionOk = false))) ∧
    (let p : HPort := HPort.pcie; let v : Word := (0x3C01 : Word); let key := v.toNat / 256 % 256 = 0x3C ∧ bitOf v.toNat 0 = true; let s := served fun d => (let d := { d with fuse := { d.fuse with code := 0 } }; let d := d.put lcsB .LCS_STATE_STATE 3; d); (s.d.reaches p (bstB + 0x50) = true) ∧ (key) ∧ (s.d.fuseAllowed = true) ∧ (s.d.bstRuns = false) ∧ (s.d.junctionOk = true)) ∧
    (let s := served fun d => (let d := d.put bstB .PG_STAT_STATE 2; let d := d.put bstB .PG_STAT_STATE (2); d); (s.d.get bstB .PG_STAT_STATE = 2) ∧ (s.d.bst.wait = none)) ∧
    (let i : Fin 64 := (0 : Fin 64); let s := served fun d => (let d := d.put bstB .PG_STAT_STATE 2; let d := { d with bst := { d.bst with soft := [{ cl := 3, elem := 2, spare := 0, row := 1 }] } }; let d := d.put bstB .PG_STAT_STATE (2); d); let used := s.d.bst.soft.filter (fun (x : Rep) => x.used); (s.d.get bstB .PG_STAT_STATE = 2) ∧ (s.d.bst.wait = none) ∧ (i.val < used.length)) ∧
    (let s := served fun d => (let d := d.put bstB .PG_STAT_STATE 1; d); (s.d.get bstB .PG_STAT_STATE ≠ 2)) := by
  refine ⟨?_, ?_, ?_, ?_, ?_, ?_, ?_, ?_, ?_, ?_, ?_, ?_, ?_, ?_, ?_, ?_, ?_, ?_, ?_, ?_, ?_⟩ <;> (try dsimp only [Dev.recorded, State.walkAt, Dev.atRoutine, Dev.atWord]) <;> decide +kernel

/-- States and operands that meet the hypotheses of clauses of `Obligations.PerformanceDumps`. -/
theorem witness_PerformanceDumps :
    (let s : State := served; (s.d.dumpOn = false)) ∧
    (let s := served fun d => (let d := d.setb pmcB .PMC_DUMP_CTRL_EN true; let d := d.put pmcB .PMC_DUMP_CTRL_LOG2 2; let d := d.put pmcB .PMC_DUMP_PROD_PROD 4; d); (s.d.dumpOn = true) ∧ (s.d.dumpFull = true)) ∧
    (let s := served fun d => (let d := d.setb pmcB .PMC_DUMP_CTRL_EN true; let d := d.put pmcB .PMC_DUMP_CTRL_LOG2 2; let d := d.put pmcB .PMC_DUMP_BASE_BASE 77; let d := d.put pmcB .PMC_DUMP_PROD_PROD 3; d); (s.d.dumpOn = true) ∧ (s.d.dumpFull = false)) ∧
    (let p : HPort := HPort.pcie; let n : Fin 32 := 3; let s : State := served; (s.d.reaches p (pmccBase n + 0x7C) = true)) ∧
    (let p : HPort := HPort.pcie; let v : Word := (0 : Word); let s : State := served; let prod := s.d.get pmcB .PMC_DUMP_PROD_PROD; (s.d.reaches p (pmcB + 0x5C) = true) ∧ ((prod + 2 ^ 32 - v.toNat) % 2 ^ 32 ≤ 2 ^ s.d.dumpLog)) ∧
    (let p : HPort := HPort.pcie; let v : Word := (1 : Word); let s : State := served; let prod := s.d.get pmcB .PMC_DUMP_PROD_PROD; (s.d.reaches p (pmcB + 0x5C) = true) ∧ (2 ^ s.d.dumpLog < (prod + 2 ^ 32 - v.toNat) % 2 ^ 32)) := by
  refine ⟨?_, ?_, ?_, ?_, ?_, ?_⟩ <;> (try dsimp only [Dev.recorded, State.walkAt, Dev.atRoutine, Dev.atWord]) <;> decide +kernel

/-- States and operands that meet the hypotheses of clauses of `Obligations.ClusterResets`. -/
theorem witness_ClusterResets :
    (let p : HPort := HPort.pcie; let n : Fin 32 := 3; let v : Word := (8 : Word); let s : State := served; (s.d.reaches p (glbB + 0x50) = true) ∧ (v.toNat = 2 ^ n.val) ∧ (s.d.present n = true) ∧ (s.d.bitN glbB .GLB_CL_RST_BUSY_CLUSTER n = false) ∧ (s.d.clBusy n = false) ∧ ((s.d.clu n).bst = none) ∧ (s.d.forced n = false)) ∧
    (let p : HPort := HPort.pcie; let n : Fin 32 := 3; let v : Word := (8 : Word); let s := served fun d => (let d := d.put (ctxBase 100) .CTX_STATE_STATE 3; let d := d.setCx 100 { d.cx 100 with hdr := some { tv := 5000, slots := 1 }, site := [100] }; d); (s.d.reaches p (glbB + 0x50) = true) ∧ (v.toNat = 2 ^ n.val) ∧ (s.d.present n = true) ∧ (s.d.bitN glbB .GLB_CL_RST_BUSY_CLUSTER n = false) ∧ (s.d.clBusy n = true)) ∧
    (let p : HPort := HPort.pcie; let n : Fin 32 := 3; let v : Word := (8 : Word); let s := served fun d => (let d := d.setClu n { d.clu n with bst := some { test := 2, part := 1, t0 := 5 } }; d); (s.d.reaches p (glbB + 0x50) = true) ∧ (v.toNat = 2 ^ n.val) ∧ (s.d.present n = true) ∧ (s.d.bitN glbB .GLB_CL_RST_BUSY_CLUSTER n = false) ∧ (s.d.clBusy n = false) ∧ ((s.d.clu n).bst ≠ none)) ∧
    (let p : HPort := HPort.pcie; let n : Fin 32 := 3; let v : Word := (8 : Word); let s := served fun d => (let d := d.setBitN glbB .GLB_CL_RST_BUSY_CLUSTER n true; d); (s.d.reaches p (glbB + 0x50) = true) ∧ (v.toNat = 2 ^ n.val) ∧ (s.d.present n = false ∨ s.d.bitN glbB .GLB_CL_RST_BUSY_CLUSTER n = true)) ∧
    (let n : Fin 32 := 3; let s := served fun d => (let d := d.setBitN glbB .GLB_CL_RST_BUSY_CLUSTER n true; d); (s.d.bitN glbB .GLB_CL_RST_BUSY_CLUSTER n = true) ∧ ((s.d.clu n).rstWait = false) ∧ (s.d.hif.held = [])) ∧
    (let n : Fin 32 := 3; let s : State := served; (s.d.bitN glbB .GLB_CL_RST_BUSY_CLUSTER n = false)) ∧
    (let s : State := served; (s.d.bit clkB .CLK_STAT_MTB_LOCK = true) ∧ (s.d.rst.perst = false) ∧ (s.d.pow.stop = false) ∧ (s.d.clkState ≤ 2)) ∧
    (let s := served fun d => (let d := d.setb clkB .CLK_STAT_MTB_LOCK false; d); (s.d.bit clkB .CLK_STAT_MTB_LOCK = false ∨ s.d.rst.perst = true)) := by
  refine ⟨?_, ?_, ?_, ?_, ?_, ?_, ?_, ?_⟩ <;> (try dsimp only [Dev.recorded, State.walkAt, Dev.atRoutine, Dev.atWord]) <;> decide +kernel

/-- States and operands that meet the hypotheses of clauses of `Obligations.LifeCycle`. -/
theorem witness_LifeCycle :
    (let p : HPort := HPort.pcie; let s := served fun d => (let d := d.put lcsB .LCS_STATE_STATE 4; let d := d.put lcsB .LCS_STATE_STATE (0); d); let st := s.d.lcsState; (s.d.reaches p (lcsB + 0x44) = true) ∧ (s.d.bit lcsB .LCS_STAT_BUSY = false) ∧ (st = 0 ∨ st = 4)) ∧
    (let p : HPort := HPort.pcie; let s := served fun d => (let d := d.put lcsB .LCS_STATE_STATE 1; let d := d.setb lcsB .LCS_STAT_LOCKOUT true; d); let st := s.d.lcsState; (s.d.reaches p (lcsB + 0x44) = true) ∧ (s.d.bit lcsB .LCS_STAT_BUSY = false) ∧ (st ≠ 0) ∧ (st ≠ 4) ∧ (s.d.bit lcsB .LCS_STAT_LOCKOUT = true)) ∧
    (let p : HPort := HPort.pcie; let s := served fun d => (let d := d.put lcsB .LCS_STATE_STATE 1; d); let st := s.d.lcsState; (s.d.reaches p (lcsB + 0x44) = true) ∧ (s.d.bit lcsB .LCS_STAT_BUSY = false) ∧ (st ≠ 0) ∧ (st ≠ 4) ∧ (s.d.bit lcsB .LCS_STAT_LOCKOUT = false) ∧ (s.d.lcs.failT = none)) ∧
    (let p : HPort := HPort.pcie; let t := (5 : Nat); let s := served fun d => (let d := d.put lcsB .LCS_STATE_STATE 1; let d := { d with lcs := { d.lcs with failT := some 5, failOld := false } }; d); let st := s.d.lcsState; (s.d.reaches p (lcsB + 0x44) = true) ∧ (s.d.bit lcsB .LCS_STAT_BUSY = false) ∧ (st ≠ 0) ∧ (st ≠ 4) ∧ (s.d.bit lcsB .LCS_STAT_LOCKOUT = false) ∧ (s.d.lcs.failT = some t) ∧ (s.d.lcs.failOld = false) ∧ (s.d.bit clkB .CLK_STAT_MTB_LOCK = true) ∧ (s.d.time < t + 1000000 * usFine)) ∧
    (let p : HPort := HPort.pcie; let t := (5 : Nat); let s := served fun d => (let d := d.put lcsB .LCS_STATE_STATE 1; let d := { d with lcs := { d.lcs with failT := some 5, failOld := false } }; let d := { d with time := 5000000000000 }; d); let st := s.d.lcsState; (s.d.reaches p (lcsB + 0x44) = true) ∧ (s.d.bit lcsB .LCS_STAT_BUSY = false) ∧ (st ≠ 0) ∧ (st ≠ 4) ∧ (s.d.bit lcsB .LCS_STAT_LOCKOUT = false) ∧ (s.d.lcs.failT = some t) ∧ (s.d.lcs.failOld = false) ∧ (s.d.bit clkB .CLK_STAT_MTB_LOCK = true) ∧ (t + 1000000 * usFine ≤ s.d.time)) ∧
    (let p : HPort := HPort.pcie; let s := served fun d => (let d := d.put lcsB .LCS_STATE_STATE 1; d); let st := s.d.lcsState; (s.d.reaches p (lcsB + 0x44) = true) ∧ (s.d.bit lcsB .LCS_STAT_BUSY = false) ∧ (st ≠ 0) ∧ (st ≠ 4) ∧ (s.d.bit lcsB .LCS_STAT_CHAL_VALID = false)) ∧
    (let p : HPort := HPort.pcie; let s := served fun d => (let d := { d with lcs := { d.lcs with session := true } }; d); (s.d.reaches p (lcsB + 0x44) = true) ∧ (s.d.bit lcsB .LCS_STAT_BUSY = false) ∧ (s.d.lcs.session = true)) ∧
    (let p : HPort := HPort.pcie; let s : State := served; (s.d.reaches p (lcsB + 0x44) = true) ∧ (s.d.bit lcsB .LCS_STAT_BUSY = false) ∧ (s.d.lcs.session = false)) ∧
    (let p : HPort := HPort.pcie; let s := served fun d => (let d := d.put lcsB .LCS_STATE_STATE 4; let d := d.put lcsB .LCS_STATE_STATE (4); d); let st := s.d.lcsState; (s.d.reaches p (lcsB + 0x44) = true) ∧ (s.d.bit lcsB .LCS_STAT_BUSY = false) ∧ (st = 4)) ∧
    (let p : HPort := HPort.pcie; let t : BitVec 4 := (3 : BitVec 4); let s := served fun d => (let d := d.put lcsB .LCS_STATE_STATE 1; d); let st := s.d.lcsState; (s.d.reaches p (lcsB + 0x44) = true) ∧ (s.d.bit lcsB .LCS_STAT_BUSY = false) ∧ (st ≠ 4) ∧ (s.d.advOk t.toNat = false)) ∧
    (let p : HPort := HPort.pcie; let t : BitVec 4 := (2 : BitVec 4); let s := served fun d => (let d := d.put lcsB .LCS_STATE_STATE 1; let d := { d with fuse := { d.fuse with life := 1 } }; let d := { d with bst := { d.bst with ref := some { test := 1, part := 0, t0 := 5 } } }; d); let st := s.d.lcsState; (s.d.reaches p (lcsB + 0x44) = true) ∧ (s.d.bit lcsB .LCS_STAT_BUSY = false) ∧ (st ≠ 4) ∧ (s.d.advOk t.toNat = true) ∧ (s.d.bstRuns = true ∨ s.d.junctionOk = false ∨ (t = 1 ∧ s.d.fuse.key = false))) ∧
    (let p : HPort := HPort.pcie; let t : BitVec 4 := (2 : BitVec 4); let s := served fun d => (let d := d.put lcsB .LCS_STATE_STATE 1; let d := { d with fuse := { d.fuse with life := 1 } }; d); let st := s.d.lcsState; (s.d.reaches p (lcsB + 0x44) = true) ∧ (s.d.bit lcsB .LCS_STAT_BUSY = false) ∧ (st ≠ 4) ∧ (s.d.advOk t.toNat = true) ∧ (s.d.bstRuns = false) ∧ (s.d.junctionOk = true) ∧ ((t = 1 → s.d.fuse.key = true))) ∧
    (let t := (4 : Nat); let s := served fun d => (let d := { d with lcs := { d.lcs with adv := some t } }; d); (s.d.lcs.adv = some t)) ∧
    (let s : State := served; (s.d.lcs.adv = none)) ∧
    (let s : State := served; (s.d.jtagUp = true)) ∧
    (let s := served fun d => (let d := d.put clkB .PG_STAT_STATE 4; d); (s.d.jtagUp = false)) ∧
    (let w : Fin 8 := (1 : Fin 8); let off : BitVec 12 := (0x84 : BitVec 12); (off.toNat = 0x80 + 4 * w.val)) ∧
    (let s : State := served; (s.d.bit lcsB .PG_STAT_GATED = false)) := by
  refine ⟨?_, ?_, ?_, ?_, ?_, ?_, ?_, ?_, ?_, ?_, ?_, ?_, ?_, ?_, ?_, ?_, ?_, ?_⟩ <;> (try dsimp only [Dev.recorded, State.walkAt, Dev.atRoutine, Dev.atWord]) <;> decide +kernel

/-- States and operands that meet the hypotheses of clauses of `Obligations.SerialPort`. -/
theorem witness_SerialPort :
    (let s := served fun d => (let d := d.put clkB .PG_STAT_STATE 1; d); (s.d.mspSlave = true) ∧ (s.d.mspBusy = true) ∧ (s.d.msp.cmd = none)) ∧
    (let op := fun (w : Word) => w.toNat / 2 ^ 28; let w : Word := (0 : Word); let s : State := served; let idle := s.d.mspBusy = false ∧ s.d.msp.cmd = none ∧ s.d.msp.master = none ∧ s.d.msp.srst = false; (s.d.mspSlave = true) ∧ (idle) ∧ (op w = 0)) ∧
    (let op := fun (w : Word) => w.toNat / 2 ^ 28; let w : Word := (0x40000000 : Word); let s : State := served; let idle := s.d.mspBusy = false ∧ s.d.msp.cmd = none ∧ s.d.msp.master = none ∧ s.d.msp.srst = false; (s.d.mspSlave = true) ∧ (idle) ∧ (4 ≤ op w)) ∧
    (let op := fun (w : Word) => w.toNat / 2 ^ 28; let w : Word := (0x10003040 : Word); let kind := kindAt (w.toNat % 2 ^ 24); let base := baseAt (w.toNat % 2 ^ 24); let off := offAt (w.toNat % 2 ^ 24); let row := rowOf (base + off); let s : State := served; let idle := s.d.mspBusy = false ∧ s.d.msp.cmd = none ∧ s.d.msp.master = none ∧ s.d.msp.srst = false; (s.d.mspSlave = true) ∧ (idle) ∧ (op w = 1) ∧ (w.toNat / 2 ^ 24 % 16 = 0) ∧ (w.toNat % 4 = 0) ∧ (areaOf (w.toNat % 2 ^ 24) = .page kind base off) ∧ (0x40 ≤ off) ∧ (rowAt kind base off = some (row, false)) ∧ (row.wide = false) ∧ (row.snap = 0) ∧ (¬ (kind = .pin ∧ off = 0x318)) ∧ (kind ≠ .msp) ∧ (s.d.clkState = 2) ∧ (s.d.pow.stop = false) ∧ (s.d.pageOpen (w.toNat % 2 ^ 24) = true) ∧ (s.d.heldNow (w.toNat % 2 ^ 24) = false)) ∧
    (let c := (0x10003040 : Nat); let x := (5 : Nat); let xs := ([6, 7] : List Nat); let s := served fun d => (let d := { d with msp := { d.msp with cmd := some 0x10003040, rd := [5, 6, 7] } }; d); (s.d.mspSlave = true) ∧ (s.d.msp.cmd = some c) ∧ (c / 2 ^ 28 = 1) ∧ (s.d.msp.rd = x :: xs) ∧ (xs ≠ [])) ∧
    (let c := (0x10003040 : Nat); let s := served fun d => (let d := { d with msp := { d.msp with cmd := some 0x10003040, rd := [] } }; d); (s.d.mspSlave = true) ∧ (s.d.msp.cmd = some c) ∧ (c / 2 ^ 28 = 1) ∧ (s.d.msp.rd = [])) ∧
    (let op := fun (w : Word) => w.toNat / 2 ^ 28; let w : Word := BitVec.ofNat 32 (0x20000000 + pwrB + 0x54); let s : State := served; let idle := s.d.mspBusy = false ∧ s.d.msp.cmd = none ∧ s.d.msp.master = none ∧ s.d.msp.srst = false; (s.d.mspSlave = true) ∧ (idle) ∧ (op w = 2) ∧ (w.toNat / 2 ^ 24 % 16 = 0) ∧ (w.toNat % 2 ^ 24 = pwrB + 0x54) ∧ (s.d.clkState = 2) ∧ (s.d.pow.stop = false) ∧ (s.d.pageOpen (pwrB + 0x54) = true) ∧ (s.d.heldNow (pwrB + 0x54) = false)) ∧
    (let op := fun (w : Word) => w.toNat / 2 ^ 28; let w : Word := (0x21003040 : Word); let s : State := served; let idle := s.d.mspBusy = false ∧ s.d.msp.cmd = none ∧ s.d.msp.master = none ∧ s.d.msp.srst = false; (s.d.mspSlave = true) ∧ (idle) ∧ (op w = 2) ∧ (w.toNat / 2 ^ 24 % 16 = 1) ∧ (w.toNat % 4 = 0) ∧ (w.toNat % 2 ^ 24 < 0xFFFFF0) ∧ (s.d.clkState = 2) ∧ (s.d.pow.stop = false)) ∧
    (let op := fun (w : Word) => w.toNat / 2 ^ 28; let w : Word := (0x3000A55A : Word); let s : State := served; let idle := s.d.mspBusy = false ∧ s.d.msp.cmd = none ∧ s.d.msp.master = none ∧ s.d.msp.srst = false; (s.d.mspSlave = true) ∧ (idle) ∧ (op w = 3) ∧ (w.toNat % 2 ^ 24 = 0xA55A) ∧ (s.d.pow.stop = false)) ∧
    (let op := fun (w : Word) => w.toNat / 2 ^ 28; let w : Word := (0x3000A55A : Word); let s := served fun d => (let d := { d with pow := { d.pow with stop := true } }; let d := { d with pow := { d.pow with stop := true } }; d); let idle := s.d.mspBusy = false ∧ s.d.msp.cmd = none ∧ s.d.msp.master = none ∧ s.d.msp.srst = false; (s.d.mspSlave = true) ∧ (idle) ∧ (op w = 3) ∧ (w.toNat % 2 ^ 24 = 0xA55A) ∧ (s.d.pow.stop = true) ∧ (s.d.lcs.adv = none) ∧ (s.d.get bstB .PG_STAT_STATE ≠ 2)) ∧
    (let s : State := served; (s.d.mspSlave = true) ∧ (s.d.msp.master = none) ∧ (s.d.msp.srst = false) ∧ ((∀ c, s.d.msp.cmd = some c → c < 2 ^ 32))) ∧
    (let c := (0x10003040 : Nat); let s := served fun d => (let d := { d with msp := { d.msp with cmd := some 0x10003040 } }; d); (s.d.mspSlave = true) ∧ (s.d.msp.cmd = some c) ∧ (c < 2 ^ 32) ∧ (s.d.msp.master = none) ∧ (s.d.msp.srst = false)) ∧
    (let s : State := served; (s.d.mspSlave = true) ∧ (s.d.msp.cmd = none)) ∧
    (let p : HPort := HPort.pcie; let s : State := served; (s.d.reaches p (mspB + 0x40) = true) ∧ (p = .pcie) ∧ (s.d.msp.cmd = none)) ∧
    (let p : HPort := HPort.msp; let s : State := served; (s.d.reaches p (mspB + 0x40) = true) ∧ (p = .msp) ∧ (s.d.msp.cmd = none) ∧ (s.d.msp.srst = false)) ∧
    (let p : HPort := HPort.pcie; let s := served fun d => (let d := { d with msp := { d.msp with cmd := some 0x10003040 } }; d); (s.d.reaches p (mspB + 0x40) = true) ∧ (s.d.msp.cmd ≠ none)) ∧
    (let p : HPort := HPort.pcie; let s := served fun d => (let d := d.setb mspB .MSP_M_CTRL_BUSY true; d); (s.d.reaches p (mspB + 0x60) = true) ∧ (s.d.bit mspB .MSP_M_CTRL_BUSY = true)) ∧
    (let p : HPort := HPort.pcie; let s := served fun d => (let d := d.setb mspB .MSP_CFG_MASTER true; d); (s.d.reaches p (mspB + 0x60) = true) ∧ (s.d.bit mspB .MSP_M_CTRL_BUSY = false) ∧ (s.d.bit mspB .MSP_CFG_MASTER = true) ∧ (s.d.clkState = 2)) ∧
    (let p : HPort := HPort.pcie; let s : State := served; (s.d.reaches p (mspB + 0x60) = true) ∧ (s.d.bit mspB .MSP_M_CTRL_BUSY = false) ∧ (s.d.bit mspB .MSP_CFG_MASTER = false)) ∧
    (let p : HPort := HPort.msp; let s := served fun d => (let d := d.setb mspB .MSP_CFG_MASTER true; let d := d.put clkB .PG_STAT_STATE (3); d); (s.d.reaches p (mspB + 0x60) = true) ∧ (s.d.bit mspB .MSP_M_CTRL_BUSY = false) ∧ (s.d.bit mspB .MSP_CFG_MASTER = true) ∧ (s.d.clkState = 3)) ∧
    (let s := served fun d => (let d := d.put mspB .MSP_M_CTRL_BITS 16; let d := d.setb mspB .MSP_M_CTRL_BUSY true; d); (s.d.bit mspB .MSP_M_CTRL_BUSY = true)) ∧
    (let s : State := served; (s.d.bit mspB .MSP_M_CTRL_BUSY = false)) ∧
    (let s := served fun d => (let d := { d with msp := { d.msp with sel := some 1 } }; let d := d.setb mspB .MSP_CFG_MASTER true; d); (s.d.bit mspB .MSP_CFG_MASTER = true) ∧ (s.d.msp.sel ≠ some 0)) ∧
    (let s : State := served; (s.d.bit mspB .MSP_CFG_MASTER = false ∨ s.d.msp.sel = some 0)) := by
  refine ⟨?_, ?_, ?_, ?_, ?_, ?_, ?_, ?_, ?_, ?_, ?_, ?_, ?_, ?_, ?_, ?_, ?_, ?_, ?_, ?_, ?_, ?_, ?_, ?_⟩ <;> (try dsimp only [Dev.recorded, State.walkAt, Dev.atRoutine, Dev.atWord]) <;> decide +kernel

/-- States and operands that meet the hypotheses of clauses of `Obligations.LegacyWindow`. -/
theorem witness_LegacyWindow :
    (let p : HPort := HPort.pcie; let off : BitVec 16 := (BitVec.ofNat 16 (0x1500 + 16)); let ch : Fin 16 := (5 : Fin 16); let base := 0x1000 + 0x100 * ch.val; let low := fun (k : Nat) => off.toNat = base + 8 * k; let k := (2 : Nat); let s : State := served; (s.d.reaches p (z64B + off.toNat) = true) ∧ (s.d.present 0 = true) ∧ (s.d.txnOpen = false) ∧ (k < 5) ∧ (low k)) ∧
    (let p : HPort := HPort.pcie; let off : BitVec 16 := (BitVec.ofNat 16 (0x1500 + 40)); let ch : Fin 16 := (5 : Fin 16); let base := 0x1000 + 0x100 * ch.val; let low := fun (k : Nat) => off.toNat = base + 8 * k; let s : State := served; (s.d.reaches p (z64B + off.toNat) = true) ∧ (s.d.present 0 = true) ∧ (s.d.txnOpen = false) ∧ (low 5)) ∧
    (let p : HPort := HPort.pcie; let off : BitVec 16 := (BitVec.ofNat 16 (0x1500 + 20)); let ch : Fin 16 := (5 : Fin 16); let base := 0x1000 + 0x100 * ch.val; let high := fun (k : Nat) => off.toNat = base + 8 * k + 4; let k := (2 : Nat); let s : State := served; let g := 16 * s.d.z64.bank + ch.val; let b := pinBase g; let ready := g < 128 ∧ s.d.bit b .PG_STAT_SELFTEST = false ∧ s.d.bit b .PG_STAT_GATED = false ∧ s.d.bit b .PG_CTRL_SRST = false ∧ s.d.bitN glbB .GLB_CL_RST_BUSY_CLUSTER (g / 32) = false; (s.d.reaches p (z64B + off.toNat) = true) ∧ (s.d.present 0 = true) ∧ (s.d.txnOpen = false) ∧ (k < 5) ∧ (high k) ∧ (ready) ∧ (s.d.z64Lo g k < 2 ^ 16)) ∧
    (let p : HPort := HPort.pcie; let off : BitVec 16 := (BitVec.ofNat 16 (0x1500 + 44)); let ch : Fin 16 := (5 : Fin 16); let base := 0x1000 + 0x100 * ch.val; let high := fun (k : Nat) => off.toNat = base + 8 * k + 4; let s : State := served; let g := 16 * s.d.z64.bank + ch.val; let b := pinBase g; let ready := g < 128 ∧ s.d.bit b .PG_STAT_SELFTEST = false ∧ s.d.bit b .PG_STAT_GATED = false ∧ s.d.bit b .PG_CTRL_SRST = false ∧ s.d.bitN glbB .GLB_CL_RST_BUSY_CLUSTER (g / 32) = false; (s.d.reaches p (z64B + off.toNat) = true) ∧ (s.d.present 0 = true) ∧ (s.d.txnOpen = false) ∧ (high 5) ∧ (ready)) ∧
    (let p : HPort := HPort.pcie; let off : BitVec 16 := (BitVec.ofNat 16 (0x1500 + 16)); let ch : Fin 16 := (5 : Fin 16); let base := 0x1000 + 0x100 * ch.val; let low := fun (k : Nat) => off.toNat = base + 8 * k; let k := (2 : Nat); let s : State := served; let g := 16 * s.d.z64.bank + ch.val; let b := pinBase g; let ready := g < 128 ∧ s.d.bit b .PG_STAT_SELFTEST = false ∧ s.d.bit b .PG_STAT_GATED = false ∧ s.d.bit b .PG_CTRL_SRST = false ∧ s.d.bitN glbB .GLB_CL_RST_BUSY_CLUSTER (g / 32) = false; (s.d.reaches p (z64B + off.toNat) = true) ∧ (s.d.present 0 = true) ∧ (s.d.txnOpen = false) ∧ (k < 6) ∧ (low k) ∧ (ready)) ∧
    (let p : HPort := HPort.pcie; let off : BitVec 16 := (BitVec.ofNat 16 (0x1500 + 20)); let ch : Fin 16 := (5 : Fin 16); let base := 0x1000 + 0x100 * ch.val; let high := fun (k : Nat) => off.toNat = base + 8 * k + 4; let k := (2 : Nat); let s : State := served; (s.d.reaches p (z64B + off.toNat) = true) ∧ (s.d.present 0 = true) ∧ (s.d.txnOpen = false) ∧ (k < 6) ∧ (high k)) ∧
    (let p : HPort := HPort.pcie; let off : BitVec 16 := (BitVec.ofNat 16 (0x1500 + 0x34)); let v : Word := (200 : Word); let ch : Fin 16 := (5 : Fin 16); let base := 0x1000 + 0x100 * ch.val; let j := (1 : Nat); let s : State := served; let g := 16 * s.d.z64.bank + ch.val; let b := pinBase g; let ready := g < 128 ∧ s.d.bit b .PG_STAT_SELFTEST = false ∧ s.d.bit b .PG_STAT_GATED = false ∧ s.d.bit b .PG_CTRL_SRST = false ∧ s.d.bitN glbB .GLB_CL_RST_BUSY_CLUSTER (g / 32) = false; (s.d.reaches p (z64B + off.toNat) = true) ∧ (s.d.present 0 = true) ∧ (s.d.txnOpen = false) ∧ (j < 3) ∧ (off.toNat = base + 0x30 + 4 * j) ∧ (ready) ∧ (v.toNat % 2 ^ 16 ≤ 255)) ∧
    (let p : HPort := HPort.pcie; let off : BitVec 16 := (BitVec.ofNat 16 (0x1500 + 0x34)); let v : Word := (300 : Word); let ch : Fin 16 := (5 : Fin 16); let base := 0x1000 + 0x100 * ch.val; let j := (1 : Nat); let s : State := served; let g := 16 * s.d.z64.bank + ch.val; let b := pinBase g; let ready := g < 128 ∧ s.d.bit b .PG_STAT_SELFTEST = false ∧ s.d.bit b .PG_STAT_GATED = false ∧ s.d.bit b .PG_CTRL_SRST = false ∧ s.d.bitN glbB .GLB_CL_RST_BUSY_CLUSTER (g / 32) = false; (s.d.reaches p (z64B + off.toNat) = true) ∧ (s.d.present 0 = true) ∧ (s.d.txnOpen = false) ∧ (j < 3) ∧ (off.toNat = base + 0x30 + 4 * j) ∧ (ready) ∧ (255 < v.toNat % 2 ^ 16)) ∧
    (let p : HPort := HPort.pcie; let off : BitVec 16 := (0xC : BitVec 16); let v : Word := (2 : Word); let s : State := served; (s.d.reaches p (z64B + off.toNat) = true) ∧ (s.d.present 0 = true) ∧ (s.d.txnOpen = false) ∧ (off = 0xC) ∧ (bitOf v.toNat 0 = false)) ∧
    (let p : HPort := HPort.pcie; let off : BitVec 16 := (0xC : BitVec 16); let v : Word := (1 : Word); let s := served fun d => (let d := (d.setWord (wfgBase 0 + 0xF00) 0x1F).setWord (wfgBase 1 + 0xF00) 0x1F; d); (s.d.reaches p (z64B + off.toNat) = true) ∧ (s.d.present 0 = true) ∧ (s.d.txnOpen = false) ∧ (off = 0xC) ∧ (bitOf v.toNat 0 = true) ∧ ((∀ n, n < 2 → s.d.bit (wfgBase n) .PG_STAT_SELFTEST = false ∧ bitOf (s.d.word (wfgBase n + 0xF00)) 1 = true ∧ s.d.stbHolds n = false ∧ s.d.stbJoin n 2 [] = none ∧ s.d.stbDue n s.d.time = [])) ∧ ((∀ t : Fin 8, s.d.txnWaits t 1 = false)) ∧ (s.d.present 1 = true)) ∧
    (let p : HPort := HPort.pcie; let off : BitVec 16 := (0x10 : BitVec 16); let v : Word := (5 : Word); let s : State := served; (s.d.reaches p (z64B + off.toNat) = true) ∧ (s.d.present 0 = true) ∧ (s.d.txnOpen = false) ∧ (off = 0x10) ∧ (s.d.bit clkB .PG_STAT_SELFTEST = false) ∧ (1 ≤ v.toNat % 16) ∧ (v.toNat % 16 ≤ 8) ∧ (s.d.bit clkB .PG_STAT_GATED = false) ∧ (s.d.vpBusy 0 = false)) ∧
    (let p : HPort := HPort.pcie; let off : BitVec 16 := (0x10 : BitVec 16); let v : Word := (9 : Word); let s : State := served; (s.d.reaches p (z64B + off.toNat) = true) ∧ (s.d.present 0 = true) ∧ (s.d.txnOpen = false) ∧ (off = 0x10) ∧ (s.d.bit clkB .PG_STAT_SELFTEST = false) ∧ (v.toNat % 16 = 0 ∨ 8 < v.toNat % 16)) ∧
    (let p : HPort := HPort.pcie; let off : BitVec 16 := (0x14 : BitVec 16); let v : Word := (37 : Word); let s := served fun d => (let d := d.put (ctxBase (v.toNat % 64)) .CTX_STATE_STATE (2); d); (s.d.reaches p (z64B + off.toNat) = true) ∧ (s.d.present 0 = true) ∧ (s.d.txnOpen = false) ∧ (off = 0x14) ∧ (s.d.bitN glbB .GLB_CL_RST_BUSY_CLUSTER (v.toNat % 64 / 32) = false) ∧ (s.d.ctxState (v.toNat % 64) = 2)) ∧
    (let p : HPort := HPort.pcie; let off : BitVec 16 := (0x14 : BitVec 16); let v : Word := (37 : Word); let s := served fun d => (let d := d.put (ctxBase (v.toNat % 64)) .CTX_STATE_STATE (7); d); (s.d.reaches p (z64B + off.toNat) = true) ∧ (s.d.present 0 = true) ∧ (s.d.txnOpen = false) ∧ (off = 0x14) ∧ (s.d.bitN glbB .GLB_CL_RST_BUSY_CLUSTER (v.toNat % 64 / 32) = false) ∧ (s.d.ctxState (v.toNat % 64) = 7) ∧ (s.d.bit hifB .HIF_ERR_FIRST_VALID = false)) ∧
    (let p : HPort := HPort.pcie; let off : BitVec 16 := (0x14 : BitVec 16); let v : Word := (37 : Word); let s : State := served; (s.d.reaches p (z64B + off.toNat) = true) ∧ (s.d.present 0 = true) ∧ (s.d.txnOpen = false) ∧ (off = 0x14) ∧ (s.d.bitN glbB .GLB_CL_RST_BUSY_CLUSTER (v.toNat % 64 / 32) = false) ∧ (s.d.ctxState (v.toNat % 64) ≠ 2) ∧ (s.d.ctxState (v.toNat % 64) ≠ 7)) ∧
    (let p : HPort := HPort.pcie; let off : BitVec 16 := (BitVec.ofNat 16 (0x1500 + 0x3C)); let v : Word := (0xE : Word); let ch : Fin 16 := (5 : Fin 16); let base := 0x1000 + 0x100 * ch.val; let s : State := served; let g := 16 * s.d.z64.bank + ch.val; let b := pinBase g; let ready := g < 128 ∧ s.d.bit b .PG_STAT_SELFTEST = false ∧ s.d.bit b .PG_STAT_GATED = false ∧ s.d.bit b .PG_CTRL_SRST = false ∧ s.d.bitN glbB .GLB_CL_RST_BUSY_CLUSTER (g / 32) = false; (s.d.reaches p (z64B + off.toNat) = true) ∧ (s.d.present 0 = true) ∧ (s.d.txnOpen = false) ∧ (off.toNat = base + 0x3C) ∧ (ready) ∧ (s.d.bit b .PG_CTRL_EN = bitOf v.toNat 0)) ∧
    (let p : HPort := HPort.pcie; let off : BitVec 16 := (BitVec.ofNat 16 (0x1500 + 0x3C)); let v : Word := (0xD : Word); let ch : Fin 16 := (5 : Fin 16); let base := 0x1000 + 0x100 * ch.val; let s : State := served; let g := 16 * s.d.z64.bank + ch.val; let b := pinBase g; let ready := g < 128 ∧ s.d.bit b .PG_STAT_SELFTEST = false ∧ s.d.bit b .PG_STAT_GATED = false ∧ s.d.bit b .PG_CTRL_SRST = false ∧ s.d.bitN glbB .GLB_CL_RST_BUSY_CLUSTER (g / 32) = false; (s.d.reaches p (z64B + off.toNat) = true) ∧ (s.d.present 0 = true) ∧ (s.d.txnOpen = false) ∧ (off.toNat = base + 0x3C) ∧ (ready) ∧ (s.d.bit b .PG_CTRL_EN = false) ∧ (bitOf v.toNat 0 = true) ∧ ((s.d.pin g).safe = false)) := by
  refine ⟨?_, ?_, ?_, ?_, ?_, ?_, ?_, ?_, ?_, ?_, ?_, ?_, ?_, ?_, ?_, ?_, ?_⟩ <;> (try dsimp only [Dev.recorded, State.walkAt, Dev.atRoutine, Dev.atWord]) <;> decide +kernel

/-- States and operands that meet the hypotheses of clauses of `Obligations.LegacyWindowBlocked`. -/
theorem witness_LegacyWindowBlocked :
    (let p : HPort := HPort.pcie; let a : BitVec 24 := (0x11000 : BitVec 24); let s := served fun d => (let d := d.put (txnReg 2) .TXN_STAT_STATE 1; d); (0x10000 ≤ a.toNat) ∧ (a.toNat < 0x20000) ∧ (a.toNat % 4 = 0) ∧ (s.d.reaches p a.toNat = true) ∧ (s.d.present 0 = true) ∧ (s.d.txnOpen = true)) ∧
    (let p : HPort := HPort.pcie; let a : BitVec 24 := (0x10014 : BitVec 24); let s := served fun d => (let d := d.put (txnReg 2) .TXN_STAT_STATE 1; d); (0x10000 ≤ a.toNat) ∧ (a.toNat < 0x20000) ∧ (a.toNat % 4 = 0) ∧ (s.d.reaches p a.toNat = true) ∧ (s.d.present 0 = true) ∧ (s.d.txnOpen = true) ∧ (a.toNat = 0x10014)) := by
  refine ⟨?_, ?_⟩ <;> (try dsimp only [Dev.recorded, State.walkAt, Dev.atRoutine, Dev.atWord]) <;> decide +kernel

/-- States and operands that meet the hypotheses of clauses of `Obligations.Resets`. -/
theorem witness_Resets :
    (let s : State := served; (s.d.get bstB .PG_STAT_STATE ≠ 2) ∧ (s.d.lcs.adv = none)) ∧
    (let s : State := served; (s.d.get bstB .PG_STAT_STATE ≠ 2) ∧ (s.d.lcs.adv = none) ∧ (s.d.pow.stop = false)) ∧
    (let s : State := served; (s.d.pow.stop = false) ∧ (s.d.rst.perst = false) ∧ (s.d.coldHeld = false)) ∧
    (let s : State := served; (s.d.bit hifB .HIF_LINK_UP = true)) ∧
    (let p : HPort := HPort.pcie; let v : Word := (0xC701 : Word); let s : State := served; (s.d.reaches p (glbB + 0x48) = true) ∧ (v.toNat / 256 % 256 = 0xC7) ∧ (v.toNat % 2 = 1)) ∧
    (let s := served fun d => (let d := { d with rst := { d.rst with busy := some 0 } }; d); (s.d.rst.busy ≠ none) ∧ (s.d.rst.perst = false)) := by
  refine ⟨?_, ?_, ?_, ?_, ?_, ?_⟩ <;> (try dsimp only [Dev.recorded, State.walkAt, Dev.atRoutine, Dev.atWord]) <;> decide +kernel

/-- States and operands that meet the hypotheses of clauses of `Obligations.StagedAndMeasured`. -/
theorem witness_StagedAndMeasured :
    (let a : BitVec 24 := BitVec.ofNat 24 (pinBase 100 + 0x40); let k : Nat := (5 : Nat); let kind : PageKind := kindAt a.toNat; let base : Nat := baseAt a.toNat; let off : Nat := offAt a.toNat; let row : RegRow := rowOf (base + off); let s := served fun d => (let d := (d.put txnB .TXN_CAPTURE_SLOT 5).setb txnB .TXN_CAPTURE_EN true; let d := d.put (txnReg 5) .TXN_STAT_STATE 1; d); (s.d.pcieOk = true) ∧ (s.d.heldNow a.toNat = false) ∧ (s.d.capSlot = some k) ∧ ((s.d.slot k).writes.length < 4096) ∧ ((addrCluster a.toNat).any (fun n => !s.d.present n) = false) ∧ (areaOf a.toNat = .page kind base off) ∧ (s.d.bit base .PG_STAT_SELFTEST = false) ∧ (s.d.bit base .PG_STAT_GATED = false) ∧ (a.toNat % 8 = 0) ∧ (rowAt kind base off = some (row, false)) ∧ (row.txn ≠ 0) ∧ (Nat.land (andNot (fullMask row.wide) row.txn) row.acc = 0)) ∧
    (let k : Fin 8 := (5 : Fin 8); let late : Nat := (3000 : Nat); let s := served fun d => (let d := d.put (txnReg 5) .TXN_STAT_STATE 3; let d := d.setSlot 5 { d.slot 5 with waitT := some 3000 }; let d := { d with time := 900000 }; let d := d.put (txnReg k) .TXN_STAT_STATE (3); let d := d.setSlot k { d.slot k with waitT := (some late) }; d); (s.d.txnState k = 3) ∧ ((s.d.slot k).waitT = some late) ∧ (s.d.txnBlocked k = false) ∧ ((s.d.slot k).writes = [])) ∧
    (let k : Fin 8 := (5 : Fin 8); let late : Nat := (3000 : Nat); let a : Nat := (seqBase 3 + 0x40 : Nat); let mask : Nat := (0xFFFF : Nat); let v : Nat := (0x1234 : Nat); let kind : PageKind := kindAt a; let base : Nat := baseAt a; let off : Nat := offAt a; let row : RegRow := rowOf (base + off); let s := served fun d => (let d := d.put (txnReg 5) .TXN_STAT_STATE 3; let d := d.setSlot 5 { d.slot 5 with waitT := some 3000 }; let d := { d with time := 900000 }; let d := d.setSlot 5 { d.slot 5 with writes := [(a, mask, v)] }; d); (s.d.txnState k = 3) ∧ ((s.d.slot k).waitT = some late) ∧ (s.d.txnBlocked k = false) ∧ ((s.d.slot k).writes = [(a, mask, v)]) ∧ (areaOf a = .page kind base off) ∧ (base + off = a) ∧ (kind ∈ [PageKind.seq, .acq, .tdc]) ∧ (0x40 ≤ off) ∧ (rowAt kind base off = some (row, false)) ∧ (row.wide = false) ∧ (row.w1c = 0) ∧ (row.w1s = 0)) ∧
    (let g : Fin 1024 := 100; let b := pinBase g; let p := HPort.pcie; let s := served fun d => (let d := d.put (pinBase g) .PMU_ADC_CFG_MODE (1); d); (s.d.reaches p (b + 0x230) = true) ∧ (s.d.get b .PMU_ADC_CFG_MODE = 1)) ∧
    (let g : Fin 1024 := 100; let b := pinBase g; let s := served fun d => (let d := d.put (pinBase g) .PMU_STAT_MODE_NOW 2; let d := d.setb (pinBase g) .PMU_ADC_RSTAT_BUSY true; d); (s.d.clState (g / 32) ≤ 2) ∧ (s.d.bit b .PMU_ADC_RSTAT_BUSY = true) ∧ (s.d.get b .PMU_STAT_MODE_NOW ≠ 0) ∧ ((s.d.pmu g).measSw = false) ∧ ((s.d.pmu g).seq ≠ .range)) ∧
    (let g : Fin 1024 := 100; let sw : Bool := true; let s : State := served; (s.d.srcSlice (srcWord 0x28 g (if sw then 17 else 16)) = none)) := by
  refine ⟨?_, ?_, ?_, ?_, ?_, ?_⟩ <;> (try dsimp only [Dev.recorded, State.walkAt, Dev.atRoutine, Dev.atWord]) <;> decide +kernel

end Sys2Proof.Tests
end

section
namespace Sys2Proof.Machine

variable (d : Dev)

/-! ### Accesses that wait for the end of a reset -/

@[simp] theorem Dev.hold_bit (h : HAcc) (b : Nat) (f : Fld) : (d.hold h).bit b f = d.bit b f := rfl

/-- An access through PCI Express that must wait is held before anything else is asked of it, the errors of R33 included. -/
theorem Dev.pcieAcc_held {h : HAcc} (hh : d.heldNow h.addr h.write h.val = true) : d.pcieAcc h = d.hold h := if_pos hh

/-- A REGISTER_WRITE of BAR0 through PCI Express that must wait is held. -/
theorem Dev.tlpWrite_held {a v : Nat} {wide : Bool} (hk : d.pcieOk = true) (hh : d.heldNow a true (v % 2 ^ (if wide then 64 else 32)) = true) :
    d.tlpWrite .pcie a (.bar0 wide) v =
      d.hold { port := .pcie, addr := a, wide := wide, write := true, val := v % 2 ^ (if wide then 64 else 32) } := by
  have hw : d.tlpWrite .pcie a (.bar0 wide) v = d.hostWrite .pcie a wide v := rfl
  rw [hw, Dev.hostWrite, if_pos hk, Dev.pcieAcc_held d hh]

/-! ### A wide write of Z64_START while cluster 1 resets -/

/-- Host accesses are served in NORMAL, no error is captured, and cluster 1 is in a cluster reset (R471). -/
def clusterOneResets : State :=
  { State.reset with d := ((({ State.reset.d with hif := { served := true } }.setb hifB .HIF_LINK_UP true).put clkB .PG_STAT_STATE 2).setBitN glbB
      .GLB_CL_RST_BUSY_CLUSTER 1 true) }

/-- The address of Z64_START, at which an access of 64 bits is not aligned. -/
def z64StartAddr : BitVec 24 := 0x10014

/-- With the data 0 the write names a context of cluster 0, which no reset holds. -/
theorem clusterOneResets_reaches : clusterOneResets.d.reaches .pcie z64StartAddr.toNat = true := by decide +kernel

theorem clusterOneResets_clkState : clusterOneResets.d.clkState = 2 := by decide +kernel

theorem clusterOneResets_pcieOk : clusterOneResets.d.pcieOk = true := by decide +kernel

theorem clusterOneResets_hitOf : clusterOneResets.d.hitOf z64StartAddr.toNat true true = .error .size := by decide +kernel

/-- With the data 32 it names context 32, of cluster 1, and waits for the end of that cluster's reset. -/
theorem clusterOneResets_heldNow : clusterOneResets.d.heldNow z64StartAddr.toNat true 32 = true := by decide +kernel

theorem clusterOneResets_noError : clusterOneResets.d.bit hifB .HIF_ERR_FIRST_VALID = false := by decide +kernel

end Sys2Proof.Machine

open Sys2Proof Sys2Proof.Machine

/-- Refutes O13: a 64-bit write of Z64_START meets SIZE (R32, R33), but whether it waits depends on the context that its data name, while
`Dev.reaches` asks for the data 0. With context 32 named and cluster 1 in reset the write is held, and nothing is logged. -/
theorem not_firstErrorHeld : ¬ Obligations.FirstErrorHeld := by
  unfold Obligations.FirstErrorHeld
  intro h
  obtain ⟨hwrite, _⟩ := h clusterOneResets .pcie z64StartAddr true 32 .size clusterOneResets_reaches clusterOneResets_clkState (by decide)
    clusterOneResets_hitOf
  obtain ⟨t, hexec, _, _, _, hlog, _⟩ := hwrite
  have hheld : t.d.bit hifB .HIF_ERR_FIRST_VALID = false := by
    have hd : t.d = clusterOneResets.d.tlpWrite .pcie z64StartAddr.toNat (.bar0 true) 32 := by cases hexec; rfl
    rw [hd, Dev.tlpWrite_held _ clusterOneResets_pcieOk clusterOneResets_heldNow, Dev.hold_bit, clusterOneResets_noError]
  exact absurd (hlog clusterOneResets_noError).1 (by simp [hheld])
end

section
namespace Sys2Proof.Machine

variable (d : Dev)

/-! ### One read of one register -/

/-- A read of one 32-bit register, where the access reaches it, gives out the value that the register's own read returns (R36). -/
theorem Dev.hostRead_reaches {p : HPort} {a : Nat} {kind : PageKind} {base off : Nat} {row : RegRow} (h : d.reaches p a = true)
    (ha : areaOf a = .page kind base off) (hr : rowAt kind base off = some (row, false)) (hw : row.wide = false) (h4 : a % 4 = 0)
    (hs : ¬ (kind.header ∧ off = 0x24)) :
    d.hostRead p a false =
      (((d.clean p).regRead kind base off row).1.leave p).emit (.read p ((d.clean p).regRead kind base off row).2) := by
  obtain ⟨hport, hopen⟩ := (d.reaches_iff p a).mp h
  have hopen' : (d.clean p).pageOpen a = true := (d.clean_pageOpen p a).trans hopen
  have hread : (d.clean p).readAcc p a false = (d.clean p).regRead kind base off row := by
    simp only [Dev.readAcc, Dev.hitOf_page _ hopen' ha hr hw h4, Dev.readReg, Dev.gateAccess_open _ hopen' ha, if_neg hs,
      Bool.false_eq_true, if_false, hw, true_or, if_true]
  cases p with
  | pcie =>
    simp only [Dev.portOpen, Bool.and_eq_true, Bool.not_eq_true'] at hport
    obtain ⟨⟨hlink, hheld⟩, _⟩ := hport
    rw [Dev.clean_pcie] at hread
    simp only [Dev.hostRead, hlink, if_true, Dev.pcieAcc, Dev.heldNow_page d _ _ ha, hheld, Bool.false_eq_true, if_false, hread,
      Dev.clean_pcie, Dev.leave]
  | msp =>
    simp only [Dev.portOpen, Bool.and_eq_true, Bool.not_eq_true', Bool.or_eq_true, bne_iff_ne, ne_eq] at hport
    obtain ⟨⟨hport, hheld⟩, hpage⟩ := hport
    have hwait : d.mspHeld a 1 false 0 = false := by simp [Dev.mspHeld, List.range_succ, Dev.heldNow_page d _ _ ha, hheld]
    have hfallback : ¬ (d.clkState = 3 ∧ mspPage a = false) := by rcases hpage with hpage | hpage <;> simp [hpage]
    have hmsp : d.mspRead a = (((d.clean .msp).regRead kind base off row).1.leave .msp, ((d.clean .msp).regRead kind base off row).2) := by
      rw [Dev.mspRead, if_neg hfallback, ← Dev.clean_msp, hread]; rfl
    simp only [Dev.hostRead, hport, if_true, Dev.mspAcc, Option.getD_none, hwait, Bool.false_eq_true, if_false, hmsp]

/-! ### BLOCK and the target state (R401) -/

theorem blockBits_append (l : List Bool) (b : Bool) : blockBits (l ++ [b]) = blockBits l + if b then 2 ^ l.length else 0 := by
  unfold blockBits
  cases b <;> simp [List.zipIdx_append]

/-- BLOCK has one bit for each condition of the list. -/
theorem blockBits_lt (l : List Bool) : blockBits l < 2 ^ l.length := by
  induction l using List.reverseRecOn with
  | nil => decide
  | append_singleton l b ih =>
    rw [blockBits_append, List.length_append, List.length_singleton, Nat.pow_succ]
    split <;> omega

/-- BLOCK is the sum of the bits of the conditions that apply. -/
theorem blockBits_eq_sum (l : List Bool) : blockBits l = ((List.range l.length).map (fun i => if l.getD i false then 2 ^ i else 0)).sum := by
  induction l using List.reverseRecOn with
  | nil => rfl
  | append_singleton l b ih =>
    have hinit : (List.range l.length).map (fun i => if (l ++ [b]).getD i false then 2 ^ i else 0) =
        (List.range l.length).map (fun i => if l.getD i false then 2 ^ i else 0) :=
      List.map_congr_left fun i hi => by rw [List.getD_append _ _ _ _ (List.mem_range.mp hi)]
    rw [blockBits_append, ih, List.length_append, List.length_singleton, List.range_succ, List.map_append, List.sum_append, hinit]
    simp

/-- The rows of R401 for cluster `n`: whether each condition applies, and the deepest state that it allows. -/
def Dev.pwrRows (d : Dev) (n : Nat) : List (Bool × Nat) := (d.pwrBlock n).zip [0, 0, 1, 2, 2, 2, 0]

theorem Dev.pwrRows_fst (n : Nat) : (d.pwrRows n).map Prod.fst = d.pwrBlock n := List.map_fst_zip (Nat.le_refl 7)

theorem Dev.pwrRows_getD_fst (n i : Nat) : ((d.pwrRows n).getD i (false, 0)).1 = (d.pwrBlock n).getD i false := by
  rw [← d.pwrRows_fst n]
  exact (List.getD_map _ (false, 0) Prod.fst).symm

/-- BLOCK as the sum over the rows of R401. -/
theorem Dev.blockBits_pwrBlock (n : Nat) :
    blockBits (d.pwrBlock n) = ((List.range 7).map (fun i => if ((d.pwrRows n).getD i (false, 0)).1 then 2 ^ i else 0)).sum := by
  simp only [Dev.pwrRows_getD_fst]
  exact blockBits_eq_sum (d.pwrBlock n)

/-- The target state is one of RUN, IDLE, NAP and DORMANT. -/
theorem Dev.pwrTarget_le (n : Nat) : d.pwrTarget n ≤ 3 := by
  have hdeep : (if 200000 ≤ d.get (pwrCl n) .PWR_CL_TOL_NS then 3 else if 16000 ≤ d.get (pwrCl n) .PWR_CL_TOL_NS then 2 else 1) ≤ 3 := by
    split
    · decide
    · split <;> decide
  unfold Dev.pwrTarget
  dsimp only
  split
  · exact Nat.le_trans (Nat.min_le_left _ _) hdeep
  · exact hdeep

@[simp] theorem Dev.clean_pwrTarget (p : HPort) (n : Nat) : (d.clean p).pwrTarget n = d.pwrTarget n := by cases p <;> rfl
@[simp] theorem Dev.clean_pwrBlock (p : HPort) (n : Nat) : (d.clean p).pwrBlock n = d.pwrBlock n := by cases p <;> rfl

/-! ### PWR_CL_STAT as it reads -/

/-- The register row of PWR_CL_STAT, one for each cluster. -/
def pwrClStatRow : RegRow := ⟨0x108, 32, 0x10, 1, 0x10, false, 0, 0, 0, 0, 0, 0, 0x1000000⟩

theorem rowAt_pwrClStat (n : Fin 32) : rowAt .pwr pwrB (0x108 + 0x10 * n.val) = some (pwrClStatRow, false) := by
  revert n; decide

theorem areaOf_pwrClStat (n : Fin 32) : areaOf (pwrB + (0x108 + 0x10 * n.val)) = .page .pwr pwrB (0x108 + 0x10 * n.val) :=
  areaOf_global (n := 4) (by decide) (by omega)

/-- The word of PWR_CL_STAT of cluster `n`: TARGET and BLOCK follow their conditions, the other fields are as stored. -/
def Dev.pwrClStat (d : Dev) (n : Nat) : Nat :=
  setBits (setBits (d.word (pwrCl n + 0x108)) 24 4 (d.pwrTarget n)) 0 7 (blockBits (d.pwrBlock n))

@[simp] theorem Dev.clean_pwrClStat (p : HPort) (n : Nat) : (d.clean p).pwrClStat n = d.pwrClStat n := by simp [Dev.pwrClStat]

theorem Dev.live_pwrClStat (n : Fin 32) : d.live .pwr pwrB (0x108 + 0x10 * n.val) = d.pwrClStat n := by
  have ha : pwrB + (0x108 + 0x10 * n.val) = pwrCl n + 0x108 := by unfold pwrCl; omega
  have hn : (0x108 + 0x10 * n.val - 0x100) / 0x10 = n := by omega
  unfold Dev.live Dev.liveBlock
  rw [if_neg (by omega)]
  dsimp only
  rw [if_pos (by omega), ha, hn, Dev.pwrClStat]

theorem Dev.regRead_pwrClStat (n : Fin 32) : d.regRead .pwr pwrB (0x108 + 0x10 * n.val) pwrClStatRow = (d, d.pwrClStat n) := by
  rw [← d.live_pwrClStat n]; rfl

/-- A read of PWR_CL_STAT that reaches it gives its word out and changes nothing but what the port notes. -/
theorem Dev.hostRead_pwrClStat {p : HPort} (n : Fin 32) (h : d.reaches p (pwrB + (0x108 + 0x10 * n.val)) = true) :
    d.hostRead p (pwrB + (0x108 + 0x10 * n.val)) false = (d.clean p).emit (.read p (d.pwrClStat n)) := by
  have h4 : (pwrB + (0x108 + 0x10 * n.val)) % 4 = 0 := by unfold pwrB; omega
  rw [d.hostRead_reaches h (areaOf_pwrClStat n) (rowAt_pwrClStat n) rfl h4 (by omega), Dev.regRead_pwrClStat, Dev.leave_clean, Dev.clean_pwrClStat]

theorem Dev.pwrClStat_lt (n : Nat) : d.pwrClStat n < 2 ^ 32 := setBits_lt (setBits_lt (d.word_lt _) (by decide)) (by decide)

theorem Dev.pwrClStat_target (n : Nat) : d.pwrClStat n / 2 ^ 24 % 2 ^ 4 = d.pwrTarget n := by
  have h := d.pwrTarget_le n
  rw [Dev.pwrClStat, setBits_apart (by decide), setBits_same, Nat.mod_eq_of_lt (by omega)]

theorem Dev.pwrClStat_block (n : Nat) : d.pwrClStat n % 2 ^ 7 = blockBits (d.pwrBlock n) := by
  have hlt : blockBits (d.pwrBlock n) < 2 ^ 7 := blockBits_lt (d.pwrBlock n)
  have hsame := setBits_same (setBits (d.word (pwrCl n + 0x108)) 24 4 (d.pwrTarget n)) 0 7 (blockBits (d.pwrBlock n))
  rwa [Nat.pow_zero, Nat.div_one, Nat.mod_eq_of_lt hlt] at hsame

theorem Dev.pwrClStat_state (n : Nat) : d.pwrClStat n / 2 ^ 28 = d.clState n := by
  have hlt : d.pwrClStat n / 2 ^ 28 < 2 ^ 4 := Nat.div_lt_of_lt_mul (d.pwrClStat_lt n)
  calc d.pwrClStat n / 2 ^ 28
      = d.pwrClStat n / 2 ^ 28 % 2 ^ 4 := (Nat.mod_eq_of_lt hlt).symm
    _ = d.word (pwrCl n + 0x108) / 2 ^ 28 % 2 ^ 4 := by rw [Dev.pwrClStat, setBits_apart (by decide), setBits_apart (by decide)]
    _ = d.clState n := (d.get_narrow (f := .PWR_CL_STAT_STATE) (by decide) (pwrCl n)).symm

end Sys2Proof.Machine

open Sys2Proof Sys2Proof.Machine

/-- Settles O15: a read of PWR_CL_STAT gives out the stored word with TARGET and BLOCK put in, and the rows of the statement are the conditions
of BLOCK beside the limits that TARGET takes from the first that applies. -/
theorem targetState : Obligations.TargetState := by
  unfold Obligations.TargetState
  intro s p a n ha hreach
  rw [Nat.add_assoc] at ha
  rw [ha] at hreach
  have hread : s.d.tlpRead p a.toNat (.bar0 false) = (s.d.clean p).emit (.read p (s.d.pwrClStat n)) := by
    rw [ha]; exact s.d.hostRead_pwrClStat n hreach
  have hout : (s.d.clean p).out = s.d.out := Dev.clean_keeps s.d (fun _ _ => rfl) p
  refine Runs.of_upd (f := fun _ d => d.tlpRead p a.toNat (.bar0 false)) rfl ?_
  rw [hread]
  refine ⟨s.d.pwrClStat n, congrArg (_ :: ·) hout, s.d.pwrClStat_target n, ?_, s.d.pwrClStat_state n⟩
  exact (s.d.pwrClStat_block n).trans (s.d.blockBits_pwrBlock n)
end

section
namespace Sys2Proof.Machine

variable (d : Dev)

/-! ### The log of a detection behind a first fault (R430) -/

section
variable {s : Nat} (cls : Nat) (inj nr : Bool) (h : d.consequential s = false) (hv : d.bit fltB .FLT_FIRST_VALID = true)
include h hv

theorem Dev.fltLog_ovf_set : (d.fltLog s cls inj nr).bit fltB .FLT_OVF_SET = true := by
  rw [d.fltLog_ovf h hv, Dev.irq_bit _ _ _ _ (by decide) (by decide)]
  exact (Dev.put_bit_apart _ _ (by decide)).trans (d.setb_bit true (by decide) (by decide))

theorem Dev.fltLog_ovf_count :
    (d.fltLog s cls inj nr).get fltB .FLT_OVF_COUNT = Nat.min (d.get fltB .FLT_OVF_COUNT + 1) (2 ^ 16 - 1) := by
  rw [d.fltLog_ovf h hv, Dev.irq_get _ _ _ _ (by decide) (by decide), Dev.satInc_get _ (by decide), d.setb_get_apart true (by decide)]
  rfl

/-- FLT_FIRST keeps the first fault. -/
theorem Dev.fltLog_ovf_first : (d.fltLog s cls inj nr).word (fltB + 0x40) = d.word (fltB + 0x40) := by
  rw [d.fltLog_ovf h hv, Dev.irq_word _ _ _ _ (by decide)]
  exact (Dev.put_word_ne' _ _ (by decide) (by decide)).trans (d.put_word_ne' _ (by decide) (by decide))

end

/-! ### Writes of registers whose bits clear by 1 (R8) -/

theorem RegRow.store_w1c_testBit {r : RegRow} (hrw : r.rw = 0) (hs : r.w1s = 0) (old v i : Nat) :
    (r.store old v).testBit i = (old.testBit i && !(v.testBit i && r.w1c.testBit i)) := by
  rw [RegRow.store_testBit, hrw, hs]
  simp

/-- A write that presents none of the bits that clear changes nothing. -/
theorem RegRow.store_w1c_none {r : RegRow} (hrw : r.rw = 0) (hs : r.w1s = 0) (old : Nat) {v : Nat} (hv : Nat.land v r.w1c = 0) : r.store old v = old := by
  apply Nat.eq_of_testBit_eq
  intro i
  have hi : (v.testBit i && r.w1c.testBit i) = false := by rw [← testBit_land, hv, Nat.zero_testBit]
  rw [RegRow.store_w1c_testBit hrw hs, hi, Bool.not_false, Bool.and_true]

theorem Dev.stored_word (row : RegRow) (a v : Nat) : (d.stored row a v).word a = row.store (d.word a) (d.shown row a v) := by
  rw [Dev.stored, Dev.setWord_word]
  exact Nat.mod_eq_of_lt (RegRow.store_lt row (d.word_lt a) (d.shown_lt row a v))

/-- A one-bit field is a bit of its word. -/
theorem Dev.bit_testBit (b : Nat) {f : Fld} (hf : f.narrow) (hn : f.n = 1) : d.bit b f = (d.word (b + f.off)).testBit f.lo := by
  rw [Dev.bit, Dev.get_narrow _ hf, hn, ← bitOf_eq_testBit]
  rfl

/-! ### The end of an access through the MSP -/

theorem Tab.get_dropRange_out {α : Type} (dflt : Nat → α) {lo hi k : Nat} (h : k < lo ∨ hi ≤ k) :
    ∀ t : Tab α, Tab.get dflt (Tab.dropRange t lo hi) k = Tab.get dflt t k
  | [] => rfl
  | (a, v) :: t => by
    have ih := Tab.get_dropRange_out dflt h t
    by_cases hin : lo ≤ a ∧ a < hi
    · have hdrop : Tab.dropRange ((a, v) :: t) lo hi = Tab.dropRange t lo hi := List.filter_cons_of_neg (by simp [hin])
      rw [hdrop, ih, Tab.get_cons, if_neg (by omega)]
    · have hkeep : Tab.dropRange ((a, v) :: t) lo hi = (a, v) :: Tab.dropRange t lo hi := List.filter_cons_of_pos (by simp; omega)
      rw [hkeep, Tab.get_cons, Tab.get_cons, ih]

variable {a : Nat}

theorem Dev.dropWords_word {lo hi : Nat} (h : a < lo ∨ hi ≤ a) : (d.dropWords lo hi).word a = d.word a :=
  congrArg BitVec.toNat (Tab.get_dropRange_out resetWord h d.regs)

/-- The words of other pages stay where a soft reset clears a page (R497). -/
theorem Dev.pageClear_word {base : Nat} (h : a < base ∨ base + 0x1000 ≤ a) : (d.pageClear base).word a = d.word a := by
  have hhdr : ∀ (e : Dev) (o : Nat), o ∈ [0x10, 0x14, 0x1C, 0x28] → (e.setWord (base + o) 0).word a = e.word a := fun e o ho =>
    e.setWord_word_ne 0 (by simp only [List.mem_cons, List.not_mem_nil, or_false] at ho; omega)
  exact (Dev.forAll_word _ hhdr).trans (d.dropWords_word (by omega))

/-- What waited for the end of a frame takes effect in the MSP page alone (R458, R497). -/
theorem Dev.mspEnd_word (h : a < mspB ∨ mspB + 0x1000 ≤ a) : d.mspEnd.word a = d.word a := by
  have hput : ∀ (e : Dev) {f : Fld} (v : Nat), f.off < 0x1000 → f.narrow → (e.put mspB f v).word a = e.word a := fun e f v ho hn =>
    e.put_word_ne' v hn (by omega)
  have hreset : ∀ e : Dev, (((e.srstBody .msp mspB).setb mspB .PG_CTRL_SRST true).setb mspB .PG_STAT_BUSY true).word a = e.word a := fun e =>
    (hput _ _ (by decide) (by decide)).trans ((hput _ _ (by decide) (by decide)).trans (e.pageClear_word h))
  have hsrst : ∀ e : Dev, (if e.msp.srst then ((e.srstBody .msp mspB).setb mspB .PG_CTRL_SRST true).setb mspB .PG_STAT_BUSY true else e).word a = e.word a := by
    intro e
    split
    · exact hreset e
    · rfl
  unfold Dev.mspEnd
  refine (hsrst _).trans ?_
  split
  · exact hput _ _ (by decide) (by decide)
  · rfl

theorem Dev.mspFrameEnd_word (p : HPort) (h : a < mspB ∨ mspB + 0x1000 ≤ a) : (d.mspFrameEnd p).word a = d.word a := by
  unfold Dev.mspFrameEnd
  split
  · exact d.mspEnd_word h
  · rfl

/-! ### A write of FLT_OVF (R430) -/

/-- The register row of FLT_OVF: SET clears by a write of 1, COUNT is read-only. -/
def fltOvfRow : RegRow := ⟨0x50, 1, 0x100000, 1, 0x100000, false, 0, 2 ^ 31, 0, 0, 0, 0, 0⟩

/-- The block after a write of `v` to FLT_OVF, before the access ends: COUNT goes with SET. -/
def Dev.fltOvfWritten (d : Dev) (v : Nat) : Dev :=
  if bitOf v 31 then (d.stored fltOvfRow (fltB + 0x50) v).put fltB .FLT_OVF_COUNT 0 else d.stored fltOvfRow (fltB + 0x50) v

theorem Dev.fltOvf_shown (v : Nat) : bitOf (d.shown fltOvfRow (fltB + 0x50) v) 31 = bitOf v 31 := d.shown_bit fltOvfRow (by decide) (by decide)

theorem Dev.tlpWrite_fltOvf {p : HPort} (v : Nat) (h : d.reaches p (fltB + 0x50) = true) :
    d.tlpWrite p (fltB + 0x50) (.bar0 false) v = (((d.clean p).fltOvfWritten v).leave p).mspFrameEnd p := by
  have hrule : d.hostW p (fltB + 0x50) v = ((d.clean p).fltOvfWritten v).leave p := by
    rw [d.hostW_hook h (areaOf_global (n := 6) (by decide) (by decide)) rfl (row := fltOvfRow) (by decide) rfl rfl (by decide) (by decide),
      Dev.fltOvfWritten, ← d.fltOvf_shown]
    rfl
  exact congrArg (·.mspFrameEnd p) hrule

theorem Dev.tlpWrite_fltOvf_word {p : HPort} (v : Nat) (h : d.reaches p (fltB + 0x50) = true) :
    (d.tlpWrite p (fltB + 0x50) (.bar0 false) v).word (fltB + 0x50) = ((d.clean p).fltOvfWritten v).word (fltB + 0x50) := by
  rw [d.tlpWrite_fltOvf v h, Dev.mspFrameEnd_word _ p (by decide), Dev.leave_word _ p (by decide)]

theorem Dev.fltOvfWritten_set {v : Nat} (hv : bitOf v 31 = true) : (d.fltOvfWritten v).bit fltB .FLT_OVF_SET = false := by
  have hshown : (d.shown fltOvfRow (fltB + 0x50) v).testBit 31 = true := by rw [← bitOf_eq_testBit, d.fltOvf_shown, hv]
  rw [Dev.fltOvfWritten, if_pos hv, Dev.put_bit_apart _ _ (by decide), Dev.bit_testBit _ _ (by decide) rfl]
  show ((d.stored fltOvfRow (fltB + 0x50) v).word (fltB + 0x50)).testBit 31 = false
  rw [Dev.stored_word, RegRow.store_w1c_testBit rfl rfl, hshown, show fltOvfRow.w1c.testBit 31 = true by decide]
  exact Bool.and_false _

theorem Dev.fltOvfWritten_count {v : Nat} (hv : bitOf v 31 = true) : (d.fltOvfWritten v).get fltB .FLT_OVF_COUNT = 0 := by
  rw [Dev.fltOvfWritten, if_pos hv]
  exact Dev.put_get' _ 0 (by decide) (by decide)

theorem Dev.fltOvfWritten_keeps {v : Nat} (hv : bitOf v 31 = false) : (d.fltOvfWritten v).word (fltB + 0x50) = d.word (fltB + 0x50) := by
  have hnone : Nat.land (d.shown fltOvfRow (fltB + 0x50) v) fltOvfRow.w1c = 0 := by
    refine (Nat.and_two_pow _ 31).trans ?_
    rw [← bitOf_eq_testBit, d.fltOvf_shown, hv, Bool.toNat_false, Nat.zero_mul]
  rw [Dev.fltOvfWritten, if_neg (by simp [hv]), Dev.stored_word, RegRow.store_w1c_none rfl rfl _ hnone]

end Sys2Proof.Machine

open Sys2Proof Sys2Proof.Machine

/-- Settles O14: the reaction to a detection leaves the FLT_FIRST and FLT_OVF words as its log wrote them, and a write of FLT_OVF, through
either port, is that register's rule. -/
theorem faultOverflow : Obligations.FaultOverflow := by
  unfold Obligations.FaultOverflow
  intro s p x
  have hrun : ∀ P : Dev → Prop, P (s.d.tlpWrite p (fltB + 0x50) (.bar0 false) x.toNat) → Runs (.registerWrite p 0x6050 (.bar0 false) x) s P :=
    fun P hp => Runs.of_upd (f := fun _ d => d.tlpWrite p (fltB + 0x50) (.bar0 false) x.toNat) rfl hp
  refine ⟨fun hfirst type unit bit own level inj hc => ?_, fun hreach hx => hrun _ ?_, fun hreach hx => hrun _ ?_⟩
  · have hovf := s.d.collectNow_word type unit bit own level inj false (a := fltB + 0x50) (by unfold quiet; decide)
    have hkept := s.d.collectNow_word type unit bit own level inj false (a := fltB + 0x40) (by unfold quiet; decide)
    refine ⟨?_, ?_, ?_⟩
    · exact (Dev.bit_of_word (by decide) hovf).trans (s.d.fltLog_ovf_set _ _ _ hc hfirst)
    · exact (Dev.get_of_word (by decide) hovf).trans (s.d.fltLog_ovf_count _ _ _ hc hfirst)
    · exact hkept.trans (s.d.fltLog_ovf_first _ _ _ hc hfirst)
  · have hword := s.d.tlpWrite_fltOvf_word x.toNat hreach
    exact ⟨(Dev.bit_of_word (by decide) hword).trans (Dev.fltOvfWritten_set _ hx),
      (Dev.get_of_word (by decide) hword).trans (Dev.fltOvfWritten_count _ hx)⟩
  · exact (s.d.tlpWrite_fltOvf_word x.toNat hreach).trans ((Dev.fltOvfWritten_keeps _ hx).trans (s.d.clean_word p _))
end

section
namespace Sys2Proof.Machine

variable (d : Dev)

/-! ### An access of the ZH64 window while a transaction is open (R482) -/

theorem areaOf_z64 {a : Nat} (h1 : 0x10000 ≤ a) (h2 : a < 0x20000) : areaOf a = .z64 (a - 0x10000) := by
  unfold areaOf
  rw [if_neg (by omega), if_pos h2]

theorem addrCluster_z64 {a : Nat} (h2 : a < 0x20000) : addrCluster a = none := by
  unfold addrCluster
  rw [if_neg (by omega), if_neg (by omega), if_neg (by omega)]

/-- The error log of an access of the window has no page of its own: outside FALLBACK it is the HIF's. -/
theorem Dev.logErr_z64 {a : Nat} (h1 : 0x10000 ≤ a) (h2 : a < 0x20000) (hc : d.clkState ≠ 3) (wr : Bool) (c : ErrCause) :
    d.logErr wr c a = { d with msp := { d.msp with accErr := true } }.logHif wr c a := by
  have hc' : ¬ Dev.clkState { d with msp := { d.msp with accErr := true } } = 3 := hc
  simp only [Dev.logErr, areaOf_z64 h1 h2]
  rw [if_neg hc']

/-- The block after an access that meets Z64_BLOCKED, with what port `p` notes of it. -/
def Dev.blocked (d : Dev) (p : HPort) (wr : Bool) (a : Nat) : Dev := ((d.clean p).logErr wr .z64Blocked a).leave p

section
variable {p : HPort} {a : Nat} (h1 : 0x10000 ≤ a) (h2 : a < 0x20000) (h4 : a % 4 = 0) (h0 : d.present 0 = true) (ht : d.txnOpen = true)

include h1 h2 ht in
/-- A blocked access waits for no reset, whatever it carries. -/
theorem Dev.heldNow_blocked (wr : Bool) (v : Nat) : d.heldNow a wr v = false := by
  simp only [Dev.heldNow, areaOf_z64 h1 h2, ht, Bool.not_true, Bool.and_false, Bool.false_and]

include h1 h2 h4 h0 ht in
theorem Dev.hitOf_blocked (wr : Bool) : d.hitOf a false wr = .error .z64Blocked := by
  have hz : d.zErr (a - 0x10000) false wr = some .z64Blocked := by
    rw [Dev.zErr, h0, if_neg (by decide), if_neg (by simp; omega), if_pos ht]
  simp only [Dev.hitOf, addrCluster_z64 h2, areaOf_z64 h1 h2, hz, Option.any_none, Bool.false_eq_true, if_false]

include h1 h2 in
theorem Dev.clkState_of_reaches_z64 (hr : d.reaches p a = true) : d.clkState ≠ 3 := by
  obtain ⟨hport, _⟩ := (d.reaches_iff p a).mp hr
  cases p with
  | pcie =>
    simp only [Dev.portOpen, Dev.pcieOk, Bool.and_eq_true, beq_iff_eq] at hport
    omega
  | msp =>
    have hp : mspPage a = false := by simp only [mspPage, areaOf_z64 h1 h2]
    simp only [Dev.portOpen, hp, Bool.or_false, Bool.and_eq_true, bne_iff_ne] at hport
    obtain ⟨_, hclk⟩ := hport
    exact hclk

include h1 h2 h4 h0 ht

theorem Dev.hostW_blocked (hr : d.reaches p a = true) (v : Nat) : d.hostW p a v = d.blocked p true a := by
  have hclk := d.clkState_of_reaches_z64 h1 h2 hr
  obtain ⟨hport, _⟩ := (d.reaches_iff p a).mp hr
  cases p with
  | pcie =>
    simp only [Dev.portOpen, Bool.and_eq_true] at hport
    obtain ⟨⟨hanswers, _⟩, _⟩ := hport
    simp only [Dev.hostW, Dev.hostWrite, hanswers, if_true, Dev.pcieAcc, d.heldNow_blocked h1 h2 ht, Bool.false_eq_true, if_false, Dev.writeAcc,
      d.hitOf_blocked h1 h2 h4 h0 ht]
    rfl
  | msp =>
    simp only [Dev.portOpen, Bool.and_eq_true] at hport
    obtain ⟨⟨hanswers, _⟩, _⟩ := hport
    have hwait : ∀ v, d.mspHeld a 1 true v = false := fun v => by simp [Dev.mspHeld, List.range_succ, d.heldNow_blocked h1 h2 ht]
    have hwrite : ∀ v, (d.clean .msp).writeAcc .msp a false v = (d.clean .msp).logErr true .z64Blocked a := fun v => by
      rw [Dev.writeAcc, (d.clean .msp).hitOf_blocked h1 h2 h4 h0 ht]
    simp only [Dev.hostW, Dev.hostWrite, hanswers, if_true, Dev.mspAcc, Option.getD_none, hwait, Bool.false_eq_true, if_false, Dev.mspWrite, hclk,
      false_and, ← Dev.clean_msp, hwrite]
    rfl

theorem Dev.hostRead_blocked (hr : d.reaches p a = true) : d.hostRead p a false = (d.blocked p false a).emit (.read p 0) := by
  have hclk := d.clkState_of_reaches_z64 h1 h2 hr
  obtain ⟨hport, _⟩ := (d.reaches_iff p a).mp hr
  cases p with
  | pcie =>
    simp only [Dev.portOpen, Bool.and_eq_true] at hport
    obtain ⟨⟨hanswers, _⟩, _⟩ := hport
    simp only [Dev.hostRead, hanswers, if_true, Dev.pcieAcc, d.heldNow_blocked h1 h2 ht, Bool.false_eq_true, if_false, Dev.readAcc,
      d.hitOf_blocked h1 h2 h4 h0 ht]
    rfl
  | msp =>
    simp only [Dev.portOpen, Bool.and_eq_true] at hport
    obtain ⟨⟨hanswers, _⟩, _⟩ := hport
    have hwait : d.mspHeld a 1 false 0 = false := by simp [Dev.mspHeld, List.range_succ, d.heldNow_blocked h1 h2 ht]
    have hread : (d.clean .msp).readAcc .msp a false = ((d.clean .msp).logErr false .z64Blocked a, 0) := by
      rw [Dev.readAcc, (d.clean .msp).hitOf_blocked h1 h2 h4 h0 ht]; rfl
    simp only [Dev.hostRead, hanswers, if_true, Dev.mspAcc, Option.getD_none, hwait, Bool.false_eq_true, if_false, Dev.mspRead, hclk,
      false_and, ← Dev.clean_msp, hread]
    rfl

/-- A write through the MSP that is a frame of its own ends that frame, although R482 discards it. -/
theorem Dev.tlpWrite_blocked (hr : d.reaches p a = true) (v : Nat) : d.tlpWrite p a (.bar0 false) v = (d.blocked p true a).mspFrameEnd p :=
  congrArg (·.mspFrameEnd p) (d.hostW_blocked h1 h2 h4 h0 ht hr v)

end

/-! ### What the log of a blocked access changes -/

section
variable (wr : Bool) (c : ErrCause) (a : Nat)

/-- The counter of access errors of a direction. -/
def errCnt (wr : Bool) : Fld := if wr then .HIF_ERR_WR_CNT_COUNT else .HIF_ERR_RD_CNT_COUNT

theorem Dev.logHif_eq : d.logHif wr c a = if (d.satInc hifB (errCnt wr)).bit hifB .HIF_ERR_FIRST_VALID then d.satInc hifB (errCnt wr)
    else (d.satInc hifB (errCnt wr)).setWord (hifB + 0x4C) (2 ^ 31 + (if wr then 2 ^ 30 else 0) + c.code * 2 ^ 24 + a % 2 ^ 24) := rfl

/-- What no register word carries, the log of the HIF leaves. -/
theorem Dev.logHif_keeps {β : Type} {P : Dev → β} (hw : ∀ (d : Dev) (b v : Nat), P (d.setWord b v) = P d) : P (d.logHif wr c a) = P d := by
  have hcnt : P (d.satInc hifB (errCnt wr)) = P d := Dev.put_frame d P hw ..
  rw [Dev.logHif_eq]
  split
  · exact hcnt
  · exact (hw ..).trans hcnt

/-- Of the words, the log of the HIF changes a counter and HIF_ERR_FIRST. -/
theorem Dev.logHif_word_ne {b : Nat} (hcnt : b ≠ hifB + (errCnt wr).off) (hfirst : b ≠ hifB + 0x4C) : (d.logHif wr c a).word b = d.word b := by
  have hinc : (d.satInc hifB (errCnt wr)).word b = d.word b := d.put_word_ne' _ (by cases wr <;> decide) hcnt
  rw [Dev.logHif_eq]
  split
  · exact hinc
  · exact (Dev.setWord_word_ne _ _ hfirst).trans hinc

theorem Dev.logHif_cnt : (d.logHif wr c a).get hifB (errCnt wr) = Nat.min (d.get hifB (errCnt wr) + 1) (2 ^ 32 - 1) := by
  have hinc : (d.satInc hifB (errCnt wr)).get hifB (errCnt wr) = Nat.min (d.get hifB (errCnt wr) + 1) (2 ^ 32 - 1) := by
    cases wr <;> exact d.satInc_get (by decide)
  rw [Dev.logHif_eq]
  split
  · exact hinc
  · refine (Dev.get_of_word (by cases wr <;> decide) (Dev.setWord_word_ne _ _ ?_)).trans hinc
    cases wr <;> decide

theorem ErrCause.code_le : c.code ≤ 8 := by cases c <;> decide

/-- The log of the HIF captures the first error (R34). -/
theorem Dev.logHif_first (h : d.bit hifB .HIF_ERR_FIRST_VALID = false) :
    (d.logHif wr c a).word (hifB + 0x4C) = 2 ^ 31 + (if wr then 2 ^ 30 else 0) + c.code * 2 ^ 24 + a % 2 ^ 24 := by
  have hvalid : (d.satInc hifB (errCnt wr)).bit hifB .HIF_ERR_FIRST_VALID = false := by
    rw [← h]
    exact d.put_bit_apart _ (by cases wr <;> decide)
  rw [Dev.logHif_eq, if_neg (by rw [hvalid]; decide), Dev.setWord_word]
  have hcode := c.code_le
  exact Nat.mod_eq_of_lt (by split <;> omega)

end

/-! ### What a blocked access leaves -/

section
variable {p : HPort} (wr : Bool) {a : Nat} (h1 : 0x10000 ≤ a) (h2 : a < 0x20000) (hc : d.clkState ≠ 3)

include h1 h2 hc

theorem Dev.blocked_eq : d.blocked p wr a = ({ d with msp := { d.msp with accErr := true } }.logHif wr .z64Blocked a).leave p := by
  rw [Dev.blocked, Dev.logErr_z64 _ h1 h2 (by cases p <;> exact hc)]
  cases p <;> rfl

/-- What neither a register word nor the MSP carries, a blocked access leaves. -/
theorem Dev.blocked_keeps {β : Type} {P : Dev → β} (hw : ∀ (d : Dev) (b v : Nat), P (d.setWord b v) = P d)
    (hm : ∀ (d : Dev) (m : Msp), P { d with msp := m } = P d) : P (d.blocked p wr a) = P d := by
  rw [d.blocked_eq wr h1 h2 hc]
  exact (Dev.leave_keeps _ hw hm p).trans ((Dev.logHif_keeps _ wr _ a hw).trans (hm ..))

/-- Of the words, a blocked access changes the HIF's log and, on the MSP, its count of access errors (R455). -/
theorem Dev.blocked_word_ne {b : Nat} (hcnt : b ≠ hifB + (errCnt wr).off) (hfirst : b ≠ hifB + 0x4C) (hmsp : b ≠ mspB + 0x58) :
    (d.blocked p wr a).word b = d.word b := by
  rw [d.blocked_eq wr h1 h2 hc]
  exact (Dev.leave_word _ p hmsp).trans (Dev.logHif_word_ne _ wr _ a hcnt hfirst)

theorem Dev.blocked_cnt : (d.blocked p wr a).get hifB (errCnt wr) = Nat.min (d.get hifB (errCnt wr) + 1) (2 ^ 32 - 1) := by
  rw [d.blocked_eq wr h1 h2 hc, Dev.leave_get _ p (by cases wr <;> decide)]
  exact Dev.logHif_cnt _ wr _ a

theorem Dev.blocked_first (h : d.bit hifB .HIF_ERR_FIRST_VALID = false) :
    (d.blocked p wr a).word (hifB + 0x4C) = 2 ^ 31 + (if wr then 2 ^ 30 else 0) + 7 * 2 ^ 24 + a := by
  rw [d.blocked_eq wr h1 h2 hc, Dev.leave_word _ p (by decide)]
  refine (Dev.logHif_first { d with msp := { d.msp with accErr := true } } wr _ a h).trans ?_
  rw [Nat.mod_eq_of_lt (show a < 2 ^ 24 by omega)]
  rfl

/-- A blocked access leaves what waits for the end of a frame of the MSP. -/
theorem Dev.blocked_frame : (d.blocked p wr a).msp.cmd = d.msp.cmd ∧ (d.blocked p wr a).msp.master = d.msp.master ∧
    (d.blocked p wr a).msp.srst = d.msp.srst := by
  have hlog : ∀ e : Dev, (e.logHif wr .z64Blocked a).msp = e.msp := fun e => Dev.logHif_keeps e wr _ a (P := Dev.msp) (fun _ _ _ => rfl)
  rw [d.blocked_eq wr h1 h2 hc]
  cases p with
  | pcie => simp only [Dev.leave, hlog, and_self]
  | msp => simp only [Dev.leave, Dev.mspErr, hlog, if_true, and_self]

end

/-! ### The log of R482, and the accesses that leave it -/

/-- What R482 and R33 say of block `e` after a blocked access at `a`: the window, the pins, the engines and the contexts are as they were in `d`, and of
the words only the log has changed, with cause Z64_BLOCKED. -/
def Dev.z64Logged (d e : Dev) (wr : Bool) (a : Nat) : Prop :=
  e.z64 = d.z64 ∧ e.pins = d.pins ∧ e.engs = d.engs ∧ e.ctxs = d.ctxs ∧
  (∀ b, b ∉ [hifB + 0x44, hifB + 0x48, hifB + 0x4C, mspB + 0x58] → e.word b = d.word b) ∧
  e.get hifB (errCnt wr) = Nat.min (d.get hifB (errCnt wr) + 1) (2 ^ 32 - 1) ∧ e.get hifB (errCnt !wr) = d.get hifB (errCnt !wr) ∧
  (d.bit hifB .HIF_ERR_FIRST_VALID = false → e.bit hifB .HIF_ERR_FIRST_VALID = true ∧ e.get hifB .HIF_ERR_FIRST_CAUSE = 7 ∧
    e.get hifB .HIF_ERR_FIRST_ADDR = a)

section
variable {p : HPort} {a : Nat} (h1 : 0x10000 ≤ a) (h2 : a < 0x20000)

include h1 h2

theorem Dev.blocked_z64Logged (hc : d.clkState ≠ 3) (wr : Bool) : d.z64Logged (d.blocked p wr a) wr a := by
  refine ⟨d.blocked_keeps wr h1 h2 hc (fun _ _ _ => rfl) (fun _ _ => rfl), d.blocked_keeps wr h1 h2 hc (fun _ _ _ => rfl) (fun _ _ => rfl),
    d.blocked_keeps wr h1 h2 hc (fun _ _ _ => rfl) (fun _ _ => rfl), d.blocked_keeps wr h1 h2 hc (fun _ _ _ => rfl) (fun _ _ => rfl), fun b hb => ?_,
    d.blocked_cnt wr h1 h2 hc, ?_, fun hv => ?_⟩
  · simp only [List.mem_cons, List.not_mem_nil, or_false, not_or] at hb
    obtain ⟨hrd, hwr, hfirst, hmsp⟩ := hb
    exact d.blocked_word_ne wr h1 h2 hc (by cases wr <;> assumption) hfirst hmsp
  · exact Dev.get_of_word (by cases wr <;> decide) (d.blocked_word_ne wr h1 h2 hc (by cases wr <;> decide) (by cases wr <;> decide) (by cases wr <;> decide))
  · have hword := d.blocked_first (p := p) wr h1 h2 hc hv
    have hget : ∀ {f : Fld} {x : Nat}, f.off = 0x4C → f.narrow → (2 ^ 31 + (if wr then 2 ^ 30 else 0) + 7 * 2 ^ 24 + a) / 2 ^ f.lo % 2 ^ f.n = x →
        (d.blocked p wr a).get hifB f = x := fun ho hf hx => by rw [Dev.get_narrow _ hf, ho, hword, hx]
    refine ⟨beq_iff_eq.mpr (hget rfl (by decide) ?_), hget rfl (by decide) ?_, hget rfl (by decide) ?_⟩
    · show _ / 2 ^ 31 % 2 ^ 1 = 1
      split <;> omega
    · show _ / 2 ^ 24 % 2 ^ 4 = 7
      split <;> omega
    · show _ / 2 ^ 0 % 2 ^ 24 = a
      split <;> omega

end

/-- Nothing waits for the end of the frame that an access through `p` is. -/
def Dev.frameIdle (d : Dev) (p : HPort) : Prop := p = .msp → d.msp.cmd = none → d.msp.master = none ∧ d.msp.srst = false

theorem Dev.frameIdle_pcie : d.frameIdle .pcie := nofun

theorem Dev.mspFrameEnd_idle {p : HPort} (h : d.frameIdle p) : d.mspFrameEnd p = d := by
  unfold Dev.mspFrameEnd
  refine if_neg fun ⟨hp, hcmd, hwaits⟩ => ?_
  obtain ⟨hmaster, hsrst⟩ := h hp hcmd
  simp [hmaster, hsrst] at hwaits

/-- R482 in every state in which nothing waits for the end of a frame of the MSP: a read of the window returns 0, a write is discarded, and each is
logged; the read and Z64_START need no such condition. -/
theorem Runs.z64_blocked (s : State) (p : HPort) (a : BitVec 24) (x : BitVec 64) (h1 : 0x10000 ≤ a.toNat) (h2 : a.toNat < 0x20000) (h4 : a.toNat % 4 = 0)
    (hr : s.d.reaches p a.toNat = true) (h0 : s.d.present 0 = true) (ht : s.d.txnOpen = true) :
    Runs (.registerRead p a (.bar0 false)) s (fun d => s.d.z64Logged d false a.toNat ∧ d.out = .read p 0 :: s.d.out) ∧
    (s.d.frameIdle p → Runs (.registerWrite p a (.bar0 false) x) s (fun d => s.d.z64Logged d true a.toNat ∧ d.out = s.d.out)) ∧
    (a.toNat = 0x10014 → Runs (.z64Start p (BitVec.ofNat 32 x.toNat)) s (fun d => s.d.z64Logged d true a.toNat)) := by
  have hc := s.d.clkState_of_reaches_z64 h1 h2 hr
  have hlog : ∀ wr, s.d.z64Logged (s.d.blocked p wr a.toNat) wr a.toNat := s.d.blocked_z64Logged h1 h2 hc
  have hout : ∀ wr, (s.d.blocked p wr a.toNat).out = s.d.out := fun wr => s.d.blocked_keeps wr h1 h2 hc (fun _ _ _ => rfl) (fun _ _ => rfl)
  refine ⟨Runs.of_upd (f := fun _ d => d.tlpRead p a.toNat (.bar0 false)) rfl ?_,
    fun hidle => Runs.of_upd (f := fun _ d => d.tlpWrite p a.toNat (.bar0 false) x.toNat) rfl ?_,
    fun ha => Runs.of_upd (f := fun _ d => d.hostW p 0x10014 (BitVec.ofNat 32 x.toNat).toNat) rfl ?_⟩
  · have hread : s.d.tlpRead p a.toNat (.bar0 false) = (s.d.blocked p false a.toNat).emit (.read p 0) := s.d.hostRead_blocked h1 h2 h4 h0 ht hr
    rw [hread]
    exact ⟨hlog false, congrArg (_ :: ·) (hout false)⟩
  · obtain ⟨hcmd, hmaster, hsrst⟩ := s.d.blocked_frame (p := p) true h1 h2 hc
    have hidle' : (s.d.blocked p true a.toNat).frameIdle p := by
      unfold Dev.frameIdle
      rwa [hcmd, hmaster, hsrst]
    rw [s.d.tlpWrite_blocked h1 h2 h4 h0 ht hr, Dev.mspFrameEnd_idle _ hidle']
    exact ⟨hlog true, hout true⟩
  · rw [← ha, s.d.hostW_blocked h1 h2 h4 h0 ht hr]
    exact hlog true

/-! ### A blocked write with which a frame of the MSP ends -/

/-- Host accesses are served in NORMAL, slot 2 is OPEN, and MSP_CFG.MASTER = 1 waits for the end of a frame, which the next access through the MSP
is (R458). -/
def masterWaits : State :=
  { State.reset with d := { ((({ State.reset.d with hif := { served := true } }.setb hifB .HIF_LINK_UP true).put clkB .PG_STAT_STATE 2).put (txnReg 2)
      .TXN_STAT_STATE 1) with msp := { master := some 1 } } }

/-- The address of Z64_ID, the first of the window. -/
def z64IdAddr : BitVec 24 := 0x10000

theorem masterWaits_reaches : masterWaits.d.reaches .msp z64IdAddr.toNat = true := by decide +kernel

theorem masterWaits_present : masterWaits.d.present 0 = true := by decide +kernel

theorem masterWaits_txnOpen : masterWaits.d.txnOpen = true := by decide +kernel

theorem masterWaits_cfg : masterWaits.d.word (mspB + 0x40) / 2 ^ 31 = 0 := by decide +kernel

/-- The frame of a blocked write ends, and MASTER takes effect. -/
theorem masterWaits_frameEnd_cfg : ((masterWaits.d.blocked .msp true z64IdAddr.toNat).mspFrameEnd .msp).word (mspB + 0x40) / 2 ^ 31 = 1 := by decide +kernel

end Sys2Proof.Machine

open Sys2Proof Sys2Proof.Machine

/-- Refutes O58: the claim leaves every word as it was but the log's, while a write through the MSP is a frame of its own, and a write of MASTER
that waits for the end of a frame takes effect then (R458), whether or not the window discards the write (R482). The claim asks nothing of what waits:
`Runs.z64_blocked` is what holds of every state. -/
theorem not_legacyWindowBlocked : ¬ Obligations.LegacyWindowBlocked := by
  unfold Obligations.LegacyWindowBlocked
  intro h
  obtain ⟨_, hwrite, _⟩ := h masterWaits .msp z64IdAddr 0 (by decide) (by decide) (by decide) masterWaits_reaches masterWaits_present masterWaits_txnOpen
  obtain ⟨t, hexec, _, _, ⟨_, _, _, _, hwords, _⟩, _⟩ := hwrite
  have hd : t.d = (masterWaits.d.blocked .msp true z64IdAddr.toNat).mspFrameEnd .msp := by
    have htlp : t.d = masterWaits.d.tlpWrite .msp z64IdAddr.toNat (.bar0 false) 0 := by cases hexec; rfl
    rw [htlp, Dev.tlpWrite_blocked _ (by decide) (by decide) (by decide) masterWaits_present masterWaits_txnOpen masterWaits_reaches]
  have hcfg := hwords (mspB + 0x40) (by decide)
  rw [hd] at hcfg
  exact absurd masterWaits_frameEnd_cfg (by rw [hcfg, masterWaits_cfg]; decide)
end
